-- ==== Sys2Proof/Word.lean ====
section
/-!
DEFINITION. The word types of the Hyrov instruction set and the sparse maps that State is made of.
-/

namespace Sys2Proof

/-- A byte of any store (00 R2). -/
abbrev Byte := BitVec 8
/-- A vector-register lane (03 R58). -/
abbrev Word32 := BitVec 32
/-- A scalar register, a program counter, an address of space .g (00 R8, 07 R165). -/
abbrev Word64 := BitVec 64
/-- One bit per lane of a warp, bit L for lane L (04 R92, R93). -/
abbrev Lanes := BitVec 32

/-- A finite table: pairs of a key and a value, keys strictly rising, no pair holding the default that an
unlisted key reads as. -/
abbrev SMap (α : Type) := List (Nat × α)

end Sys2Proof
end

