-- ==== Sys2Proof/Config.lean ====
section
/-!
DEFINITION. What is fixed for the machine, and the free values: the values that the spec leaves open, as constants
with no body.
-/

namespace Sys2Proof.Config

/-- Free values (log 4): whatever the device picks where the spec leaves a value open. The step takes it at the
counter State.freeCtr, which it then advances. -/
opaque freeValue : Nat → BitVec 64

/-- What a read of the destination of an LW.LD not yet complete sees: the loaded value where it is true, else the value
before (06 R145, 14 R327; log 4). A choice for each load, cycle and cluster. -/
opaque seesLoad : Nat → Nat → Nat → Bool

/-- The hash of a 4 KiB block's address that selects a link (15 R363; log 39). -/
opaque linkHash : Nat → Nat

/-- Bytes beyond one whole transfer that a link's receiver has buffer space for (15 R362; log 39). -/
opaque linkBuffer : Nat

/-- The device's own number in the tags of its requests to peers (15 R363; log 39). -/
opaque deviceNumber : Nat

/-- The version that a firmware image carries, by its length and its bytes as one number (16 R384; log 67). -/
opaque imageVersion : Nat → Nat → BitVec 16

/-- The measurement of a firmware image, by its length and its bytes as one number (16 R385; log 67). -/
opaque imageMeasure : Nat → Nat → Nat

/-- The measurement of the root-of-trust ROM (16 R385; log 67). -/
opaque romMeasure : Nat

/-- Cores of the device (01 R16). -/
def numCores : Nat := 480
/-- Bytes of device memory, 512 GiB (01 R10). -/
def hbmBytes : Nat := 2 ^ 39
/-- Licence transfer time in cycles (11 R270). -/
def licenceTransfer : Nat := 940
/-- Licence idle time in cycles (11 R270). -/
def licenceIdle : Nat := 256
/-- Entries of a hub-die deduplication table (08 R224). -/
def dedupHub : Nat := 4096
/-- Entries of a vault-controller deduplication table (08 R224). -/
def dedupVault : Nat := 256
/-- Entries of a copy queue (10 R239). -/
def copyQueue : Nat := 64
/-- Entries of an anvil queue (11 R263). -/
def anvilQueue : Nat := 16
/-- Entries of a pending-spawn store (13 R314). -/
def spawnStore : Nat := 16
/-- Loads and atomics with a return that a warp may have in flight (14 R336). -/
def maxLoads : Nat := 16
/-- Doorbells that may be pending at once (13 R307). -/
def maxDoorbells : Nat := 64
/-- Cycles between placements of one Cooper (13 R300). -/
def placeInterval : Nat := 8

/-- Lines of a memory-side slice, 32 MiB (01 R10, 07 R170). -/
def sliceLines : Nat := 262144
/-- Lines of an L1 data cache, 256 KiB (01 R16). -/
def l1Lines : Nat := 2048
/-- Lines of an instruction cache, 128 KiB (01 R16). -/
def icacheLines : Nat := 1024
/-- Lines of a constant cache, 64 KiB (01 R16). -/
def kcacheLines : Nat := 512
/-- Entries of a core's TLB (01 R16). -/
def coreTlb : Nat := 256
/-- Entries of a stack's TLB (01 R10). -/
def stackTlb : Nat := 32768
/-- Page walkers of a stack (01 R10). -/
def walkers : Nat := 96
/-- Cycles after which a bank-lock span ends (08 R232). -/
def spanCycles : Nat := 256

/-- Flits that a replay buffer holds (15 R361). -/
def replaySize : Nat := 512
/-- Of those, the ones kept for admission requests and grants, which data flits never block (15 R362; log 39). -/
def replayKept : Nat := 256
/-- Grants of a link outstanding at once (15 R362). -/
def linkGrants : Nat := 256

end Sys2Proof.Config
end

