-- ==== Sys2Proof/Syntax.lean ====
section
/-!
DEFINITION. The syntax: the fields of a warp word, the slots of a bundle, and one constructor of Instr for each row of
the table of operations and events.
-/

namespace Sys2Proof

/-- The fields of a warp word other than its opcode, with its extension word (02 R24). When L is 0 there is no extension
word and ext is 0. -/
structure WarpWord where
  /-- D, debug break. -/
  d : Bool
  /-- L, an extension word follows. -/
  l : Bool
  dst : BitVec 8
  a : BitVec 8
  b : BitVec 8
  c : BitVec 8
  /-- guard: [3] invert, [2:0] mask register. -/
  guard : BitVec 4
  mod : BitVec 16
  ext : Word64
  deriving DecidableEq, Repr

/-- A lane slot of a bundle (02 R37). -/
structure LaneSlot where
  op : BitVec 6
  guard : BitVec 4
  d : BitVec 6
  a : BitVec 6
  b : BitVec 6
  deriving DecidableEq, Repr

/-- The scalar slot of a bundle (02 R40). -/
structure ScalarSlot where
  op : BitVec 7
  d : BitVec 6
  a : BitVec 6
  b : BitVec 6
  i : Bool
  imm : BitVec 14
  deriving DecidableEq, Repr

/-- The engine slot of a bundle (02 R41). -/
structure EngineSlot where
  op : BitVec 6
  te : Bool
  tk : BitVec 3
  a : BitVec 6
  b : BitVec 6
  c : BitVec 6
  mod : BitVec 4
  deriving DecidableEq, Repr

/-- The control slot of a bundle (02 R43). -/
structure ControlSlot where
  op : BitVec 4
  arg : BitVec 12
  deriving DecidableEq, Repr

/-- A long-word bundle (02 R35). -/
structure Bundle where
  /-- The 32 lane slots, slot L executed by cluster cL. -/
  lanes : List LaneSlot
  scalar : ScalarSlot
  engine : EngineSlot
  control : ControlSlot
  wait : BitVec 8
  /-- S, safe point. -/
  s : Bool
  /-- D, debug break. -/
  d : Bool
  reserved : BitVec 30
  deriving DecidableEq, Repr

/-- Who drives a doorbell page or a notify window (15 R357, R371). -/
inductive Requester where
  | pf
  | tdi (t : Nat)
  | hart (h : Nat)
  deriving DecidableEq, Repr

/-- A requester, and whether the keyed stream of its TDI protects what it writes (15 R358). -/
structure Sender where
  who : Requester
  ide : Bool
  deriving DecidableEq, Repr

/-- What a counting-house hart does to memory (08 R220, 15 R366 to R368), the bytes that it gives aside. Its loads and stores, its
load-reserved and store-conditional, its atomics and its fences are those of RISC-V. -/
inductive HartOp where
  | load
  | store
  | fetch
  /-- An AMO: operation code of 08 R221; whether it compares as signed; .aq and .rl. -/
  | amo (op : Nat) (signed : Bool) (aq rl : Bool)
  | lr (aq : Bool)
  | sc (rl : Bool)
  /-- FENCE rw,rw. -/
  | fence
  /-- The hart is reset (08 R225). -/
  | reset
  deriving DecidableEq, Repr

/-- What an ATS Translation Completion says (14 R349). -/
inductive AtsResult where
  /-- The access is granted: the host bus address of the 4 KiB page, with read and write. -/
  | granted (pa : Nat) (r w : Bool)
  /-- The page is not present. -/
  | notPresent
  /-- The completion grants nothing and reports no page to bring in. -/
  | refused
  deriving DecidableEq, Repr

/-- A candidate of a Cooper (13 R302). -/
inductive Candidate where
  | launch (rnum node : Nat)
  | restore (g : Nat)
  deriving DecidableEq, Repr

/-- The kinds of flit (15 R361). -/
inductive FlitKind where
  | data
  | admission
  | grant
  | ack
  | idle
  deriving DecidableEq, Repr

/-- The parts of a received flit that the device acts on (15 R361): its sequence number, the sequence it acknowledges,
its kind, its tag, the bytes that an admission request names, and whether its CRC holds. -/
structure Flit where
  seq : BitVec 16
  ack : BitVec 16
  kind : FlitKind
  tag : Nat
  bytes : Nat
  crcOk : Bool
  deriving DecidableEq, Repr

/-- The tag of a peer request (15 R363). -/
structure PeerTag where
  device : Nat
  agent : Nat
  seq : Nat
  epoch : Nat
  deriving DecidableEq, Repr

/-- What a peer asks for (15 R363). -/
inductive PeerOp where
  | load (n : Nat)
  | store (data : List Byte)
  /-- Operation and type codes of 08 R221 (operation 9 stands for compare-and-swap), data, swap value. -/
  | atomic (op type : Nat) (data swap : Word64)
  deriving DecidableEq, Repr

/-- One constructor for each row of the table of operations and events. A row that is an instruction of the warp word
carries the word's fields; BUNDLE_ISSUE carries the bundle; every other row is a step of one of the device's other
agents or of the world outside, and carries what names it. -/
inductive Instr where
  /-- NOP: R101. -/
  | nop (f : WarpWord)
  /-- BRA: R102. -/
  | bra (f : WarpWord)
  /-- BRX: R103. -/
  | brx (f : WarpWord)
  /-- JOIN: R104. -/
  | join (f : WarpWord)
  /-- CALL: R105. -/
  | call (f : WarpWord)
  /-- RET: R105. -/
  | ret (f : WarpWord)
  /-- EXIT: R106. -/
  | exit (f : WarpWord)
  /-- YIELD: R107. -/
  | yield (f : WarpWord)
  /-- SLEEP: R107. -/
  | sleep (f : WarpWord)
  /-- SLEEP_EXPIRY: R107. -/
  | sleepExpiry (g w e : Nat)
  /-- BALLOT: R108. -/
  | ballot (f : WarpWord)
  /-- VOTE: R108. -/
  | vote (f : WarpWord)
  /-- MSK_OP: R109. -/
  | mskOp (f : WarpWord)
  /-- MSK_SAVE: R109. -/
  | mskSave (f : WarpWord)
  /-- MSK_WSET: R109. -/
  | mskWset (f : WarpWord)
  /-- POPC_M: R110. -/
  | popcM (f : WarpWord)
  /-- FIRST_M: R110. -/
  | firstM (f : WarpWord)
  /-- LEADER: R108. -/
  | leader (f : WarpWord)
  /-- SHFL: R111. -/
  | shfl (f : WarpWord)
  /-- BCAST: R112. -/
  | bcast (f : WarpWord)
  /-- LSCAN: R113. -/
  | lscan (f : WarpWord)
  /-- LRED: R113. -/
  | lred (f : WarpWord)
  /-- GETSR: R114. -/
  | getsr (f : WarpWord)
  /-- SETSR: R114. -/
  | setsr (f : WarpWord)
  /-- MODE_LW: R115. -/
  | modeLw (f : WarpWord)
  /-- MODE_LW_UNBLOCK: R141. -/
  | modeLwUnblock (core : Nat)
  /-- IADD: R119. -/
  | iadd (f : WarpWord)
  /-- ISUB: R119. -/
  | isub (f : WarpWord)
  /-- IADDC: R121. -/
  | iaddc (f : WarpWord)
  /-- IMUL: R119. -/
  | imul (f : WarpWord)
  /-- IMULH: R119. -/
  | imulh (f : WarpWord)
  /-- IMAD: R119. -/
  | imad (f : WarpWord)
  /-- IMIN: R119. -/
  | imin (f : WarpWord)
  /-- IMAX: R119. -/
  | imax (f : WarpWord)
  /-- IABSD: R119. -/
  | iabsd (f : WarpWord)
  /-- ISHL: R119. -/
  | ishl (f : WarpWord)
  /-- ISHR: R119. -/
  | ishr (f : WarpWord)
  /-- ISHRA: R119. -/
  | ishra (f : WarpWord)
  /-- FSHF: R119. -/
  | fshf (f : WarpWord)
  /-- BOOL3: R119. -/
  | bool3 (f : WarpWord)
  /-- BFX: R119. -/
  | bfx (f : WarpWord)
  /-- BFI: R119. -/
  | bfi (f : WarpWord)
  /-- CLZ: R119. -/
  | clz (f : WarpWord)
  /-- POPC: R119. -/
  | popc (f : WarpWord)
  /-- BREV: R119. -/
  | brev (f : WarpWord)
  /-- ICMP: R122. -/
  | icmp (f : WarpWord)
  /-- SEL: R122. -/
  | sel (f : WarpWord)
  /-- IDP4: R120. -/
  | idp4 (f : WarpWord)
  /-- MOV: R119. -/
  | mov (f : WarpWord)
  /-- MOVI: R119. -/
  | movi (f : WarpWord)
  /-- BYSEL: R123. -/
  | bysel (f : WarpWord)
  /-- FADD: R126. -/
  | fadd (f : WarpWord)
  /-- FSUB: R126. -/
  | fsub (f : WarpWord)
  /-- FMUL: R126. -/
  | fmul (f : WarpWord)
  /-- FFMA: R126. -/
  | ffma (f : WarpWord)
  /-- FMIN: R127. -/
  | fmin (f : WarpWord)
  /-- FMAX: R127. -/
  | fmax (f : WarpWord)
  /-- FCMP: R128. -/
  | fcmp (f : WarpWord)
  /-- FRCP: R129. -/
  | frcp (f : WarpWord)
  /-- FRSQ: R130. -/
  | frsq (f : WarpWord)
  /-- FSQRT: R129. -/
  | fsqrt (f : WarpWord)
  /-- FDIV: R129. -/
  | fdiv (f : WarpWord)
  /-- FEXP2: R130. -/
  | fexp2 (f : WarpWord)
  /-- FLOG2: R130. -/
  | flog2 (f : WarpWord)
  /-- FSINPI: R130. -/
  | fsinpi (f : WarpWord)
  /-- FCOSPI: R130. -/
  | fcospi (f : WarpWord)
  /-- FTANH: R130. -/
  | ftanh (f : WarpWord)
  /-- FCLASS: R132. -/
  | fclass (f : WarpWord)
  /-- FRND: R133. -/
  | frnd (f : WarpWord)
  /-- FSCALE: R134. -/
  | fscale (f : WarpWord)
  /-- CVT: R81. -/
  | cvt (f : WarpWord)
  /-- PACK: R82. -/
  | pack (f : WarpWord)
  /-- UNPACK: R83. -/
  | unpack (f : WarpWord)
  /-- QBLK: R84. -/
  | qblk (f : WarpWord)
  /-- DQBLK: R85. -/
  | dqblk (f : WarpWord)
  /-- SADD: R136. -/
  | sadd (f : WarpWord)
  /-- SSUB: R136. -/
  | ssub (f : WarpWord)
  /-- SMUL: R136. -/
  | smul (f : WarpWord)
  /-- SMULH: R136. -/
  | smulh (f : WarpWord)
  /-- SAND: R136. -/
  | sand (f : WarpWord)
  /-- SOR: R136. -/
  | sor (f : WarpWord)
  /-- SXOR: R136. -/
  | sxor (f : WarpWord)
  /-- SSHL: R136. -/
  | sshl (f : WarpWord)
  /-- SSHR: R136. -/
  | sshr (f : WarpWord)
  /-- SSHRA: R136. -/
  | sshra (f : WarpWord)
  /-- SMIN: R136. -/
  | smin (f : WarpWord)
  /-- SMAX: R136. -/
  | smax (f : WarpWord)
  /-- SCMP: R137. -/
  | scmp (f : WarpWord)
  /-- SSEL: R137. -/
  | ssel (f : WarpWord)
  /-- SMOV: R136. -/
  | smov (f : WarpWord)
  /-- SLI: R136. -/
  | sli (f : WarpWord)
  /-- SLD: R138. -/
  | sld (f : WarpWord)
  /-- SST: R138. -/
  | sst (f : WarpWord)
  /-- SBFX: R136. -/
  | sbfx (f : WarpWord)
  /-- SCLZ: R136. -/
  | sclz (f : WarpWord)
  /-- SPOPC: R136. -/
  | spopc (f : WarpWord)
  /-- V2S: R139. -/
  | v2s (f : WarpWord)
  /-- LD: R193. -/
  | ld (f : WarpWord)
  /-- LOAD_LANDS: R166. -/
  | loadLands (id : Nat)
  /-- ST: R194. -/
  | st (f : WarpWord)
  /-- PREF: R195. -/
  | pref (f : WarpWord)
  /-- CCTL: R196. -/
  | cctl (f : WarpWord)
  /-- HFLUSH: R197. -/
  | hflush (f : WarpWord)
  /-- HINV: R197. -/
  | hinv (f : WarpWord)
  /-- HINV_COMPLETE: R198. -/
  | hinvComplete (g w e : Nat)
  /-- PHASE: R199. -/
  | phase (f : WarpWord)
  /-- PADQ: R200. -/
  | padq (f : WarpWord)
  /-- ATOM: R222. -/
  | atom (f : WarpWord)
  /-- ATOM_CAS: R222. -/
  | atomCas (f : WarpWord)
  /-- RED: R222. -/
  | red (f : WarpWord)
  /-- ATOMIC_REQUEST: R224. -/
  | atomicRequest (id : Nat)
  /-- DEDUP_ACK: R224. -/
  | dedupAck (id : Nat)
  /-- FENCE: R226. -/
  | fence (f : WarpWord)
  /-- BAR_INIT: R229. -/
  | barInit (f : WarpWord)
  /-- BAR_ARRIVE: R229. -/
  | barArrive (f : WarpWord)
  /-- BAR_WAIT: R229. -/
  | barWait (f : WarpWord)
  /-- BAR_SYNC: R229. -/
  | barSync (f : WarpWord)
  /-- BAR_QUERY: R229. -/
  | barQuery (f : WarpWord)
  /-- BARRIER_PHASE_COMPLETE: R228. -/
  | barrierPhaseComplete (g b : Nat)
  /-- BANKLOCK: R232. -/
  | banklock (f : WarpWord)
  /-- BANKLOCK_SPAN_END: R232. -/
  | banklockSpanEnd (core g w : Nat)
  /-- TLWAIT: R234. -/
  | tlwait (f : WarpWord)
  /-- TLREAD: R234. -/
  | tlread (f : WarpWord)
  /-- COPY_T: R247. -/
  | copyT (f : WarpWord)
  /-- COPY_L: R247. -/
  | copyL (f : WarpWord)
  /-- COPY_G: R247. -/
  | copyG (f : WarpWord)
  /-- COPY_FILL: R247. -/
  | copyFill (f : WarpWord)
  /-- COPY_STAT: R250. -/
  | copyStat (f : WarpWord)
  /-- COPY_COMPLETE: R247. -/
  | copyComplete (id : Nat)
  /-- COPY_FAULT: R248. -/
  | copyFault (id : Nat)
  /-- OB_RES: R256. -/
  | obRes (f : WarpWord)
  /-- OB_RES_ZERO_DONE: R256. -/
  | obResZeroDone (id : Nat)
  /-- OB_FREE: R257. -/
  | obFree (f : WarpWord)
  /-- OB_FREE_RELEASE: R257. -/
  | obFreeRelease (id : Nat)
  /-- ANV_MMA: R259. -/
  | anvMma (f : WarpWord)
  /-- ANV_STEP_START: R263. -/
  | anvStepStart (id : Nat)
  /-- ANV_STEP_COMMIT: R259. -/
  | anvStepCommit (id : Nat)
  /-- ANV_ZERO: R265. -/
  | anvZero (f : WarpWord)
  /-- ANV_ZERO_COMPLETE: R263. -/
  | anvZeroComplete (id : Nat)
  /-- ANV_DRAIN: R266. -/
  | anvDrain (f : WarpWord)
  /-- ANV_DRAIN_COMPLETE: R263. -/
  | anvDrainComplete (id : Nat)
  /-- ANV_LOADZ: R267. -/
  | anvLoadz (f : WarpWord)
  /-- ANV_LOADZ_COMPLETE: R263. -/
  | anvLoadzComplete (id : Nat)
  /-- ANV_FAULT: R268. -/
  | anvFault (id : Nat)
  /-- GANG_SET: R262. -/
  | gangSet (f : WarpWord)
  /-- LIC_ACQ: R273. -/
  | licAcq (f : WarpWord)
  /-- LIC_REL: R273. -/
  | licRel (f : WarpWord)
  /-- LIC_QUERY: R274. -/
  | licQuery (f : WarpWord)
  /-- LICENCE_TRANSFER_DONE: R270. -/
  | licenceTransferDone (pair : Nat)
  /-- LICENCE_IDLE_FREE: R270. -/
  | licenceIdleFree (pair : Nat)
  /-- LICENCE_URGENT_HANDOVER: R270. -/
  | licenceUrgentHandover (pair : Nat)
  /-- TW_SIG: R280. -/
  | twSig (f : WarpWord)
  /-- TW_WAIT: R281. -/
  | twWait (f : WarpWord)
  /-- REC_ALLOC: R309. -/
  | recAlloc (f : WarpWord)
  /-- REC_COMMIT: R310. -/
  | recCommit (f : WarpWord)
  /-- REC_ABORT: R311. -/
  | recAbort (f : WarpWord)
  /-- REC_INFO: R312. -/
  | recInfo (f : WarpWord)
  /-- SPAWN: R313. -/
  | spawn (f : WarpWord)
  /-- PENDING_SPAWN_START: R314. -/
  | pendingSpawnStart (core : Nat)
  /-- REG_GIVE: R315. -/
  | regGive (f : WarpWord)
  /-- REG_CLAIM: R315. -/
  | regClaim (f : WarpWord)
  /-- NTF_POST: R317. -/
  | ntfPost (f : WarpWord)
  /-- NTF_WAIT: R318. -/
  | ntfWait (f : WarpWord)
  /-- TRAP: R334. -/
  | trap (f : WarpWord)
  /-- BRK: R334. -/
  | brk (f : WarpWord)
  /-- TRAP_RET: R335. -/
  | trapRet (f : WarpWord)
  /-- VARY: R375. -/
  | vary (f : WarpWord)
  /-- BUNDLE_ISSUE: R36. -/
  | bundleIssue (b : Bundle)
  /-- RESULT_LANDING: R144. -/
  | resultLanding (g w : Nat)
  /-- LW_LD_COMPLETE: R149. -/
  | lwLdComplete (id : Nat)
  /-- LW_ST_COMPLETE: R149. -/
  | lwStComplete (id : Nat)
  /-- MODE_SIMT_DRAIN_DONE: R160. -/
  | modeSimtDrainDone (g w : Nat)
  /-- SAFE_POINT_WATCHDOG: R163. -/
  | safePointWatchdog (g w : Nat)
  /-- LIMEWASH_GRANULE_CLEAR: R90. -/
  | limewashGranuleClear (core lg : Nat)
  /-- LAMP_COLD_THRESHOLD: R180. -/
  | lampColdThreshold (u : Nat)
  /-- LAMP_WAKE_COMPLETE: R180. -/
  | lampWakeComplete (u : Nat)
  /-- LAMP_RELEASE: R184. -/
  | lampRelease (u : Nat)
  /-- NEAR_THRESHOLD_ENTER: R186. -/
  | nearThresholdEnter (core lg : Nat)
  /-- NEAR_THRESHOLD_LEAVE: R186. -/
  | nearThresholdLeave (core lg : Nat)
  /-- PARK_WORKGROUP: R231. -/
  | parkWorkgroup (g : Nat)
  /-- BATCH_TIMER_EXPIRY: R299. -/
  | batchTimerExpiry (rnum node : Nat)
  /-- WORKGROUP_PLACE: R300. -/
  | workgroupPlace (stack : Nat)
  /-- PREEMPT_VICTIMS: R303. -/
  | preemptVictims (stack : Nat) (cand : Candidate)
  /-- PREEMPT_SAVE: R343. -/
  | preemptSave (g : Nat)
  /-- WORKGROUP_RESTORE: R345. -/
  | workgroupRestore (stack g : Nat)
  /-- ACTIVATE: R289. -/
  | activate (v : Word64)
  /-- RELOAD: R289. -/
  | reload (v : Word64)
  /-- DEACTIVATE: R289. -/
  | deactivate (v : Word64)
  /-- DOORBELL: R307. -/
  | doorbell (sender : Sender) (word : Word64)
  /-- TRAP_ENTRY: R327. -/
  | trapEntry (g w : Nat)
  /-- LATE_FAULT: R336. -/
  | lateFault (id : Nat) (cause sub : Nat)
  /-- PAGE_WALK_COMPLETE: R346. -/
  | pageWalkComplete (id : Nat)
  /-- ATS_COMPLETION: R349. -/
  | atsCompletion (id : Nat) (r : AtsResult)
  /-- PRI_RESPONSE: R349. -/
  | priResponse (id : Nat) (ok : Bool)
  /-- ATS_INVALIDATION: R349. -/
  | atsInvalidation (pasid : Nat) (va len : Nat)
  /-- TLB_INVALIDATE_ALL: R348. -/
  | tlbInvalidateAll (stack : Nat) (v : Word64)
  /-- TLB_INVALIDATE_ASID: R348. -/
  | tlbInvalidateAsid (stack : Nat) (v : Word64)
  /-- TLB_INVALIDATE_RANGE: R348. -/
  | tlbInvalidateRange (stack : Nat) (v : Word64)
  /-- TLB_INVALIDATION_COMPLETE: R348. -/
  | tlbInvalidationComplete (stack : Nat)
  /-- FSRD_WRITE: R356. -/
  | fsrdWrite (stack : Nat) (v : Word64)
  /-- HOST_BAR_READ: R354. -/
  | hostBarRead (who : Requester) (bar off n : Nat) (ide : Bool)
  /-- HOST_BAR_WRITE: R219. -/
  | hostBarWrite (who : Requester) (bar off : Nat) (data : List Byte) (ide : Bool)
  /-- HOST_ATOMICOP: R353. -/
  | hostAtomicop (who : Requester) (bar off : Nat)
  /-- PCIE_LINK_TRAIN: R353. -/
  | pcieLinkTrain (width rate : Nat)
  /-- LOCK_INTERFACE: R359. -/
  | lockInterface (t : Nat)
  /-- STOP_INTERFACE: R360. -/
  | stopInterface (t : Nat)
  /-- IDE_INTEGRITY_FAILURE: R360. -/
  | ideIntegrityFailure (t : Nat)
  /-- KEY_UPDATE: R360. -/
  | keyUpdate (ok : Bool)
  /-- TDI_UNLOCK_COMPLETE: R360. -/
  | tdiUnlockComplete (t : Nat)
  /-- FLIT_RECEIVE: R361. -/
  | flitReceive (link : Nat) (fl : Flit)
  /-- NEGATIVE_ACKNOWLEDGEMENT: R361. -/
  | negativeAcknowledgement (link seq : Nat)
  /-- LINK_FAILED: R365. -/
  | linkFailed (link : Nat)
  /-- ADMISSION_REQUEST: R362. -/
  | admissionRequest (link bytes tag : Nat)
  /-- ADMISSION_GRANT: R362. -/
  | admissionGrant (link tag : Nat)
  /-- PEER_REQUEST: R363. -/
  | peerRequest (tag : PeerTag) (pa : Nat) (op : PeerOp)
  /-- LINK_TRAIN: R225. -/
  | linkTrain (link peer epoch : Nat)
  /-- HART_ACCESS: R368. -/
  | hartAccess (hart : Nat) (op : HartOp) (pa n : Nat) (data : List Byte)
  /-- RETAG: R369. -/
  | retag (v : Word64)
  /-- SETHART: R370. -/
  | sethart (v : Word64)
  /-- DOM_RELOAD: R370. -/
  | domReload (v : Word64)
  /-- READTAG: R370. -/
  | readtag (v : Word64)
  /-- NOTIFY_WINDOW_SET: R371. -/
  | notifyWindowSet (sender : Sender) (j : Nat) (v : Word64)
  /-- NOTIFY_WINDOW_ADD: R371. -/
  | notifyWindowAdd (sender : Sender) (j : Nat) (v : Word64)
  /-- CAPW: R374. -/
  | capw (v : BitVec 16)
  /-- PLEVEL_CHANGE: R373. -/
  | plevelChange (core lg level : Nat)
  /-- SUPPLY_DROOP: R376. -/
  | supplyDroop (island : Nat)
  /-- SUPPLY_RECOVER: R376. -/
  | supplyRecover (island : Nat)
  /-- THERMAL_TRIP: R376. -/
  | thermalTrip (die : Nat)
  /-- THERMAL_TRIP_END: R186. -/
  | thermalTripEnd (die : Nat)
  /-- SAMPLE_WRITE: R377. -/
  | sampleWrite (core lg : Nat)
  /-- SAMPCTL_WRITE: R387. -/
  | sampctlWrite (v : Word64)
  /-- HCLR: R388. -/
  | hclr (v : Word64)
  /-- UPDATE: R391. -/
  | update (v : Word64)
  /-- FIRMWARE_UPDATE_DONE: R391. -/
  | firmwareUpdateDone (status version : Nat)
  /-- VF_FLR: R382. -/
  | vfFlr (t : Nat)
  /-- REGISTER_WRITE: R355. -/
  | registerWrite (off : Nat) (v : Word64)
  /-- STORE_PERFORMED: R211. -/
  | storePerformed (id : Nat)
  /-- CLUSTER_POWER_GATE: R306. -/
  | clusterPowerGate (cluster : Nat)
  /-- START_INTERFACE: R358. -/
  | startInterface (t : Nat)
  /-- IDE_KM: R358. -/
  | ideKm (t : Nat)
  /-- DOORBELL_COMMIT: R307. -/
  | doorbellCommit
  /-- END_SESSION: R360. -/
  | endSession
  /-- SPDM_HEARTBEAT_MISSED: R360. -/
  | spdmHeartbeatMissed
  /-- GET_MEASUREMENTS: R385. -/
  | getMeasurements
  /-- BELLOWS_WATCHDOG_RESTART: R376. -/
  | bellowsWatchdogRestart
  /-- ICINV: R378. -/
  | icinv
  /-- UNFREEZE: R389. -/
  | unfreeze
  /-- START: R381. -/
  | start
  /-- RESTORE: R381. -/
  | restore
  /-- CHECKPOINT_DONE: R390. -/
  | checkpointDone
  /-- POWER_ON_RESET: R382. -/
  | powerOnReset
  /-- PCIE_FUNDAMENTAL_RESET: R382. -/
  | pcieFundamentalReset
  /-- SPDM_SESSION_START: R358. -/
  | spdmSessionStart
  /-- SPDM_HEARTBEAT: R360. -/
  | spdmHeartbeat
  /-- RCMD_COMPLETE: R356. -/
  | rcmdComplete
  /-- DOMCMD_COMPLETE: R370. -/
  | domcmdComplete
  deriving DecidableEq, Repr

/-- The operations of a warp word, one for each opcode of 02 R31. -/
inductive Op where
  | nop
  | bra
  | brx
  | join
  | call
  | ret
  | exit
  | yield
  | sleep
  | ballot
  | vote
  | mskOp
  | mskSave
  | mskWset
  | popcM
  | firstM
  | leader
  | shfl
  | bcast
  | lscan
  | lred
  | getsr
  | setsr
  | modeLw
  | iadd
  | isub
  | iaddc
  | imul
  | imulh
  | imad
  | imin
  | imax
  | iabsd
  | ishl
  | ishr
  | ishra
  | fshf
  | bool3
  | bfx
  | bfi
  | clz
  | popc
  | brev
  | icmp
  | sel
  | idp4
  | mov
  | movi
  | bysel
  | fadd
  | fsub
  | fmul
  | ffma
  | fmin
  | fmax
  | fcmp
  | frcp
  | frsq
  | fsqrt
  | fdiv
  | fexp2
  | flog2
  | fsinpi
  | fcospi
  | ftanh
  | fclass
  | frnd
  | fscale
  | cvt
  | pack
  | unpack
  | qblk
  | dqblk
  | sadd
  | ssub
  | smul
  | smulh
  | sand
  | sor
  | sxor
  | sshl
  | sshr
  | sshra
  | smin
  | smax
  | scmp
  | ssel
  | smov
  | sli
  | sld
  | sst
  | sbfx
  | sclz
  | spopc
  | v2s
  | ld
  | st
  | pref
  | cctl
  | hflush
  | hinv
  | phase
  | padq
  | atom
  | atomCas
  | red
  | fence
  | barInit
  | barArrive
  | barWait
  | barSync
  | barQuery
  | banklock
  | tlwait
  | tlread
  | copyT
  | copyL
  | copyG
  | copyFill
  | copyStat
  | obRes
  | obFree
  | anvMma
  | anvZero
  | anvDrain
  | anvLoadz
  | gangSet
  | licAcq
  | licRel
  | licQuery
  | twSig
  | twWait
  | recAlloc
  | recCommit
  | recAbort
  | recInfo
  | spawn
  | regGive
  | regClaim
  | ntfPost
  | ntfWait
  | trap
  | brk
  | trapRet
  | vary
  deriving DecidableEq, Repr

namespace Op

/-- The opcode (02 R31). -/
def code : Op → Nat
  | .nop => 0x001
  | .bra => 0x002
  | .brx => 0x003
  | .join => 0x004
  | .call => 0x005
  | .ret => 0x006
  | .exit => 0x007
  | .yield => 0x008
  | .sleep => 0x009
  | .ballot => 0x00A
  | .vote => 0x00B
  | .mskOp => 0x00C
  | .mskSave => 0x00D
  | .mskWset => 0x00E
  | .popcM => 0x00F
  | .firstM => 0x010
  | .leader => 0x011
  | .shfl => 0x012
  | .bcast => 0x013
  | .lscan => 0x014
  | .lred => 0x015
  | .getsr => 0x016
  | .setsr => 0x017
  | .modeLw => 0x018
  | .iadd => 0x040
  | .isub => 0x041
  | .iaddc => 0x042
  | .imul => 0x043
  | .imulh => 0x044
  | .imad => 0x045
  | .imin => 0x046
  | .imax => 0x047
  | .iabsd => 0x048
  | .ishl => 0x049
  | .ishr => 0x04A
  | .ishra => 0x04B
  | .fshf => 0x04C
  | .bool3 => 0x04D
  | .bfx => 0x04E
  | .bfi => 0x04F
  | .clz => 0x050
  | .popc => 0x051
  | .brev => 0x052
  | .icmp => 0x053
  | .sel => 0x054
  | .idp4 => 0x055
  | .mov => 0x056
  | .movi => 0x057
  | .bysel => 0x058
  | .fadd => 0x080
  | .fsub => 0x081
  | .fmul => 0x082
  | .ffma => 0x083
  | .fmin => 0x084
  | .fmax => 0x085
  | .fcmp => 0x086
  | .frcp => 0x087
  | .frsq => 0x088
  | .fsqrt => 0x089
  | .fdiv => 0x08A
  | .fexp2 => 0x08B
  | .flog2 => 0x08C
  | .fsinpi => 0x08D
  | .fcospi => 0x08E
  | .ftanh => 0x08F
  | .fclass => 0x090
  | .frnd => 0x091
  | .fscale => 0x092
  | .cvt => 0x0C0
  | .pack => 0x0C1
  | .unpack => 0x0C2
  | .qblk => 0x0C3
  | .dqblk => 0x0C4
  | .sadd => 0x100
  | .ssub => 0x101
  | .smul => 0x102
  | .smulh => 0x103
  | .sand => 0x104
  | .sor => 0x105
  | .sxor => 0x106
  | .sshl => 0x107
  | .sshr => 0x108
  | .sshra => 0x109
  | .smin => 0x10A
  | .smax => 0x10B
  | .scmp => 0x10C
  | .ssel => 0x10D
  | .smov => 0x10E
  | .sli => 0x10F
  | .sld => 0x110
  | .sst => 0x111
  | .sbfx => 0x112
  | .sclz => 0x113
  | .spopc => 0x114
  | .v2s => 0x115
  | .ld => 0x140
  | .st => 0x141
  | .pref => 0x142
  | .cctl => 0x143
  | .hflush => 0x144
  | .hinv => 0x145
  | .phase => 0x146
  | .padq => 0x147
  | .atom => 0x180
  | .atomCas => 0x181
  | .red => 0x182
  | .fence => 0x183
  | .barInit => 0x184
  | .barArrive => 0x185
  | .barWait => 0x186
  | .barSync => 0x187
  | .barQuery => 0x188
  | .banklock => 0x189
  | .tlwait => 0x18A
  | .tlread => 0x18B
  | .copyT => 0x1C0
  | .copyL => 0x1C1
  | .copyG => 0x1C2
  | .copyFill => 0x1C3
  | .copyStat => 0x1C4
  | .obRes => 0x200
  | .obFree => 0x201
  | .anvMma => 0x202
  | .anvZero => 0x203
  | .anvDrain => 0x204
  | .anvLoadz => 0x205
  | .gangSet => 0x206
  | .licAcq => 0x207
  | .licRel => 0x208
  | .licQuery => 0x209
  | .twSig => 0x20A
  | .twWait => 0x20B
  | .recAlloc => 0x240
  | .recCommit => 0x241
  | .recAbort => 0x242
  | .recInfo => 0x243
  | .spawn => 0x244
  | .regGive => 0x245
  | .regClaim => 0x246
  | .ntfPost => 0x247
  | .ntfWait => 0x248
  | .trap => 0x280
  | .brk => 0x282
  | .trapRet => 0x281
  | .vary => 0x283

/-- The instruction of an operation with given fields. -/
def instr : Op → WarpWord → Instr
  | .nop => .nop
  | .bra => .bra
  | .brx => .brx
  | .join => .join
  | .call => .call
  | .ret => .ret
  | .exit => .exit
  | .yield => .yield
  | .sleep => .sleep
  | .ballot => .ballot
  | .vote => .vote
  | .mskOp => .mskOp
  | .mskSave => .mskSave
  | .mskWset => .mskWset
  | .popcM => .popcM
  | .firstM => .firstM
  | .leader => .leader
  | .shfl => .shfl
  | .bcast => .bcast
  | .lscan => .lscan
  | .lred => .lred
  | .getsr => .getsr
  | .setsr => .setsr
  | .modeLw => .modeLw
  | .iadd => .iadd
  | .isub => .isub
  | .iaddc => .iaddc
  | .imul => .imul
  | .imulh => .imulh
  | .imad => .imad
  | .imin => .imin
  | .imax => .imax
  | .iabsd => .iabsd
  | .ishl => .ishl
  | .ishr => .ishr
  | .ishra => .ishra
  | .fshf => .fshf
  | .bool3 => .bool3
  | .bfx => .bfx
  | .bfi => .bfi
  | .clz => .clz
  | .popc => .popc
  | .brev => .brev
  | .icmp => .icmp
  | .sel => .sel
  | .idp4 => .idp4
  | .mov => .mov
  | .movi => .movi
  | .bysel => .bysel
  | .fadd => .fadd
  | .fsub => .fsub
  | .fmul => .fmul
  | .ffma => .ffma
  | .fmin => .fmin
  | .fmax => .fmax
  | .fcmp => .fcmp
  | .frcp => .frcp
  | .frsq => .frsq
  | .fsqrt => .fsqrt
  | .fdiv => .fdiv
  | .fexp2 => .fexp2
  | .flog2 => .flog2
  | .fsinpi => .fsinpi
  | .fcospi => .fcospi
  | .ftanh => .ftanh
  | .fclass => .fclass
  | .frnd => .frnd
  | .fscale => .fscale
  | .cvt => .cvt
  | .pack => .pack
  | .unpack => .unpack
  | .qblk => .qblk
  | .dqblk => .dqblk
  | .sadd => .sadd
  | .ssub => .ssub
  | .smul => .smul
  | .smulh => .smulh
  | .sand => .sand
  | .sor => .sor
  | .sxor => .sxor
  | .sshl => .sshl
  | .sshr => .sshr
  | .sshra => .sshra
  | .smin => .smin
  | .smax => .smax
  | .scmp => .scmp
  | .ssel => .ssel
  | .smov => .smov
  | .sli => .sli
  | .sld => .sld
  | .sst => .sst
  | .sbfx => .sbfx
  | .sclz => .sclz
  | .spopc => .spopc
  | .v2s => .v2s
  | .ld => .ld
  | .st => .st
  | .pref => .pref
  | .cctl => .cctl
  | .hflush => .hflush
  | .hinv => .hinv
  | .phase => .phase
  | .padq => .padq
  | .atom => .atom
  | .atomCas => .atomCas
  | .red => .red
  | .fence => .fence
  | .barInit => .barInit
  | .barArrive => .barArrive
  | .barWait => .barWait
  | .barSync => .barSync
  | .barQuery => .barQuery
  | .banklock => .banklock
  | .tlwait => .tlwait
  | .tlread => .tlread
  | .copyT => .copyT
  | .copyL => .copyL
  | .copyG => .copyG
  | .copyFill => .copyFill
  | .copyStat => .copyStat
  | .obRes => .obRes
  | .obFree => .obFree
  | .anvMma => .anvMma
  | .anvZero => .anvZero
  | .anvDrain => .anvDrain
  | .anvLoadz => .anvLoadz
  | .gangSet => .gangSet
  | .licAcq => .licAcq
  | .licRel => .licRel
  | .licQuery => .licQuery
  | .twSig => .twSig
  | .twWait => .twWait
  | .recAlloc => .recAlloc
  | .recCommit => .recCommit
  | .recAbort => .recAbort
  | .recInfo => .recInfo
  | .spawn => .spawn
  | .regGive => .regGive
  | .regClaim => .regClaim
  | .ntfPost => .ntfPost
  | .ntfWait => .ntfWait
  | .trap => .trap
  | .brk => .brk
  | .trapRet => .trapRet
  | .vary => .vary

/-- Every operation, in the order of the opcode map. -/
def all : List Op := List.flatten
  [[.nop, .bra, .brx, .join, .call, .ret, .exit, .yield, .sleep, .ballot, .vote, .mskOp, .mskSave, .mskWset, .popcM, .firstM, .leader, .shfl, .bcast, .lscan, .lred, .getsr, .setsr, .modeLw],
   [.iadd, .isub, .iaddc, .imul, .imulh, .imad, .imin, .imax, .iabsd, .ishl, .ishr, .ishra, .fshf, .bool3, .bfx, .bfi, .clz, .popc, .brev, .icmp, .sel, .idp4, .mov, .movi],
   [.bysel, .fadd, .fsub, .fmul, .ffma, .fmin, .fmax, .fcmp, .frcp, .frsq, .fsqrt, .fdiv, .fexp2, .flog2, .fsinpi, .fcospi, .ftanh, .fclass, .frnd, .fscale, .cvt, .pack, .unpack, .qblk],
   [.dqblk, .sadd, .ssub, .smul, .smulh, .sand, .sor, .sxor, .sshl, .sshr, .sshra, .smin, .smax, .scmp, .ssel, .smov, .sli, .sld, .sst, .sbfx, .sclz, .spopc, .v2s, .ld],
   [.st, .pref, .cctl, .hflush, .hinv, .phase, .padq, .atom, .atomCas, .red, .fence, .barInit, .barArrive, .barWait, .barSync, .barQuery, .banklock, .tlwait, .tlread, .copyT, .copyL, .copyG, .copyFill, .copyStat],
   [.obRes, .obFree, .anvMma, .anvZero, .anvDrain, .anvLoadz, .gangSet, .licAcq, .licRel, .licQuery, .twSig, .twWait, .recAlloc, .recCommit, .recAbort, .recInfo, .spawn, .regGive, .regClaim, .ntfPost, .ntfWait, .trap, .trapRet, .brk],
   [.vary]]

end Op

namespace Instr

/-- The operation and fields of an instruction of the warp word; none for every other row. -/
def word? : Instr → Option (Op × WarpWord)
  | .nop f => some (.nop, f)
  | .bra f => some (.bra, f)
  | .brx f => some (.brx, f)
  | .join f => some (.join, f)
  | .call f => some (.call, f)
  | .ret f => some (.ret, f)
  | .exit f => some (.exit, f)
  | .yield f => some (.yield, f)
  | .sleep f => some (.sleep, f)
  | .sleepExpiry _ _ _ => none
  | .ballot f => some (.ballot, f)
  | .vote f => some (.vote, f)
  | .mskOp f => some (.mskOp, f)
  | .mskSave f => some (.mskSave, f)
  | .mskWset f => some (.mskWset, f)
  | .popcM f => some (.popcM, f)
  | .firstM f => some (.firstM, f)
  | .leader f => some (.leader, f)
  | .shfl f => some (.shfl, f)
  | .bcast f => some (.bcast, f)
  | .lscan f => some (.lscan, f)
  | .lred f => some (.lred, f)
  | .getsr f => some (.getsr, f)
  | .setsr f => some (.setsr, f)
  | .modeLw f => some (.modeLw, f)
  | .modeLwUnblock _ => none
  | .iadd f => some (.iadd, f)
  | .isub f => some (.isub, f)
  | .iaddc f => some (.iaddc, f)
  | .imul f => some (.imul, f)
  | .imulh f => some (.imulh, f)
  | .imad f => some (.imad, f)
  | .imin f => some (.imin, f)
  | .imax f => some (.imax, f)
  | .iabsd f => some (.iabsd, f)
  | .ishl f => some (.ishl, f)
  | .ishr f => some (.ishr, f)
  | .ishra f => some (.ishra, f)
  | .fshf f => some (.fshf, f)
  | .bool3 f => some (.bool3, f)
  | .bfx f => some (.bfx, f)
  | .bfi f => some (.bfi, f)
  | .clz f => some (.clz, f)
  | .popc f => some (.popc, f)
  | .brev f => some (.brev, f)
  | .icmp f => some (.icmp, f)
  | .sel f => some (.sel, f)
  | .idp4 f => some (.idp4, f)
  | .mov f => some (.mov, f)
  | .movi f => some (.movi, f)
  | .bysel f => some (.bysel, f)
  | .fadd f => some (.fadd, f)
  | .fsub f => some (.fsub, f)
  | .fmul f => some (.fmul, f)
  | .ffma f => some (.ffma, f)
  | .fmin f => some (.fmin, f)
  | .fmax f => some (.fmax, f)
  | .fcmp f => some (.fcmp, f)
  | .frcp f => some (.frcp, f)
  | .frsq f => some (.frsq, f)
  | .fsqrt f => some (.fsqrt, f)
  | .fdiv f => some (.fdiv, f)
  | .fexp2 f => some (.fexp2, f)
  | .flog2 f => some (.flog2, f)
  | .fsinpi f => some (.fsinpi, f)
  | .fcospi f => some (.fcospi, f)
  | .ftanh f => some (.ftanh, f)
  | .fclass f => some (.fclass, f)
  | .frnd f => some (.frnd, f)
  | .fscale f => some (.fscale, f)
  | .cvt f => some (.cvt, f)
  | .pack f => some (.pack, f)
  | .unpack f => some (.unpack, f)
  | .qblk f => some (.qblk, f)
  | .dqblk f => some (.dqblk, f)
  | .sadd f => some (.sadd, f)
  | .ssub f => some (.ssub, f)
  | .smul f => some (.smul, f)
  | .smulh f => some (.smulh, f)
  | .sand f => some (.sand, f)
  | .sor f => some (.sor, f)
  | .sxor f => some (.sxor, f)
  | .sshl f => some (.sshl, f)
  | .sshr f => some (.sshr, f)
  | .sshra f => some (.sshra, f)
  | .smin f => some (.smin, f)
  | .smax f => some (.smax, f)
  | .scmp f => some (.scmp, f)
  | .ssel f => some (.ssel, f)
  | .smov f => some (.smov, f)
  | .sli f => some (.sli, f)
  | .sld f => some (.sld, f)
  | .sst f => some (.sst, f)
  | .sbfx f => some (.sbfx, f)
  | .sclz f => some (.sclz, f)
  | .spopc f => some (.spopc, f)
  | .v2s f => some (.v2s, f)
  | .ld f => some (.ld, f)
  | .loadLands _ => none
  | .st f => some (.st, f)
  | .pref f => some (.pref, f)
  | .cctl f => some (.cctl, f)
  | .hflush f => some (.hflush, f)
  | .hinv f => some (.hinv, f)
  | .hinvComplete _ _ _ => none
  | .phase f => some (.phase, f)
  | .padq f => some (.padq, f)
  | .atom f => some (.atom, f)
  | .atomCas f => some (.atomCas, f)
  | .red f => some (.red, f)
  | .atomicRequest _ => none
  | .dedupAck _ => none
  | .fence f => some (.fence, f)
  | .barInit f => some (.barInit, f)
  | .barArrive f => some (.barArrive, f)
  | .barWait f => some (.barWait, f)
  | .barSync f => some (.barSync, f)
  | .barQuery f => some (.barQuery, f)
  | .barrierPhaseComplete _ _ => none
  | .banklock f => some (.banklock, f)
  | .banklockSpanEnd _ _ _ => none
  | .tlwait f => some (.tlwait, f)
  | .tlread f => some (.tlread, f)
  | .copyT f => some (.copyT, f)
  | .copyL f => some (.copyL, f)
  | .copyG f => some (.copyG, f)
  | .copyFill f => some (.copyFill, f)
  | .copyStat f => some (.copyStat, f)
  | .copyComplete _ => none
  | .copyFault _ => none
  | .obRes f => some (.obRes, f)
  | .obResZeroDone _ => none
  | .obFree f => some (.obFree, f)
  | .obFreeRelease _ => none
  | .anvMma f => some (.anvMma, f)
  | .anvStepStart _ => none
  | .anvStepCommit _ => none
  | .anvZero f => some (.anvZero, f)
  | .anvZeroComplete _ => none
  | .anvDrain f => some (.anvDrain, f)
  | .anvDrainComplete _ => none
  | .anvLoadz f => some (.anvLoadz, f)
  | .anvLoadzComplete _ => none
  | .anvFault _ => none
  | .gangSet f => some (.gangSet, f)
  | .licAcq f => some (.licAcq, f)
  | .licRel f => some (.licRel, f)
  | .licQuery f => some (.licQuery, f)
  | .licenceTransferDone _ => none
  | .licenceIdleFree _ => none
  | .licenceUrgentHandover _ => none
  | .twSig f => some (.twSig, f)
  | .twWait f => some (.twWait, f)
  | .recAlloc f => some (.recAlloc, f)
  | .recCommit f => some (.recCommit, f)
  | .recAbort f => some (.recAbort, f)
  | .recInfo f => some (.recInfo, f)
  | .spawn f => some (.spawn, f)
  | .pendingSpawnStart _ => none
  | .regGive f => some (.regGive, f)
  | .regClaim f => some (.regClaim, f)
  | .ntfPost f => some (.ntfPost, f)
  | .ntfWait f => some (.ntfWait, f)
  | .trap f => some (.trap, f)
  | .brk f => some (.brk, f)
  | .trapRet f => some (.trapRet, f)
  | .vary f => some (.vary, f)
  | .bundleIssue _ => none
  | .resultLanding _ _ => none
  | .lwLdComplete _ => none
  | .lwStComplete _ => none
  | .modeSimtDrainDone _ _ => none
  | .safePointWatchdog _ _ => none
  | .limewashGranuleClear _ _ => none
  | .lampColdThreshold _ => none
  | .lampWakeComplete _ => none
  | .lampRelease _ => none
  | .nearThresholdEnter _ _ => none
  | .nearThresholdLeave _ _ => none
  | .parkWorkgroup _ => none
  | .batchTimerExpiry _ _ => none
  | .workgroupPlace _ => none
  | .preemptVictims _ _ => none
  | .preemptSave _ => none
  | .workgroupRestore _ _ => none
  | .activate _ => none
  | .reload _ => none
  | .deactivate _ => none
  | .doorbell _ _ => none
  | .doorbellCommit => none
  | .trapEntry _ _ => none
  | .lateFault _ _ _ => none
  | .pageWalkComplete _ => none
  | .atsCompletion _ _ => none
  | .priResponse _ _ => none
  | .atsInvalidation _ _ _ => none
  | .tlbInvalidateAll _ _ => none
  | .tlbInvalidateAsid _ _ => none
  | .tlbInvalidateRange _ _ => none
  | .tlbInvalidationComplete _ => none
  | .fsrdWrite _ _ => none
  | .hostBarRead _ _ _ _ _ => none
  | .hostBarWrite _ _ _ _ _ => none
  | .hostAtomicop _ _ _ => none
  | .pcieLinkTrain _ _ => none
  | .lockInterface _ => none
  | .stopInterface _ => none
  | .ideIntegrityFailure _ => none
  | .endSession => none
  | .keyUpdate _ => none
  | .spdmHeartbeatMissed => none
  | .tdiUnlockComplete _ => none
  | .getMeasurements => none
  | .flitReceive _ _ => none
  | .negativeAcknowledgement _ _ => none
  | .linkFailed _ => none
  | .admissionRequest _ _ _ => none
  | .admissionGrant _ _ => none
  | .peerRequest _ _ _ => none
  | .linkTrain _ _ _ => none
  | .hartAccess _ _ _ _ _ => none
  | .retag _ => none
  | .sethart _ => none
  | .domReload _ => none
  | .readtag _ => none
  | .notifyWindowSet _ _ _ => none
  | .notifyWindowAdd _ _ _ => none
  | .capw _ => none
  | .plevelChange _ _ _ => none
  | .supplyDroop _ => none
  | .supplyRecover _ => none
  | .thermalTrip _ => none
  | .thermalTripEnd _ => none
  | .bellowsWatchdogRestart => none
  | .sampleWrite _ _ => none
  | .sampctlWrite _ => none
  | .icinv => none
  | .hclr _ => none
  | .unfreeze => none
  | .start => none
  | .restore => none
  | .checkpointDone => none
  | .update _ => none
  | .firmwareUpdateDone _ _ => none
  | .powerOnReset => none
  | .pcieFundamentalReset => none
  | .vfFlr _ => none
  | .registerWrite _ _ => none
  | .storePerformed _ => none
  | .clusterPowerGate _ => none
  | .startInterface _ => none
  | .ideKm _ => none
  | .spdmSessionStart => none
  | .spdmHeartbeat => none
  | .rcmdComplete => none
  | .domcmdComplete => none

end Instr

end Sys2Proof
end

