-- ==== Sys2Proof/Machine/Shape.lean ====
section
/-!
DEFINITION. The shape of every instruction of the warp word: what each field names, which immediates, extension words,
guards and modifiers its entry accepts (02 R25 to R30 and the encoding tables of 03, 04, 05, 07, 08, 10, 11, 13, 14, 16).
-/

namespace Sys2Proof.Machine

/-- What a field of the warp word names. -/
inductive Fld where
  /-- Nothing: the field must be zero (02 R29). -/
  | unused
  /-- A block of n vector registers whose first number is a multiple of align (02 R25). -/
  | vec (n align : Nat)
  /-- As vec, or an s-register where the select bit of the field is set (02 R26). -/
  | vecS (n align : Nat)
  /-- s0 to s63. -/
  | sreg
  /-- The first of three s-registers, 1 to 61 (10 R244). -/
  | sblk
  /-- m0 to m15. -/
  | mask
  /-- A number from 0 to max. -/
  | num (max : Nat)
  deriving DecidableEq, Repr

/-- Whether an instruction takes an extension word beside an imm32, and which of its bits carry a meaning (02 R27). -/
inductive Ext where
  | none
  | req (mask : Word64)
  | opt (mask : Word64)
  deriving DecidableEq, Repr

/-- The shape of an instruction. -/
structure Shape where
  dst : Fld := .unused
  a : Fld := .unused
  b : Fld := .unused
  c : Fld := .unused
  /-- The dst field is read, not written (SST). -/
  dstRead : Bool := false
  /-- The guard must be 0b0000: the instruction executes once per warp (02 R28). -/
  once : Bool := false
  imm16 : Bool := false
  imm32 : Bool := false
  /-- mod[15] must be 1. -/
  needImm : Bool := false
  ext : Ext := .none
  /-- The bits of mod[11:0] that name a modifier. -/
  modMask : Nat := 0
  /-- No modifier holds a reserved value or a combination that the entry refuses. -/
  ok : Bool := true
  deriving DecidableEq, Repr

/-- Bits [lo + n - 1 : lo] of mod. -/
def modBits (f : WarpWord) (lo n : Nat) : Nat := f.mod.toNat / 2 ^ lo % 2 ^ n

/-- Bits [lo + n - 1 : lo] of the extension word. -/
def extBits (f : WarpWord) (lo n : Nat) : Nat := f.ext.toNat / 2 ^ lo % 2 ^ n

/-- The immediate bit, mod[15]. -/
def immBit (f : WarpWord) : Bool := f.mod.getLsbD 15

/-- mod[3:0], the type code (02 R30). -/
def typeCode (f : WarpWord) : Nat := modBits f 0 4

/-- Bytes of a value of a type code 0x0 to 0x7 (02 R30). -/
def typeBytes (t : Nat) : Nat :=
  match t / 2 with
  | 0 => 4
  | 1 => 8
  | 2 => 2
  | _ => 1

/-- Registers of a type code: 2 for the 64-bit types, else 1 (03 R58). -/
def typeRegs (t : Nat) : Nat := if t = 2 ∨ t = 3 ∨ t = 9 then 2 else 1

/-- The size in bytes of an access of LD, ST, PREF (07 R190). -/
def accessBytes (f : WarpWord) : Nat := if f.mod.getLsbD 11 then 16 else typeBytes (typeCode f)

/-- Registers of n bytes of data. -/
def bytesRegs (n : Nat) : Nat := if n ≤ 4 then 1 else n / 4

/-- Two-source integer-vector shape (05 R118). -/
def intShape (f : WarpWord) (types : List Nat) (sat : Bool) : Shape :=
  let n := typeRegs (typeCode f)
  { dst := .vec n n, a := .vecS n n, b := .vecS n n, imm16 := true, imm32 := true,
    modMask := if sat then 0x1F else 0xF, ok := types.contains (typeCode f) }

/-- The eight integer type codes. -/
def allInt : List Nat := [0, 1, 2, 3, 4, 5, 6, 7]

/-- One-source integer-vector shape. -/
def intShape1 (f : WarpWord) (types : List Nat) (wide : Bool) : Shape :=
  let n := typeRegs (typeCode f)
  { dst := if wide then .vec n n else .vec 1 1, a := .vecS n n, modMask := 0xF, ok := types.contains (typeCode f) }

/-- Rounding field, mod[6:4] (02 R30). -/
def rndCode (f : WarpWord) : Nat := modBits f 4 3

/-- Floating-vector shape with one, two or three sources (05 R124). `rs`: .rs accepted except for .f64. -/
def fltShape (f : WarpWord) (types : List Nat) (srcs maxRnd : Nat) (rs : Bool) : Shape :=
  let t := typeCode f
  let n := typeRegs t
  { dst := .vec n n, a := .vecS n n
    b := if 2 ≤ srcs then .vecS n n else .unused
    c := if 3 ≤ srcs then .vecS n n else .unused
    imm16 := srcs = 2, imm32 := 2 ≤ srcs
    modMask := 0xFF
    ok := types.contains t && (rndCode f ≤ maxRnd || (rs && rndCode f = 4 && t ≠ 9)) }

/-- The four floating types of the class. -/
def fltTypes : List Nat := [8, 9, 10, 11]

/-- Is a type code one of .f64, .f32, .f16, .bf16? -/
def isBin (t : Nat) : Bool := 8 ≤ t && t ≤ 11

/-- Legality of CVT's modifiers (03 R81). -/
def cvtOk (dt st r : Nat) (ftz : Bool) : Bool :=
  dt ≤ 14 && st ≤ 14 && r ≤ 4 &&
  (if dt ≤ 7 then (if st ≤ 7 then r = 0 && !ftz else r ≤ 3) else true) &&
  (isBin dt || isBin st || !ftz)

/-- Registers read per operand of PACK, 0 where the pair is not listed (03 R82). -/
def packRegs (dt st : Nat) : Nat :=
  if (dt = 10 ∨ dt = 11) ∧ st = 8 then 1
  else if (dt = 4 ∨ dt = 5) ∧ st ≤ 1 then 1
  else if (dt = 12 ∨ dt = 13) ∧ st = 8 then 2
  else if (dt = 6 ∨ dt = 7) ∧ st ≤ 1 then 2
  else if dt = 14 ∧ st = 8 then 4
  else 0

/-- Registers written by UNPACK, 0 where the pair is not listed (03 R83). -/
def unpackRegs (dt st : Nat) : Nat := 2 * packRegs st dt

/-- Scalar-class shape (05 R135). -/
def scaShape (b imm : Bool) (modMask : Nat) (ok : Bool) : Shape :=
  { dst := .sreg, a := .sreg, b := if b then .sreg else .unused, once := true, imm16 := imm, imm32 := imm,
    modMask := modMask, ok := ok }

/-- Legality of the address extension of R191 in a space. -/
def addrExtOk (f : WarpWord) (space : Nat) : Bool :=
  extBits f 32 3 ≤ 4 && extBits f 35 2 ≤ 2 && (extBits f 35 2 = 0 || space = 0)

/-- Legality of LD's and ST's semantics and scope (07 R190): `sem` the one code accepted beside 0. -/
def semOk (f : WarpWord) (sem : Nat) : Bool :=
  if modBits f 6 2 = 0 then modBits f 8 3 = 0 else modBits f 6 2 = sem && modBits f 8 3 ≤ 4

/-- Legality of LD's and ST's size (07 R190). -/
def sizeOk (f : WarpWord) : Bool := typeCode f ≤ 7 && (!f.mod.getLsbD 11 || typeCode f = 0)

/-- Operation and type pairs of ATOM and RED (08 R221). -/
def atomOk (op t : Nat) : Bool :=
  match op with
  | 0 => t ≤ 3 || t = 8 || t = 11
  | 1 => t ≤ 3
  | 2 => t ≤ 3
  | 3 => t = 0 || t = 2
  | 4 => t = 0 || t = 2
  | 5 => t = 0 || t = 2
  | 6 => t = 0 || t = 2
  | 7 => t = 0
  | 8 => t = 0
  | _ => false

/-- The address operand of the atomics (08 R221). -/
def atomExt : Ext := .opt 0x1E7FFFFFFFF

/-- Legality of the decode conditions on CTL and the kinds of a copy command (10 R246): kind 0 COPY.T, 1 COPY.L,
2 COPY.G, 3 COPY.FILL. -/
def copyCtlOk (kind : Nat) (ctl : Nat) (src buf : Nat) : Bool :=
  let st := ctl / 2 ^ 19 % 2 = 1
  let edge := ctl / 2 ^ 18 % 2 = 1
  let mcmask := ctl / 2 ^ 6 % 2 ^ 12
  let mc := ctl / 2 ^ 5 % 2 = 1
  let bar := ctl / 2 ^ 4 % 2 = 1
  let barnum := ctl % 16
  ctl / 2 ^ 20 = 0 && (!(st || edge) || kind = 0) && !(st && edge) && (bar || barnum = 0) &&
  (if mc then mcmask ≠ 0 else mcmask = 0) &&
  (!mc || ((buf = 2 || buf = 3) && !st)) && !(st && buf = 3) &&
  (kind ≠ 3 || (buf = 2 && src = 0)) && (!(kind = 1 || kind = 2) || src ≤ 2)

/-- Shape of the four copy commands (10 R244). -/
def copyShape (f : WarpWord) (kind : Nat) (b : Fld) : Shape :=
  { dst := .sreg, a := .sreg, b := b, ext := .req 0xFFFFFFFF00000000, modMask := 0xF,
    ok := copyCtlOk kind (extBits f 32 32) (modBits f 2 2) (modBits f 0 2) }

/-- The operation and type pairs of LSCAN and LRED (04 R113). -/
def scanOk (op t : Nat) : Bool := if op ≤ 2 then t ≤ 1 || t = 8 else op ≤ 5 && t = 0

/-- The shape of each operation. -/
def shape (op : Op) (f : WarpWord) : Shape :=
  let t := typeCode f
  let n := typeRegs t
  match op with
  -- control and mask (04 R100)
  | .nop => { once := true }
  | .bra => { a := if modBits f 0 1 = 1 then .sreg else .unused, ext := .req 0xFFFFFFFF, modMask := 1 }
  | .brx => { dst := .sreg, a := if modBits f 0 1 = 1 then .vec 1 1 else .unused, ext := .req 0xFFFFFFFFFFFFFFFF,
              modMask := 1 }
  | .join => { a := .sreg, once := true }
  | .call => { dst := .vec 2 2, a := if modBits f 0 1 = 1 then .sreg else .unused, once := true,
               ext := .req 0xFFFFFFFF, modMask := 1 }
  | .ret => { a := .vec 2 2, once := true }
  | .exit => {}
  | .yield => { once := true }
  | .sleep => { b := .sreg, once := true, imm16 := true, imm32 := true }
  | .ballot => { dst := .mask, a := .vecS 1 1 }
  | .vote => { dst := .mask, a := .vecS 1 1, modMask := 3 }
  | .mskOp => { dst := .mask, a := .mask, b := if modBits f 0 3 = 4 then .unused else .mask, once := true,
                modMask := 7, ok := modBits f 0 3 ≤ 4 }
  | .mskSave => { dst := .mask, once := true, modMask := 3, ok := modBits f 0 2 ≠ 3 }
  | .mskWset => { a := .mask, once := true, modMask := 1 }
  | .popcM => { dst := .sreg, a := .mask, once := true }
  | .firstM => { dst := .sreg, a := .mask, once := true }
  | .leader => { dst := .mask }
  | .shfl =>
    let rev := modBits f 0 2 = 3
    { dst := .vec 1 1, a := .vec 1 1, b := if rev then .unused else .vecS 1 1, imm16 := !rev, modMask := 0x3F,
      ok := modBits f 2 3 ≤ 4 && (modBits f 5 1 = 0 || modBits f 0 2 = 1) }
  | .bcast =>
    let first := modBits f 0 1 = 1
    { dst := .vec 1 1, a := .vec 1 1, b := if first then .unused else .sreg, imm16 := !first, modMask := 1 }
  | .lscan => { dst := .vec 1 1, a := .vec 1 1, modMask := 0x3CF, ok := scanOk (modBits f 6 3) t }
  | .lred => { dst := .vec 1 1, a := .vec 1 1, modMask := 0x1CF, ok := scanOk (modBits f 6 3) t }
  | .getsr =>
    let sca := modBits f 0 1 = 1
    let w := if f.a.toNat = 0x0E then 2 else 1
    { dst := if sca then .sreg else .vec w w, a := .num 0x17, once := sca, modMask := 1,
      ok := !(sca && (f.a.toNat = 0 || f.a.toNat = 0x17)) }
  | .setsr => { a := .num 0x17, b := .vecS 1 1, imm16 := true, imm32 := true,
                ok := f.a.toNat = 0x08 || f.a.toNat = 0x16 || f.a.toNat = 0x17 }
  | .modeLw => { once := true, imm16 := true, imm32 := true, needImm := true }
  -- integer vector (05 R118)
  | .iadd => intShape f allInt true
  | .isub => intShape f allInt true
  | .iaddc => { intShape f [0] false with c := .mask, imm16 := false, modMask := 0x2F }
  | .imul => intShape f [0, 1, 2, 3] true
  | .imulh => intShape f [0, 1, 2, 3] false
  | .imad => { intShape f [0, 1, 2, 3] true with c := .vecS n n, imm16 := false }
  | .imin => intShape f allInt false
  | .imax => intShape f allInt false
  | .iabsd => intShape f allInt true
  | .ishl => { intShape f [0, 2] false with b := .vecS 1 1, modMask := 0x2F }
  | .ishr => { intShape f [0, 2] false with b := .vecS 1 1, modMask := 0x2F }
  | .ishra => { intShape f [1, 3] false with b := .vecS 1 1, modMask := 0x2F }
  | .fshf => { intShape f [0] false with c := .vecS 1 1, imm16 := false, modMask := 0x6F }
  | .bool3 => { intShape f [0, 2] false with c := .vecS n n, imm16 := false, modMask := 0xFFF }
  | .bfx => { intShape f [0, 1, 2, 3] false with b := .vecS 1 1 }
  | .bfi => { intShape f [0, 2] false with b := .vecS 1 1, c := .vecS n n, imm16 := false }
  | .clz => intShape1 f [0, 2] false
  | .popc => intShape1 f [0, 2] false
  | .brev => intShape1 f [0, 2] true
  | .icmp => { intShape f allInt false with
      dst := if modBits f 8 1 = 1 then .mask else .vec 1 1, modMask := 0x1EF,
      ok := allInt.contains t && modBits f 5 3 ≤ 5 }
  | .sel => { intShape f [0, 2] false with
      c := if modBits f 5 1 = 1 then .mask else .vecS 1 1, imm16 := false, imm32 := false, modMask := 0x2F }
  | .idp4 => { intShape f [1] true with c := .vecS 1 1, imm16 := false, imm32 := false, modMask := 0x7F }
  | .mov => intShape1 f [0, 2] true
  | .movi => { dst := .vec n n, imm16 := true, imm32 := true, needImm := true, modMask := 0xF, ok := t ≤ 3 }
  | .bysel => { intShape f [0] false with c := .vecS 1 1, imm16 := false }
  -- floating vector (05 R124, R125)
  | .fadd => fltShape f fltTypes 2 3 true
  | .fsub => fltShape f fltTypes 2 3 true
  | .fmul => fltShape f fltTypes 2 3 true
  | .ffma => fltShape f fltTypes 3 3 true
  | .fmin => fltShape f fltTypes 2 0 false
  | .fmax => fltShape f fltTypes 2 0 false
  | .fcmp => { fltShape f [8, 9] 2 0 false with
      dst := if modBits f 11 1 = 1 then .mask else .vec 1 1, modMask := 0xFFF }
  | .frcp => fltShape f [8, 9] 1 3 false
  | .frsq => fltShape f [8, 9] 1 0 false
  | .fsqrt => fltShape f [8, 9] 1 3 false
  | .fdiv => { fltShape f [8, 9] 2 3 false with imm16 := false, imm32 := false }
  | .fexp2 => fltShape f [8] 1 0 false
  | .flog2 => fltShape f [8] 1 0 false
  | .fsinpi => fltShape f [8] 1 0 false
  | .fcospi => fltShape f [8] 1 0 false
  | .ftanh => fltShape f [8] 1 0 false
  | .fclass => { fltShape f fltTypes 1 0 false with dst := .vec 1 1, modMask := 0x7F }
  | .frnd => fltShape f [8, 9] 1 3 false
  | .fscale => { fltShape f [8, 9] 2 3 false with b := .vecS 1 1 }
  -- conversion (03 R79)
  | .cvt =>
    let st := modBits f 8 4
    { dst := .vec n n, a := .vecS (typeRegs st) (typeRegs st), modMask := 0xFFF,
      ok := cvtOk t st (rndCode f) (f.mod.getLsbD 7) }
  | .pack =>
    let k := packRegs t (modBits f 8 4)
    { dst := .vec 1 1, a := .vec k k, b := .vec k k, modMask := 0xFFF,
      ok := k ≠ 0 && (if t ≤ 7 then rndCode f = 0 && !f.mod.getLsbD 7 else rndCode f ≤ 4) }
  | .unpack =>
    let k := unpackRegs t (modBits f 8 4)
    { dst := .vec k k, a := .vec 1 1, modMask := 0xF0F, ok := k ≠ 0 }
  | .qblk =>
    let k := if t = 14 then 8 else 4
    { dst := .vec 2 2, a := .vec k k, modMask := 0xF7F,
      ok := modBits f 8 4 = 8 && 12 ≤ t && t ≤ 14 && rndCode f ≤ 4 }
  | .dqblk =>
    let st := modBits f 8 4
    let k := if st = 14 then 8 else 4
    { dst := .vec k k, a := .vec 2 2, modMask := 0xF0F, ok := t = 8 && 12 ≤ st && st ≤ 14 }
  -- scalar (05 R135)
  | .sadd => scaShape true true 0 true
  | .ssub => scaShape true true 0 true
  | .smul => scaShape true true 0 true
  | .smulh => scaShape true true 1 true
  | .sand => scaShape true true 0 true
  | .sor => scaShape true true 0 true
  | .sxor => scaShape true true 0 true
  | .sshl => scaShape true true 0 true
  | .sshr => scaShape true true 0 true
  | .sshra => scaShape true true 0 true
  | .smin => scaShape true true 1 true
  | .smax => scaShape true true 1 true
  | .scmp => scaShape true true 0xF (modBits f 0 4 ≤ 9)
  | .ssel => scaShape true true 0 true
  | .smov => scaShape false false 0 true
  | .sli => { dst := .sreg, once := true, imm16 := true, imm32 := true, needImm := true, modMask := 1 }
  | .sld => scaShape true true 0x37 (!(modBits f 0 2 = 3 && modBits f 2 1 = 1))
  | .sst => { scaShape true true 0x33 (modBits f 4 2 ≠ 3) with dstRead := true }
  | .sbfx => scaShape true true 1 true
  | .sclz => scaShape false false 0 true
  | .spopc => scaShape false false 0 true
  | .v2s =>
    let w := if modBits f 0 1 = 1 then 2 else 1
    let first := modBits f 1 1 = 1
    { dst := .sreg, a := .vec w w, b := if first then .unused else .sreg, once := true, imm16 := !first,
      imm32 := !first, modMask := 3 }
  -- memory access (07 R190)
  | .ld =>
    let k := bytesRegs (accessBytes f)
    { dst := .vec k k, a := .vecS 1 1, b := .sreg, ext := .opt 0x1FFFFFFFFF, modMask := 0xFFF,
      ok := sizeOk f && semOk f 1 && !(modBits f 4 2 = 3 && modBits f 6 2 ≠ 0) && addrExtOk f (modBits f 4 2) }
  | .st =>
    let k := bytesRegs (accessBytes f)
    { a := .vecS 1 1, b := .sreg, c := .vecS k k, ext := .opt 0x1FFFFFFFFF, modMask := 0xFFF,
      ok := sizeOk f && semOk f 2 && modBits f 4 2 ≠ 3 && addrExtOk f (modBits f 4 2) }
  | .pref => { a := .vecS 1 1, b := .sreg, ext := .opt 0x1FFFFFFFFF, modMask := 0xF0,
               ok := modBits f 6 2 ≠ 3 && modBits f 4 2 ≤ 1 && !(modBits f 6 2 = 0 && modBits f 4 2 = 1) &&
                 addrExtOk f (modBits f 4 2) }
  | .cctl =>
    if modBits f 0 2 = 0 then
      { a := .vecS 1 1, b := .sreg, ext := .opt 0x1FFFFFFFFF, modMask := 3, ok := addrExtOk f 0 }
    else { once := true, modMask := 3, ok := modBits f 0 2 ≠ 3 }
  | .hflush =>
    if modBits f 0 1 = 1 then { once := true, modMask := 1 }
    else { a := .sreg, b := .sreg, once := true, modMask := 1 }
  | .hinv =>
    if modBits f 0 1 = 1 then { once := true, modMask := 1 }
    else { a := .sreg, b := .sreg, once := true, modMask := 1 }
  | .phase => { a := .sreg, once := true, modMask := 7 }
  | .padq => { dst := .sreg, a := if modBits f 0 2 = 2 then .unused else .sreg, once := true, modMask := 3,
               ok := modBits f 0 2 ≠ 3 }
  -- atomics and synchronisation (08 R221, R226, R229, R232, R234)
  | .atom => { dst := .vec n n, a := .vecS 1 1, b := .sreg, c := .vecS n n, ext := atomExt, modMask := 0x7FF,
               ok := atomOk (modBits f 4 4) t && modBits f 8 3 ≤ 4 && extBits f 32 3 ≤ 4 && extBits f 37 2 ≠ 3 }
  | .atomCas => { dst := .vec n n, a := .vecS 1 1, b := .sreg, c := .vec (2 * n) (2 * n), ext := atomExt,
                  modMask := 0x70F,
                  ok := (t = 0 || t = 2) && modBits f 8 3 ≤ 4 && extBits f 32 3 ≤ 4 && extBits f 37 2 ≠ 3 }
  | .red => { a := .vecS 1 1, b := .sreg, c := .vecS n n, ext := atomExt, modMask := 0x7FF,
              ok := atomOk (modBits f 4 4) t && modBits f 8 3 ≤ 4 && extBits f 32 3 ≤ 4 && extBits f 37 2 ≠ 3 &&
                (extBits f 39 2 = 0 || extBits f 39 2 = 2) }
  | .fence => { once := true, modMask := 0x703,
                ok := modBits f 8 3 ≤ 4 && (modBits f 0 2 ≠ 3 || modBits f 8 3 = 0) }
  | .barInit => { a := .num 15, b := if modBits f 0 1 = 1 then .unused else .sreg, once := true, modMask := 0x3F1 }
  | .barArrive => { dst := .sreg, a := .num 15, once := true }
  | .barWait => { a := .num 15, b := if modBits f 0 1 = 1 then .sreg else .unused, once := true, modMask := 1 }
  | .barSync => { dst := .sreg, a := .num 15, once := true }
  | .barQuery => { dst := .sreg, a := .num 15, once := true }
  | .banklock => { b := .sreg, once := true, imm32 := true, modMask := 0xF, ok := modBits f 0 4 ≠ 0 }
  | .tlwait => { b := .sreg, once := true, imm16 := true, imm32 := true, modMask := 1 }
  | .tlread => { dst := .sreg, once := true, modMask := 3 }
  -- copy (10 R244)
  | .copyT => copyShape f 0 .sblk
  | .copyL => copyShape f 1 .sreg
  | .copyG => copyShape f 2 .sblk
  | .copyFill => copyShape f 3 .sreg
  | .copyStat => { dst := .sreg, once := true, ext := .req 0, modMask := 3, ok := modBits f 0 2 ≠ 3 }
  -- anvil and twin (11 R254)
  | .obRes => { a := .sreg, b := .sreg, once := true, ext := .req 0x1F00000000 }
  | .obFree => { once := true, modMask := 0x1F }
  | .anvMma => { a := .sreg, b := .sreg, once := true, ext := .req 0xFFFFFFFFFFFFFFFF }
  | .anvZero => { once := true, modMask := 7 }
  | .anvDrain => { a := .sreg, b := .sreg, c := .sreg, once := true, ext := .req 0x1FFFFFF00000000 }
  | .anvLoadz => { a := .sreg, b := .sreg, once := true, ext := .req 0x1FFFF00000000 }
  | .gangSet => { b := .sreg, once := true, imm16 := true }
  | .licAcq => { dst := if modBits f 0 1 = 1 then .sreg else .unused, once := true, modMask := 1 }
  | .licRel => { once := true }
  | .licQuery => { dst := .sreg, once := true, modMask := 0xF, ok := modBits f 0 2 = 1 || modBits f 2 2 = 0 }
  | .twSig => { a := .num 7, b := .sreg, once := true, imm16 := true }
  | .twWait => { a := .num 7, b := .sreg, once := true, imm16 := true }
  -- work creation (13 R308)
  | .recAlloc =>
    let ind := modBits f 2 1 = 1
    { dst := .sreg, a := if ind then .sreg else .unused, b := .sreg, imm32 := true, modMask := 7,
      ext := .req ((if ind then 0 else 0x3FF00000000) ||| (if immBit f then 0xFFFFFFFF else 0)) }
  | .recCommit => { a := .sreg, ext := .req 0x1FF00000000, modMask := 0xF00,
                    ok := (modBits f 11 1 = 1 || modBits f 8 3 = 0) && modBits f 8 3 ≤ 4 && extBits f 32 9 ≤ 256 }
  | .recAbort => { a := .sreg }
  | .recInfo =>
    let idx := modBits f 0 2 ≤ 1
    { dst := .sreg, b := if idx then .sreg else .unused, once := true, imm16 := idx, imm32 := idx, modMask := 3,
      ok := modBits f 0 2 ≠ 3 }
  | .spawn => { dst := .sreg, a := .vec 8 8, ext := .req 0x1FFFFFFFFFFF,
                ok := f.a.toNat < 240 && 1 ≤ extBits f 40 5 && extBits f 40 5 ≤ 30 }
  | .regGive => { b := .sreg, once := true, imm16 := true }
  | .regClaim => { dst := if modBits f 0 1 = 1 then .sreg else .unused, b := .sreg, once := true, imm16 := true,
                   modMask := 1 }
  | .ntfPost => { a := .num 255, b := .sreg, once := true, imm16 := true, imm32 := true, modMask := 1 }
  | .ntfWait => { dst := .sreg, a := .num 255, b := .sreg, once := true, imm16 := true, imm32 := true, modMask := 2 }
  -- system (14 R333, 16 R375)
  | .trap => { imm16 := true, needImm := true, ok := f.b.toNat = 0 }
  | .brk => { once := true, imm16 := true, needImm := true, ok := f.b.toNat = 0 }
  | .trapRet =>
    let w := modBits f 2 2
    { b := if w = 0 then .unused else .sreg, once := true, modMask := 0xF,
      ok := modBits f 0 2 ≠ 3 && (w = 0 || modBits f 0 2 = 1) }
  | .vary => { a := .sreg, once := true }

/-- What the checks of vector operands depend on (02 R25, 14 R328): the allocation A, whether the warp is at trap level
1, and whether its workgroup is bound to the exchange file. -/
structure RegCtx where
  alloc : Nat
  handler : Bool
  bound : Bool
  deriving DecidableEq, Repr

/-- A block of n registers from v that the warp may name (02 R25, 14 R328). -/
def vecOk (r : RegCtx) (v n align : Nat) : Bool :=
  if v < 240 then v % align = 0 && (v + n ≤ r.alloc || (r.handler && 232 ≤ v && v + n ≤ 240))
  else r.bound && v % align = 0 && v + n ≤ 256

/-- A field with its select bit is legal (02 R25, R26, R29). -/
def fldOk (r : RegCtx) (k : Fld) (v : BitVec 8) (sel : Bool) : Bool :=
  match k with
  | .unused => v = 0 && !sel
  | .vec n al => vecOk r v.toNat n al && !sel
  | .vecS n al => if sel then v.toNat ≤ 63 else vecOk r v.toNat n al
  | .sreg => v.toNat ≤ 63 && !sel
  | .sblk => 1 ≤ v.toNat && v.toNat ≤ 61 && !sel
  | .mask => v.toNat ≤ 15 && !sel
  | .num m => v.toNat ≤ m && !sel

/-- The guard is legal (02 R28). -/
def guardOk (once : Bool) (g : BitVec 4) : Bool := if once then g = 0 else g ≠ 8

/-- The immediate bit, L and the extension word are legal together (02 R27). -/
def immExtOk (sh : Shape) (f : WarpWord) : Bool :=
  let extra (mask : Word64) : Bool := f.ext &&& ~~~mask = 0
  if immBit f then
    if f.l then sh.imm32 && (match sh.ext with
      | .req m => extra m
      | _ => extra 0xFFFFFFFF)
    else sh.imm16 && (match sh.ext with
      | .req _ => false
      | _ => true)
  else !sh.needImm && (if f.l then (match sh.ext with
      | .req m => extra m
      | .opt m => extra m
      | .none => false)
    else (match sh.ext with
      | .req _ => false
      | _ => true))

/-- No field of the word meets an OPERAND condition of 02 R32: the word and the warp's allocation alone decide. -/
def legal (r : RegCtx) (op : Op) (f : WarpWord) : Bool :=
  let sh := shape op f
  let imm := immBit f
  let imm16 := imm && !f.l
  sh.ok && guardOk sh.once f.guard && immExtOk sh f &&
  (f.mod.toNat % 2 ^ 12) &&& sh.modMask = f.mod.toNat % 2 ^ 12 &&
  fldOk r sh.dst f.dst false && fldOk r sh.a f.a (f.mod.getLsbD 14) &&
  (if imm then (imm16 || f.b = 0) && !f.mod.getLsbD 13 else fldOk r sh.b f.b (f.mod.getLsbD 13)) &&
  (if imm16 then !f.mod.getLsbD 12 else fldOk r sh.c f.c (f.mod.getLsbD 12))

/-- Cycles from the issue of an instruction of the warp word to the writing of its vector results, in the issue slots of its lane
group (05 R116, 03 R80, 04 R108, R394); a load's are its memory's (07 R166). -/
def latency (op : Op) (f : WarpWord) : Nat :=
  let wide : Bool := typeRegs (typeCode f) = 2
  match op with
  | .imul => if wide then 10 else 6
  | .imulh => if wide then 10 else 6
  | .imad => if wide then 10 else 6
  | .idp4 => 6
  | .fadd => if wide then 8 else 4
  | .fsub => if wide then 8 else 4
  | .fmul => if wide then 8 else 4
  | .ffma => if wide then 8 else 4
  | .fmin => if wide then 8 else 4
  | .fmax => if wide then 8 else 4
  | .fcmp => if wide then 8 else 4
  | .fclass => if wide then 8 else 4
  | .frnd => if wide then 8 else 4
  | .fscale => if wide then 8 else 4
  | .frcp => if wide then 40 else 20
  | .fdiv => if wide then 40 else 20
  | .fsqrt => if wide then 40 else 20
  | .frsq => if wide then 40 else 12
  | .fexp2 => 12
  | .flog2 => 12
  | .fsinpi => 12
  | .fcospi => 12
  | .ftanh => 12
  | .cvt => if typeRegs (typeCode f) = 2 ∨ typeRegs (modBits f 8 4) = 2 then 8 else 4
  | .qblk => if typeCode f = 14 then 8 else 10
  | .lscan => if typeCode f = 8 then 12 else 8
  | .lred => if typeCode f = 8 then 12 else 8
  | .getsr => 2
  | _ => 4

end Sys2Proof.Machine
end

