-- ==== Sys2Proof/WellFormed.lean ====
section
/-!
DEFINITION. Well-formed instructions: those that some warp may execute without an OPERAND condition.
-/

namespace Sys2Proof

/-- The widest view of the register file: every vector register and the exchange file (02 R25). -/
def widest : Machine.RegCtx := ⟨240, false, true⟩

/-- The fields of a warp word are legal for a warp of the largest allocation (02 R25 to R30), and a word without an
extension word carries none. -/
def WarpWord.wellFormed (op : Op) (f : WarpWord) : Bool :=
  Machine.legal widest op f && (f.l || f.ext = 0)

/-- A bundle has its 32 lane slots (02 R35). -/
def Bundle.wellFormed (b : Bundle) : Bool := b.lanes.length = 32

/-- Well-formedness of every instruction; a step of another agent carries no encoding and is well formed. -/
def Instr.wellFormed (i : Instr) : Bool :=
  match i.word? with
  | some (op, f) => f.wellFormed op
  | none =>
    match i with
    | .bundleIssue b => b.wellFormed
    | _ => true

end Sys2Proof
end

