-- ==== Sys2Proof/Decode.lean ====
section
/-!
DEFINITION. Decoding of warp words and bundles, total on any bytes (02 R24, R31, R32, R35 to R43), and the encoder
beside it.
-/

namespace Sys2Proof

/-- What the bytes of a warp decode to (02 R31, R32). -/
inductive Decoded where
  | instr (i : Instr)
  /-- Opcode 0x000 or a reserved opcode. -/
  | reserved
  /-- Opcode 0x380 to 0x3BF. -/
  | emulate
  /-- Fewer bytes than the instruction has. -/
  | short
  deriving DecidableEq, Repr

/-- The little-endian number that a list of bytes holds (00 R2). -/
def bytesNat (bs : List Byte) : Nat := bs.foldr (fun b n => b.toNat + 256 * n) 0

/-- The n low bytes of a number, lowest first (00 R2). -/
def natBytes : Nat → Nat → List Byte
  | 0, _ => []
  | n + 1, v => BitVec.ofNat 8 v :: natBytes n (v / 256)

/-- The operation of an opcode; none for a number that 02 R31 does not list. -/
def opOfCode (c : Nat) : Option Op := Op.all.find? (fun o => o.code == c)

/-- Field op, word[61:52] (02 R24). -/
def wordOp (w : Word64) : Nat := (w.extractLsb' 52 10).toNat

/-- The fields of a warp word with the eight bytes that follow it (02 R24). -/
def wordFields (w ext : Word64) : WarpWord where
  d := w.getLsbD 63
  l := w.getLsbD 62
  dst := w.extractLsb' 44 8
  a := w.extractLsb' 36 8
  b := w.extractLsb' 28 8
  c := w.extractLsb' 20 8
  guard := w.extractLsb' 16 4
  mod := w.extractLsb' 0 16
  ext := if w.getLsbD 62 then ext else 0

/-- Decode a warp word and the word that follows it. -/
def decodeWord (w ext : Word64) : Decoded :=
  match opOfCode (wordOp w) with
  | some op => .instr (op.instr (wordFields w ext))
  | none => if 0x380 ≤ wordOp w ∧ wordOp w ≤ 0x3BF then .emulate else .reserved

/-- Decode the bytes at a program counter of a warp; the second component is what is left of them. -/
def decodeBytes (bs : List Byte) : Decoded × List Byte :=
  if bs.length < 8 then (.short, bs)
  else
    let w := BitVec.ofNat 64 (bytesNat (bs.take 8))
    if w.getLsbD 62 then
      if bs.length < 16 then (.short, bs)
      else (decodeWord w (BitVec.ofNat 64 (bytesNat ((bs.drop 8).take 8))), bs.drop 16)
    else (decodeWord w 0, bs.drop 8)

/-- Lane slot from its 28 bits (02 R37). -/
def decodeLane (v : BitVec 28) : LaneSlot where
  op := v.extractLsb' 22 6
  guard := v.extractLsb' 18 4
  d := v.extractLsb' 12 6
  a := v.extractLsb' 6 6
  b := v.extractLsb' 0 6

/-- Scalar slot from its 40 bits (02 R40). -/
def decodeScalar (v : BitVec 40) : ScalarSlot where
  op := v.extractLsb' 33 7
  d := v.extractLsb' 27 6
  a := v.extractLsb' 21 6
  b := v.extractLsb' 15 6
  i := v.getLsbD 14
  imm := v.extractLsb' 0 14

/-- Engine slot from its 32 bits (02 R41). -/
def decodeEngine (v : BitVec 32) : EngineSlot where
  op := v.extractLsb' 26 6
  te := v.getLsbD 25
  tk := v.extractLsb' 22 3
  a := v.extractLsb' 16 6
  b := v.extractLsb' 10 6
  c := v.extractLsb' 4 6
  mod := v.extractLsb' 0 4

/-- Bundle from its 1,024 bits (02 R35). Every bundle decodes; R36 checks it when it issues. -/
def decodeBundle (v : BitVec 1024) : Bundle where
  lanes := (List.range 32).map (fun i => decodeLane (v.extractLsb' (28 * i) 28))
  scalar := decodeScalar (v.extractLsb' 896 40)
  engine := decodeEngine (v.extractLsb' 936 32)
  control := ⟨v.extractLsb' 980 4, v.extractLsb' 968 12⟩
  wait := v.extractLsb' 984 8
  s := v.getLsbD 992
  d := v.getLsbD 993
  reserved := v.extractLsb' 994 30

/-- A flag as one bit. -/
def bit (b : Bool) : Nat := if b then 1 else 0

/-- The warp word of an operation and its fields (02 R24). -/
def encodeWord (op : Op) (f : WarpWord) : Word64 :=
  BitVec.ofBool f.d ++ BitVec.ofBool f.l ++ BitVec.ofNat 10 op.code ++ f.dst ++ f.a ++ f.b ++ f.c ++ f.guard ++ f.mod

/-- A lane slot's 28 bits (02 R37). -/
def encodeLane (s : LaneSlot) : BitVec 28 := s.op ++ s.guard ++ s.d ++ s.a ++ s.b

/-- A scalar slot's 40 bits (02 R40). -/
def encodeScalar (s : ScalarSlot) : BitVec 40 := s.op ++ s.d ++ s.a ++ s.b ++ BitVec.ofBool s.i ++ s.imm

/-- An engine slot's 32 bits (02 R41). -/
def encodeEngine (s : EngineSlot) : BitVec 32 :=
  s.op ++ BitVec.ofBool s.te ++ s.tk ++ s.a ++ s.b ++ s.c ++ s.mod

/-- The 32 lane slots' 896 bits, slot L at [28 L + 27 : 28 L] (02 R35). -/
def encodeLanes (ls : List LaneSlot) : Nat := ls.foldr (fun s n => (encodeLane s).toNat + 2 ^ 28 * n) 0

/-- A bundle's 1,024 bits (02 R35). -/
def encodeBundle (b : Bundle) : BitVec 1024 :=
  b.reserved ++ BitVec.ofBool b.d ++ BitVec.ofBool b.s ++ b.wait ++ b.control.op ++ b.control.arg ++
    encodeEngine b.engine ++ encodeScalar b.scalar ++ BitVec.ofNat 896 (encodeLanes b.lanes)

/-- The bytes of an instruction: a warp word with its extension word when L is 1, or a bundle; none for a step of
another agent, which no bytes encode. -/
def encode (i : Instr) : Option (List Byte) :=
  match i.word? with
  | some (op, f) =>
    some (natBytes 8 (encodeWord op f).toNat ++ (if f.l then natBytes 8 f.ext.toNat else []))
  | none =>
    match i with
    | .bundleIssue b => some (natBytes 128 (encodeBundle b).toNat)
    | _ => none

/-- The instruction that the decoder reads from bits numbered as the opcode table numbers them: up to 128 bits are a warp
word and its extension word, more are a bundle; none where the decoder refuses. -/
def decodeTableWord (nbits w : Nat) : Option Instr :=
  if nbits ≤ 128 then
    match (decodeBytes (natBytes 16 w)).1 with
    | .instr i => some i
    | _ => none
  else some (.bundleIssue (decodeBundle (BitVec.ofNat 1024 w)))

end Sys2Proof
end

