-- ==== Sys2Proof/Machine/State.lean ====
section
/-!
DEFINITION. The state of the machine, as plain data, the two ways a step can stop, and the state right after reset.
A register file is a finite table from keys to values; an unlisted key reads the default named at the field.
-/

namespace Sys2Proof.Machine

/-- A fault that stops the model, none of which the device has. Both are safe: a run that meets one proves nothing
(log 6). -/
inductive Fault where
  /-- Raised by every instruction of the warp word and by BUNDLE_ISSUE when no fragment has been selected to issue
  (State.issuer); safe. -/
  | noIssuer
  /-- Raised by a step of an agent that would touch a device physical address beyond the 512 GiB of HBM (01 R10),
  which the spec says does not exist; safe. -/
  | physicalHole
  deriving DecidableEq, Repr

/-- A refusal to give a step a meaning. -/
inductive Refusal where
  /-- Answered by an arm of exec whose instruction has no meaning yet; safe. -/
  | notModelled (mnemonic : String)
  deriving DecidableEq, Repr

/-- What a BLOCKED fragment waits for (04 R96). -/
inductive Wait where
  /-- SLEEP, until the given cycle (04 R107). -/
  | sleep (wake : Nat)
  /-- BAR.WAIT or BAR.SYNC on a barrier, while its phase is the given one (08 R229). -/
  | bar (b phase : Nat)
  /-- TLWAIT on tlc (false) or tla (true) until the counter is at least n (08 R234). -/
  | timeline (anvil : Bool) (n : Nat)
  /-- NTF.WAIT on a notify register for a target, with the s-register that receives the value (13 R318). -/
  | notify (j : Nat) (target : Word64) (dst : Nat) (park : Bool)
  /-- MODE.LW while two lane groups are in long-word mode, since the given cycle (06 R141). -/
  | modeLw (since : Nat) (target : Word64)
  /-- HINV, until the device copies of its range are gone (07 R198); `all` for the .all form. -/
  | hinv (all : Bool) (base len : Nat)
  /-- PHASE, until every newly protected lamp unit is LIT (07 R187), with the address of the PHASE. -/
  | lit (units : List Nat) (word : Word64)
  /-- REC.ALLOC.w, since the given place in the order of waiting, with what it has read at its issue: the node, the number of
  records, .spill, and the register of its result (13 R306, R309). -/
  | alloc (ticket node n : Nat) (spill : Bool) (dst : Nat)
  /-- REG.CLAIM of n granules, since the given place in the order of waiting (13 R315). -/
  | claim (ticket n : Nat)
  deriving DecidableEq, Repr

/-- STATE of a live split-table entry (04 R92); a FREE entry is not listed. -/
inductive FragState where
  | ready
  | blocked (w : Wait)
  /-- At a JOIN that names s-register a. -/
  | joinWait (a : Nat)
  deriving DecidableEq, Repr

/-- A fragment: a live entry of the split table (04 R92). -/
structure Frag where
  pc : Word64
  /-- Reconvergence address; 0 means none. -/
  rca : Word64
  mask : Lanes
  /-- 0 to 255 (04 R92, R96). -/
  age : Nat
  /-- 0 to 31. -/
  depth : Nat
  state : FragState
  /-- The cycle at which the fragment began to wait without interruption (08 R231). -/
  since : Nat
  /-- The fragment waits in LIC.ACQ: its request has been raised, and is not raised again (11 R273). -/
  asked : Bool
  deriving DecidableEq, Repr

/-- An entry of the late-fault list (14 R332). -/
structure Late where
  addr : Word64
  lanes : Lanes
  /-- Destination register; 255 for RED or an s-register. -/
  dst : Nat
  /-- Width code: 0 none, 1 32 bits, 2 64 bits, 3 128 bits. -/
  width : Nat
  cause : Nat
  sub : Nat
  /-- Space code of the address (14 R324). -/
  space : Nat
  /-- The token of an LW.LD, whose late fault waits for the bundle that waits on it (14 R336). -/
  token : Option Nat
  deriving DecidableEq, Repr

/-- The banked state of a warp at trap level 1 (14 R328). -/
structure Bank where
  pc : Word64
  wmask : Lanes
  /-- Banked v232 to v239, register 232 + i of lane L at key 32 i + L; default 0. -/
  vregs : SMap Word32
  /-- Banked s56 to s63 at keys 56 to 63; default 0. -/
  sregs : SMap Word64
  /-- The split-table entry of the trapped fragment; none when the trap was taken in long-word mode. -/
  entry : Option Nat
  /-- What the banked fragment waits for, none while it is READY. -/
  wait : Option Wait
  deriving DecidableEq, Repr

/-- Where a result of a long-word slot lands (06 R144). -/
inductive Landing where
  | vec (reg lane : Nat) (v : Word32)
  | scalar (reg : Nat) (v : Word64)
  | flag (q lane : Nat) (v : Bool)
  | sf (v : Bool)
  deriving DecidableEq, Repr

/-- A result in flight in long-word mode: the schedule slot at which it lands, and the flags it raises (06 R144, R146). -/
structure Flight where
  slot : Nat
  land : Landing
  /-- False when the slot's guard was false: it lands nothing but counts for conflicts (06 R145). -/
  live : Bool
  flags : BitVec 5
  deriving DecidableEq, Repr

/-- A live loop level (06 R159). -/
structure Loop where
  start : Word64
  trips : Nat
  cur : Nat
  len : Nat
  /-- STG, S - 1. -/
  stg : Nat
  /-- G, rotating granules. -/
  rotg : Nat
  rrb : Nat
  /-- Call depth at push. -/
  calld : Nat
  deriving DecidableEq, Repr

/-- A BAR.WAIT of a long-word thread (06 R149): its token, barrier and phase, and whether the phase has completed. -/
structure BarTok where
  tok : Nat
  bar : Nat
  phase : Nat
  done : Bool
  deriving DecidableEq, Repr

/-- What an engine slot's command does once its release is performed: an arrival at a barrier, or a commit of a reservation's
address, count and scope (06 R149). -/
inductive LwDeed where
  | arrive (b : Nat)
  | commit (addr k scope : Nat)
  deriving DecidableEq, Repr

/-- A command of an engine slot that awaits its release: its handle, its token. -/
structure LwPend where
  id : Nat
  tok : Option Nat
  deed : LwDeed
  deriving DecidableEq, Repr

/-- The state of a long-word thread (06 R140 to R163). -/
structure Lw where
  pc : Word64
  /-- The schedule clock (06 R142). -/
  slot : Nat
  flights : List Flight
  /-- For a cluster, the first schedule slot at which its ALU is free again (06 R143). -/
  busy : SMap Nat
  /-- Counts of tokens k0 to k7. -/
  tokens : SMap Nat
  /-- Innermost level first. -/
  loops : List Loop
  /-- Newest return address first. -/
  calls : List Word64
  /-- Cycles counted since MODE.LW or the last safe point, as of the cycle spMark; spHold says that the cycles since
  then do not count (06 R163). -/
  spCount : Nat
  spMark : Nat
  spHold : Bool
  /-- True while MODE.SIMT drains (06 R160). -/
  draining : Bool
  /-- Address of the last safe point passed, 0 before the first (06 R161), for the sampling recorder. -/
  lastSafe : Word64
  barw : List BarTok
  /-- Commands of the engine slot that await their releases, in the order of their issue (06 R149, R152). -/
  pend : List LwPend
  deriving DecidableEq, Repr

/-- A fault summary of an engine (10 R248, 11 R268) with its delivery (14 R339). -/
structure Summary where
  word : Word64
  /-- Number of the faulted command on its timeline. -/
  num : Nat
  faddr : Word64
  space : Nat
  /-- PC of the command's issue. -/
  pc : Word64
  delivered : Bool
  /-- Barrier phases that count the faulted copy's arrival: barrier and phase. -/
  bars : List (Nat × Nat)
  /-- The warp that issued the command, and the token that counted it (06 R149). -/
  warp : Nat
  token : Option Nat
  deriving DecidableEq, Repr

/-- A trap about to be taken (14 R324, R329): flanes none means the lanes of PLANES, space 15 no address. -/
structure Trap where
  cause : Nat
  sub : Nat := 0
  origin : Nat := 0
  space : Nat := 15
  flanes : Option Lanes := none
  faddr : Word64 := 0
  aux : Nat := 0
  deriving DecidableEq, Repr

/-- Where a trap is taken, and what its frame says of the place (14 R329, R330): the trapped entry (none in long-word
mode), PC and NPC, the word and its extension, EXEC, WMASK and PLANES, the captured operands, the destination field, and
in long-word mode the bundle and the status entry. -/
structure Site where
  g : Nat
  w : Nat
  entry : Option Nat
  pc : Word64
  npc : Word64
  word : Word64
  extw : Word64
  exec : Lanes
  wmask : Lanes
  planes : Lanes
  ops : List (Option (List Word64))
  dst : Nat
  bundle : Nat
  status : Nat
  /-- The tokens that the bundle waits for, whose late faults it meets (14 R336). -/
  waits : List Nat
  deriving DecidableEq, Repr

/-- A warp, or the long-word thread it has become (04 R89 to R93). The key of a warp is 16 g + WARPID. -/
structure Warp where
  lg : Nat
  slot : Nat
  /-- Allocation A, in registers (04 R89). -/
  alloc : Nat
  role : Nat
  /-- Exchange lane group XLG (11 R277). -/
  xlg : Nat
  /-- Split table: live entries only. -/
  frags : SMap Frag
  wmask : Lanes
  /-- v0 to v239: register n of lane L at key 32 n + L; default 0. -/
  vregs : SMap Word32
  /-- s1 to s63; default 0. -/
  sregs : SMap Word64
  /-- m1 to m15; default 0. -/
  mregs : SMap Lanes
  /-- NX UF OF DZ NV (03 R77). -/
  fpstat : BitVec 5
  sf : Bool
  /-- SEED of lane L at key L; default 0 (03 R75). -/
  seeds : SMap Word32
  /-- Lane registers marked poisoned, by the key of vregs (14 R338). -/
  poisoned : List Nat
  /-- Banked state while TRAPLEVEL is 1; none at trap level 0. -/
  bank : Option Bank
  /-- Traps taken since launch (14 R329). -/
  tcount : Nat
  late : List Late
  lw : Option Lw
  /-- Values that SPAWN delivers to v0 to v7 once they are clear (13 R313), by the key of vregs. -/
  vals : SMap Word32
  /-- True until the warp's granules of its launch or SPAWN are clear (04 R90). -/
  washing : Bool
  /-- Engine faults that a wait of this warp has acquired and no trap has taken yet: false copy, true anvil, with the
  summary (14 R339). -/
  engine : List (Bool × Summary)
  /-- A trap that the warp has met and whose entry waits for its accesses or for the page of its frame, with its place (14 R327). -/
  due : Option (Trap × Site)
  /-- Cycle of the last instruction that one of its fragments has issued (08 R231). -/
  issued : Nat
  deriving DecidableEq, Repr

/-- A barrier of a workgroup (08 R227). -/
structure Bar where
  phase : Nat
  eexp : Nat
  ecnt : Nat
  warr : BitVec 16
  enrol : BitVec 16
  leaving : BitVec 16
  /-- LASTPH of each warp that has arrived since BAR.INIT. -/
  lastph : SMap Nat
  esat : Bool
  deriving DecidableEq, Repr

/-- A timeline counter (08 R214): the number last accepted, the counter, and the numbers completed beyond it. -/
structure Timeline where
  issued : Nat
  done : Nat
  ahead : List Nat
  deriving DecidableEq, Repr

/-- A gang member that waits in the latch: its warp, its split-table entry and its instruction (11 R261). -/
structure Member where
  w : Nat
  e : Nat
  f : WarpWord
  deriving DecidableEq, Repr

/-- The rendezvous latch of a gang (11 R261). -/
structure Latch where
  word : Word64
  ka : Word64
  kb : Word64
  waiting : List Member
  /-- The gang waits for the licence: its request has been raised, and is not raised again (11 R272). -/
  asked : Bool
  deriving DecidableEq, Repr

/-- A reservation of a workgroup (13 R309). -/
structure Resv where
  addr : Nat
  node : Nat
  n : Nat
  deriving DecidableEq, Repr

/-- Where a workgroup is: on its core, being stopped for a save, or saved (14 R343). -/
inductive WgStatus where
  | resident
  /-- Chosen for pre-emption (false) or parking (true) and not yet saved. -/
  | stopping (park : Bool)
  /-- Saved: pre-empted (false) or parked (true), with the device physical address of its image, and the cycle since
  which it has been queued for restore. -/
  | saved (park : Bool) (image : Nat) (queued : Option Nat)
  /-- Restored to its core and not yet issuing: its units wake (14 R345). -/
  | restoring
  /-- Its last warp has ended; its engine commands have not all completed (04 R106). -/
  | ending
  /-- Stopped by a double fault or TRAP.RET.kill, with what its fault-store record will hold: TYPE, AUX, cause word,
  PC, FADDR and WARPID (14 R341). -/
  | killed (type aux cause : Nat) (pc faddr : Word64) (w : Nat)
  deriving DecidableEq, Repr

/-- Kinds of copy command (10 R247). -/
inductive CopyKind where
  | tensor
  | linear
  | gather
  | fill
  deriving DecidableEq, Repr

/-- A copy command that holds a queue entry (10 R239). The operands are those of R244, as values. -/
structure Copy where
  id : Nat
  core : Nat
  g : Nat
  w : Nat
  /-- The lane thread that issued it, all lanes for a long-word thread (08 R213, 10 R238). -/
  lanes : Lanes
  kind : CopyKind
  dst : Word64
  a : Word64
  b0 : Word64
  b1 : Word64
  b2 : Word64
  src : Nat
  buf : Nat
  ctl : BitVec 32
  num : Nat
  token : Option Nat
  shared : Bool
  pc : Word64
  accepted : Nat
  /-- The range record that an .ob destination named at acceptance (11 R255). -/
  obBits : BitVec 128
  /-- The receivers of a multicast, fixed at acceptance, with the range record of the number that each has reserved, if it has
  (10 R249, log 52); and whether a named core had none. -/
  recv : List (Nat × Option (BitVec 128))
  absent : Bool
  /-- The layout record of COPY.T, once the command has started (10 R242). -/
  layout : Option (BitVec 512)
  /-- Units fully moved, in order; the words moved beyond them; and the indices of COPY.G that have been read, by row (10 R240,
  R247, R248). -/
  moved : Nat
  ahead : List Nat
  rows : SMap Nat
  /-- Words beyond the first 4,096 bytes of a COPY.G row that have been read and are written once the whole row has: the word, and its
  cells at the targets (10 R240, R248). -/
  late : SMap (List Host.Cell)
  deriving DecidableEq, Repr

/-- Kinds of anvil command (11 R263). -/
inductive AnvKind where
  | mma
  | zero
  | drain
  | loadz
  | res
  | free
  deriving DecidableEq, Repr

/-- The operand bytes that a step read at its start (11 R264): data, block scales and band scale of A and of B, each
as a little-endian number, with the records they came from. -/
structure Snap where
  step : Nat
  started : Nat
  adata : Nat
  ascale : Nat
  aband : Nat
  bdata : Nat
  bscale : Nat
  bband : Nat
  deriving DecidableEq, Repr

/-- An anvil command that holds a queue entry (11 R263). -/
structure Anv where
  id : Nat
  core : Nat
  g : Nat
  w : Nat
  /-- The lane threads of its issuer (08 R213). -/
  lanes : Lanes
  kind : AnvKind
  /-- MMA word, drain word, load word, or record number of OB.RES and OB.FREE; tile and kind bits of ANV.ZERO. -/
  word : Word64
  a : Word64
  b : Word64
  c : Word64
  num : Nat
  token : Option Nat
  lg : Nat
  pc : Word64
  accepted : Nat
  /-- Steps committed, and steps between start and commit, oldest first. -/
  committed : Nat
  flight : List Snap
  /-- Range records at acceptance: A and B of ANV.MMA, the .ob destination of ANV.DRAIN in recA, the record of OB.RES in recA and
  what the workgroup held there before in recB; zero otherwise. -/
  recA : BitVec 128
  recB : BitVec 128
  /-- The tile's kind at acceptance, after the command's own change of it: true I96. -/
  i96 : Bool
  /-- ANV.LOADZ of a free tile or of 64 rows (11 R267). -/
  fresh : Bool
  deriving DecidableEq, Repr

/-- A range record (11 R255): its fields as bits [96:0], its owner, and the handle of the OB.RES that filled it. -/
structure ObRec where
  id : Nat
  bits : BitVec 128
  owner : Nat
  deriving DecidableEq, Repr

/-- An accumulator tile (11 R260): KIND, status bits [7:0], owner, and its elements; element (r, c) at key 64 r + c,
default 0. -/
structure Tile where
  owner : Nat
  i96 : Bool
  status : BitVec 8
  elems : SMap (BitVec 96)
  poisoned : List Nat
  deriving DecidableEq, Repr

/-- A bank-lock span (08 R232): the warp's key, the bank mask, the instructions left, and the cycle it began. -/
structure Span where
  warp : Nat
  banks : BitVec 32
  left : Nat
  began : Nat
  deriving DecidableEq, Repr

/-- An entry of the pending-spawn store (13 R314). -/
structure Pending where
  g : Nat
  w : Nat
  pc : Word64
  role : Nat
  ag : Nat
  vals : SMap Word32
  deriving DecidableEq, Repr

/-- A register of one exchange lane (11 R277): its value, the value before the last cycle in which it was written,
that cycle, and which sides wrote it in that cycle. -/
structure XReg where
  val : Word32
  prev : Word32
  cycle : Nat
  floor : Bool
  loft : Bool
  deriving DecidableEq, Repr

/-- A write of an exchange register whose result has not been written yet (11 R278): the writing warp, the pair and the side, the
register's key in the file, the value, and the cycle in which it is written, none until the instruction has issued. -/
structure XWrite where
  g : Nat
  w : Nat
  pair : Nat
  side : Nat
  key : Nat
  val : Word32
  due : Option Nat
  deriving DecidableEq, Repr

/-- What a save takes off the core beside the image's bytes (14 R344): tiles, range records, pending-spawn entries, the
pair's twin flags and exchange file, and the poisoned 32-byte granules of the scratchpad and of the operand buffer,
numbered from .p offset 0 and from operand-buffer byte 0. -/
structure Saved where
  tiles : SMap Tile
  obs : SMap ObRec
  spawns : List Pending
  flags : SMap Word32
  xfile : SMap XReg
  padPoison : List Nat
  obPoison : List Nat
  deriving DecidableEq, Repr

/-- A workgroup (01 R16, R17). -/
structure Wg where
  core : Nat
  rnum : Nat
  node : Nat
  asid : Nat
  wgid : Nat
  depth : Nat
  /-- Addresses of the headers of the batch's records, in the order taken. -/
  batch : List Nat
  launch : Nat
  status : WgStatus
  /-- First scratchpad granule of the allocation (07 R172). -/
  padBase : Nat
  /-- PADSIZE in bytes. -/
  padSize : Nat
  wrapped : Bool
  phase : Nat
  nearMask : BitVec 48
  tlc : Timeline
  tla : Timeline
  /-- b0 to b15. -/
  bars : SMap Bar
  gang : BitVec 16
  latch : Option Latch
  copyFault : Option Summary
  anvFault : Option Summary
  resv : List Resv
  /-- Register pools, granules by lane group (13 R315); default 0. -/
  pools : SMap Nat
  trapBlock : Option Nat
  imageBlock : Option Nat
  /-- Block of the checkpoint image area that holds its image (16 R390). -/
  ckptBlock : Option Nat
  /-- While the workgroup stops for a save: the fragments, warp and entry, found at a boundary whose next instruction meets no
  trap condition (14 R350). -/
  stood : List (Nat × Nat)
  /-- What a save has taken off the core; none while the workgroup is on it. -/
  saved : Option Saved
  partner : Option Nat
  pairPlaced : Bool
  bound : Bool
  xconf : Bool
  deriving DecidableEq, Repr

/-- A core (01 R16). -/
structure Core where
  obs : SMap ObRec
  tiles : SMap Tile
  spawns : List Pending
  spans : List Span
  /-- Lines of .g memory in the L1 data cache, by memory key div 128 (07 R168). -/
  l1 : List Nat
  /-- Lines in the instruction cache, by memory key div 128 (02 R22). -/
  icache : List Nat
  /-- Lines of constant images in the constant cache, by ASID and global address div 128 (07 R175). -/
  kcache : List Nat
  deriving DecidableEq, Repr

/-- A lane group; its key is 4 core + lane group. -/
structure Lg where
  plevel : Nat
  near : Bool
  /-- Issue of the previous slot: warp key and entry (04 R97). -/
  last : Option (Nat × Nat)
  /-- A fragment made ineligible for the next issue slot by YIELD (04 R107). -/
  yielded : Option (Nat × Nat)
  /-- Granules to clear, in the order granted: warp key and granule of the warp (04 R90). -/
  wash : List (Nat × Nat)
  /-- Next slot that the sampling recorder reports (16 R377). -/
  sample : Nat
  /-- Cycle of the last issue, for the sampling recorder's ISSUED (16 R377). -/
  lastAt : Option Nat
  /-- Cycles in which its last four anvil steps have started, the last first (16 R373). -/
  stepped : List Nat
  deriving DecidableEq, Repr

/-- The matrix licence of a pair (11 R269): its condition. -/
inductive Lic where
  /-- UNOWNED, remembering a side. -/
  | unowned (side : Nat)
  /-- HELD by a workgroup on a side, pinned or not, since a cycle. -/
  | held (g side : Nat) (pinned : Bool)
  /-- TRANSFER towards a side for a requester, begun at a cycle. -/
  | transfer (g side : Nat) (pinned : Bool) (began : Nat)
  deriving DecidableEq, Repr

/-- A pending request for a licence (11 R269). -/
structure LicReq where
  g : Nat
  pinned : Bool
  urgent : Bool
  /-- Raised by a long-word thread's engine slot. -/
  engine : Bool
  /-- The licence that it brings is freed once its workgroup's accepted ANV.MMA commands have completed: it was released, or its
  workgroup has ended (11 R270). -/
  rel : Bool
  age : Nat
  deriving DecidableEq, Repr

/-- A twin pair (01 R16). -/
structure Pair where
  lic : Lic
  reqs : List LicReq
  /-- Cycle of the later of the holder's taking the licence and its last step commit (11 R270). -/
  idleFrom : Nat
  /-- LIC.REL executed, or holder ended: free once its ANV.MMA commands complete. -/
  releasing : Bool
  /-- x0 to x15: register j of exchange lane e at key 16 e + j; default 0. -/
  xfile : SMap XReg
  /-- f0 to f7; default 0. -/
  flags : SMap Word32
  /-- The two workgroups that hold the flags, and whether they hold the file (11 R279). -/
  holder : Option (Nat × Nat)
  bound : Bool
  deriving DecidableEq, Repr

/-- State of a lamp unit (07 R179). -/
inductive Lamp where
  | lit (idleFrom : Nat)
  | dim
  | dark
  /-- WAKING since a cycle; `zero` when the state left was DARK of a scratchpad or vault unit. -/
  | waking (since : Nat) (zero : Bool)
  deriving DecidableEq, Repr

/-- Kinds of access that a warp has in flight (14 R336). -/
inductive LoadKind where
  | ld
  | sld
  | lwld
  deriving DecidableEq, Repr

/-- A load in flight (07 R166): what it read at issue. -/
structure Load where
  id : Nat
  g : Nat
  w : Nat
  kind : LoadKind
  /-- Space code. -/
  space : Nat
  /-- Lane results: register, lane, value. -/
  vecs : List (Nat × Nat × Word32)
  /-- Scalar result: s-register and value. -/
  scal : Option (Nat × Word64)
  /-- First destination register and width code of R332, 255 for an s-register. -/
  dst : Nat
  width : Nat
  /-- Bytes read: lane, address given by the program, memory key, size. -/
  reads : List (Nat × Nat × Nat × Nat)
  token : Option Nat
  /-- Cycle of issue. -/
  since : Nat
  /-- The lines that it asked of memory-side slices, by the key of their first byte (16 R379). -/
  slices : List Nat
  deriving DecidableEq, Repr

/-- What a pending entry of the store queue does when it is performed. -/
inductive StoreKind where
  | st
  /-- Write-back of a host line by HFLUSH (07 R197), by line number of the bus address. -/
  | flush (line : Nat)
  deriving DecidableEq, Repr

/-- A store issued and not yet performed at its point of coherence (08 R211). -/
structure Store where
  id : Nat
  core : Nat
  g : Nat
  w : Nat
  kind : StoreKind
  cells : List Host.Cell
  token : Option Nat
  /-- Cycle of issue. -/
  since : Nat
  /-- The lane thread whose store it is (08 R201); 0 for a long-word thread. -/
  lane : Nat
  /-- Of an ST.rel: a marked access (08 R204). -/
  marked : Bool
  /-- Under .str (07 R170). -/
  str : Bool
  /-- The handle of the first store of its instruction, and the granules that the instruction writes whole (14 R338). -/
  inst : Nat
  whole : List Nat
  /-- Under .str, the lines that another store of its instruction has written, by the key of their first byte (07 R170). -/
  joined : List Nat
  deriving DecidableEq, Repr

/-- Accesses that wait for lamp units, in the order of their arrival (07 R180, R181): the agent that waits and every unit
that its access touches. -/
structure LampWait where
  who : Nat
  units : List Nat
  deriving DecidableEq, Repr

/-- An atomic request: one group of R222, not yet executed or executed and not yet acknowledged (08 R224). -/
structure Atom where
  id : Nat
  core : Nat
  g : Nat
  w : Nat
  /-- 0 to 8 the operation of R221, 9 compare-and-swap. -/
  op : Nat
  type : Nat
  key : Nat
  va : Nat
  /-- Lanes in ascending order with data and swap values. -/
  lanes : List (Nat × Word64 × Word64)
  /-- Destination register for ATOM and ATOM.CAS; none for RED. -/
  dst : Option Nat
  /-- Executing unit: 0 to 7 hub dies, 8 + p the controller of vault p. -/
  unit : Nat
  /-- Held at its source until it is done; then the source holds the response. -/
  done : Bool
  /-- Cycle of issue. -/
  since : Nat
  /-- The scope code at which an instruction that acquires does so once the request is executed (08 R222). -/
  acq : Option Nat
  /-- LINKS of the window that it goes through (15 R364). -/
  links : Nat
  deriving DecidableEq, Repr

/-- Who placed an entry in a deduplication table (08 R225). -/
inductive DedupSource where
  | device (id : Nat)
  | peer (device agent seq epoch : Nat)
  /-- A counting-house hart and its sequence number. -/
  | hart (h seq : Nat)
  deriving DecidableEq, Repr

/-- An entry of a deduplication table (08 R224): its handle, the unit, the tag, the old values recorded. -/
structure Dedup where
  id : Nat
  unit : Nat
  source : DedupSource
  olds : List (Nat × Word64)
  deriving DecidableEq, Repr

/-- A cached translation (14 R348): holder 0 to 479 a core, 480 and 481 a stack. -/
structure Tlb where
  holder : Nat
  asid : Nat
  /-- Page size as a power of two: 12 for an ATS page, 16, 21 or 30. -/
  size : Nat
  vpn : Nat
  /-- Physical or host bus address of the page. -/
  pa : Nat
  mtype : Nat
  r : Bool
  w : Bool
  x : Bool
  deriving DecidableEq, Repr

/-- Where a translation request stands (14 R346, R349). -/
inductive WalkState where
  | walking
  /-- Sent to the host as an ATS Translation Request, with the permissions and type of the leaf. -/
  | ats (mtype : Nat)
  | pri (mtype : Nat)
  /-- Ended in TRANSLATION with a subcode of R323. -/
  | failed (sub : Nat)
  deriving DecidableEq, Repr

/-- A translation request: of a warp (its key), or of an engine command (its id above 2^20). -/
structure Walk where
  id : Nat
  who : Nat
  asid : Nat
  va : Nat
  core : Nat
  state : WalkState
  deriving DecidableEq, Repr

/-- The device's copy of a context descriptor (14 R321): the descriptor's bits, and whether the ASID is barred from
launching by a TDI error (15 R360). -/
structure Context where
  bits : BitVec 512
  deriving DecidableEq, Repr

/-- State of a record (13 R296). -/
inductive RecState where
  | reserved
  | waiting
  | launched
  | consumed
  | aborted
  deriving DecidableEq, Repr

/-- A record of a node's queue; FREE slots are not listed (13 R295, R296). -/
structure Rec where
  addr : Nat
  /-- Position in the ring counted from ACTIVATE; none for a spilled record. -/
  pos : Option Nat
  state : RecState
  /-- Commit cycle and commit order. -/
  commit : Nat
  order : Nat
  range : Bool
  count : Nat
  depth : Nat
  /-- Launches made and launches ended, for a range record. -/
  made : Nat
  ended : Nat
  deriving DecidableEq, Repr

/-- A pending launch: its records stay WAITING until it is placed (13 R296, R299). -/
structure Launch where
  recs : List Nat
  range : Bool
  index : Nat
  count : Nat
  depth : Nat
  /-- The cycle from which its PREDLY counts (13 R303). -/
  since : Nat
  /-- The cycle in which it was formed (13 R299). -/
  formed : Nat
  deriving DecidableEq, Repr

/-- Who waits for an allocation on a ring (13 R306): a fragment of a warp, or a doorbell. -/
inductive Waiter where
  | frag (warp : Nat) (ticket : Nat)
  | bell (ticket : Nat)
  deriving DecidableEq, Repr

/-- A node: its descriptor and its queue (13 R291, R295). -/
structure Node where
  bits : BitVec 1024
  head : Nat
  tail : Nat
  recs : List Rec
  waiters : List Waiter
  /-- Launches of ordinary batches since ACTIVATE (13 R301). -/
  launches : Nat
  pending : Option Launch
  deriving DecidableEq, Repr

/-- An active region (13 R287), keyed by RNUM. -/
structure Region where
  addr : Nat
  bits : BitVec 2048
  nodes : SMap Node
  /-- Banks granted by its VGMAP, by bank 48 p + b. -/
  banks : List Nat
  /-- Placement order of round-robin: when it was last served (13 R302). -/
  served : Nat
  /-- Launches nothing further (15 R360). -/
  barred : Bool
  deriving DecidableEq, Repr

/-- Registers of a doorbell page (15 R357). -/
structure Bell where
  addr : Word64
  drops : Nat
  deriving DecidableEq, Repr

/-- A triggered doorbell (13 R307). -/
structure Ring where
  who : Requester
  addr : Nat
  rnum : Nat
  node : Nat
  n : Nat
  ticket : Nat
  /-- Cycle of its arrival (15 R372). -/
  came : Nat
  deriving DecidableEq, Repr

/-- TDISP states (15 R358). -/
inductive TdiState where
  | unlocked
  | locked
  | run
  | error
  deriving DecidableEq, Repr

/-- A trusted device interface: its table entry (15 R359); bytes 0x08 to 0xBF as bits. -/
structure Tdi where
  state : TdiState
  ideUp : Bool
  keyed : Bool
  /-- Entry bytes 0x08 to 0xBF, bit 0 the lowest of byte 0x08. -/
  entry : BitVec 1472
  /-- Unlocking under way: memory zeroing and TLB invalidation (15 R360). -/
  unlocking : Bool
  deriving DecidableEq, Repr

/-- The kinds of RISC-V access fault (15 R367, R368). -/
inductive FaultKind where
  | load
  | store
  | fetch
  deriving DecidableEq, Repr

/-- Completion returned to a requester: completed with data, with the poisoned bit, or as Unsupported Request
(15 R353, R358, R360). -/
inductive Completion where
  | data (v : Nat)
  | poisoned
  | unsupported
  /-- RISC-V access fault of a hart, of its kind: load, store or AMO, instruction (15 R367, R368). -/
  | accessFault (kind : FaultKind)
  /-- The host's ATS invalidation is complete (14 R349). -/
  | invalidated
  /-- Answer to a TDISP message: done, or a TDISP error (15 R358, R359). -/
  | tdisp (ok : Bool)
  deriving DecidableEq, Repr

/-- A flit in a replay buffer (15 R361): its sequence number, the cycles of its replays, and the transfer that it belongs to, 0 for
none. -/
structure Sent where
  seq : BitVec 16
  times : List Nat
  req : Nat
  deriving DecidableEq, Repr

/-- A Blululys link (15 R361, R362). -/
structure Link where
  up : Bool
  peer : Nat
  epoch : Nat
  /-- Sequence expected next from the peer, and sequence of the next flit sent. -/
  rxSeq : BitVec 16
  txSeq : BitVec 16
  /-- Replay buffer: flits sent and not acknowledged, oldest first. -/
  replay : List Sent
  /-- Flits to be sent, in their order: for each the transfer that it belongs to. -/
  queue : List Nat
  /-- The device's own epoch as it was announced when the link trained (08 R225). -/
  announced : BitVec 16
  /-- Admission requests waiting, and grants outstanding: tag and bytes. -/
  admitted : List (Nat × Nat)
  grants : List (Nat × Nat)
  /-- Place of the last grant in the order of all links' grants. -/
  served : Nat
  /-- The answers sent to received flits, newest first: true an acknowledgement, false a negative one. -/
  sent : List (Bool × BitVec 16)
  /-- Cycles of the replays within the last millisecond (16 R380). -/
  storms : List Nat
  deriving DecidableEq, Repr

/-- A transfer of the device over a link (15 R361 to R363): a request of its own, or the answer to a peer's; its handle, the access or
command whose request it is, its tag, the key of its first byte, the link, the bytes that it carries and those that it brings back,
the cycle in which it was made, and for an answer what it says. -/
structure PeerReq where
  id : Nat
  acc : Nat
  tag : PeerTag
  key : Nat
  link : Nat
  bytes : Nat
  back : Nat
  since : Nat
  granted : Bool
  answer : Option Completion
  deriving DecidableEq, Repr

/-- A request of the host, a TDI or a hart that waits at a pseudo-channel, or behind another of its requester (08 R219, R220, 07
R180). -/
inductive Posted where
  /-- Bytes to BAR2 or, of a hart, to device memory: physical addresses and data. -/
  | memory (addrs : List Nat) (data : List Byte)
  /-- A read of device memory at some physical addresses. -/
  | read (addrs : List Nat)
  /-- A hart's AMO on n bytes: the operation and type codes of 08 R221, and the data. -/
  | amo (pa n op type : Nat) (data : Word64)
  /-- A hart's load-reserved, and its store-conditional. -/
  | reserve (pa n : Nat)
  | conditional (pa n : Nat) (data : List Byte)
  /-- An aligned 8-byte write to a register of the requester's BAR0 or map. -/
  | register (off : Nat) (v : Word64)
  deriving DecidableEq, Repr

/-- Counting-house domains (15 R370). -/
structure Dom where
  base : Word64
  addr : Word64
  cmd : Word64
  busy : Bool
  status : BitVec 8
  tag : BitVec 8
  /-- Grant masks by domain, default 0, and sandbox domains. -/
  grants : SMap (BitVec 256)
  sandbox : List Nat
  /-- Domain of each hart, default 0. -/
  harts : SMap Nat
  /-- Tag of each 64 KiB page of HBM, default 0. -/
  tags : SMap Nat
  deriving DecidableEq, Repr

/-- The host's side of the PF: BAR0 control registers (15 R355, R356). -/
structure HostRegs where
  rcmdAddr : Word64
  rcmdStatus : BitVec 8
  rcmdBusy : Bool
  ctxBase : Word64
  /-- CTXBASE has been written since reset: bring-up step 5 (16 R383). -/
  ctxSet : Bool
  /-- Translation command registers by stack: TLBADDR, TLBLEN, ASID, BUSY. -/
  tlbAddr : SMap Word64
  tlbLen : SMap Word64
  tlbAsid : SMap Nat
  tlbBusy : SMap Nat
  /-- Link width, 0 before training, rate in 100 MT/s, and flit mode after training (15 R353). -/
  width : Nat
  rate : Nat
  flit : Bool
  deriving DecidableEq, Repr

/-- The fault store of a stack (14 R342, 15 R356): records by SEQ mod 64. -/
structure FaultStore where
  rseq : Nat
  wseq : Nat
  drops : Nat
  recs : SMap (BitVec 512)
  deriving DecidableEq, Repr

/-- The Bellows (16 R373 to R376). -/
structure Bellows where
  /-- Cap in force, W, and CAPW as last written. -/
  cap : Nat
  capw : Nat
  /-- A CAPW write is enforced by hardware: firmware is absent. -/
  hwCap : Bool
  /-- Dies above their trip temperature: 0 West floor, 1 West loft, 2 East floor, 3 East loft. -/
  trips : List Nat
  /-- Islands whose supply has drooped, by cluster number. -/
  droops : List Nat
  firmware : Bool
  /-- HBM cold threshold in cycles (07 R182). -/
  hbmCold : Nat
  deriving DecidableEq, Repr

/-- A sample that a lane group's scheduler has taken: 4 core + lane group, its 16 bytes, and the ring that SAMPBUF named (16 R377,
R387). -/
structure Sample where
  lg : Nat
  val : Nat
  base : Word64
  log : Nat
  deriving DecidableEq, Repr

/-- Observation registers (16 R377 to R380, R386 to R389). -/
structure Obs where
  dbgen : Bool
  sampN : Nat
  sampEn : Bool
  sampBase : Word64
  sampLog : Nat
  sampPtr : Nat
  /-- TRIG0 to TRIG7: COUNT, ARM, PCT, CLASS. -/
  trigs : SMap Word64
  /-- Cycle of each lane group's next sample, by 4 core + lane group, once it has had one since EN last changed from 0 to 1
  (16 R377). -/
  sampAt : SMap Nat
  /-- Cycle of the first samples since EN last changed from 0 to 1. -/
  sampFrom : Nat
  /-- Samples taken that are still to be written, oldest first (16 R387). -/
  samples : List Sample
  /-- Bucket i of class c at key 16 c + i. -/
  hist : SMap Nat
  frozen : Bool
  fcause : BitVec 8
  recsel : BitVec 32
  recptr : SMap Nat
  /-- Entry e of recorder r at key 256 r + e. -/
  entries : SMap (BitVec 128)
  cecc : Nat
  ctrans : Nat
  lreplay : SMap Nat
  dbdrop : Nat
  ddretire : Nat
  deriving DecidableEq, Repr

/-- What a checkpoint on a tier keeps beside the bytes, by CKPTDST and CKPTWIN: the saved workgroups with their warps (16 R381). -/
structure Kept where
  dst : Word64
  win : BitVec 28
  /-- The poison marks. -/
  poison : List Nat
  wgs : List (Nat × Wg × List (Nat × Warp))
  deriving DecidableEq, Repr

/-- Checkpoint engine (16 R381, R390). -/
structure Ckpt where
  dst : Word64
  win : BitVec 28
  img : Word64
  mib : Nat
  err : BitVec 4
  done : Bool
  /-- The command under way: 0 none, 1 START, 2 RESTORE. -/
  busy : Nat
  /-- Placement stopped. -/
  stopped : Bool
  /-- Blocks of 4 KiB that the command under way has moved over link windows (15 R362). -/
  blocks : Nat
  /-- What the checkpoints on the tiers keep. -/
  sets : List Kept
  deriving DecidableEq, Repr

/-- Evidence that answers GET_MEASUREMENTS (16 R385): the measurements of the root-of-trust ROM and of the images in the active slots, 0
Bellows and 1 counting house, image versions, the rollback counter, and the locked entries of the TDIs. The signature is outside the
model (log 50). -/
structure Evidence where
  rom : Nat
  images : List Nat
  vers : SMap Nat
  rollback : Nat
  entries : List (Nat × BitVec 1472)
  deriving DecidableEq, Repr

/-- Firmware images (16 R384, R391). -/
structure Fw where
  image : Nat
  src : Word64
  len : Nat
  status : BitVec 4
  busy : Bool
  chSlot : Bool
  bSlot : Bool
  rollback : Nat
  vers : SMap Nat
  /-- The length in bytes of the image of each slot, as FWVER numbers slots; the bytes are stored under Machine.fwKey. -/
  lens : SMap Nat
  /-- The images whose new version has not started yet: 0 Bellows, 1 counting house. -/
  fresh : List Nat
  /-- Slots whose image failed its verification or its write, as FWVER numbers them. -/
  bad : List Nat
  /-- The last evidence given. -/
  evidence : Option Evidence
  /-- Steps of bring-up that are over (16 R383): 1 the Bellows firmware, 2 the islands and HBM, 3 the counting house. -/
  boot : Nat
  /-- The counting-house firmware runs. -/
  house : Bool
  deriving DecidableEq, Repr

/-- Who reads where an array has an error, with the space and the address that it reads (14 R337, R342): a warp, a copy or anvil
command by its handle, or an agent of the device that serves a context, on a stack. -/
inductive Reader where
  | warp (g w space : Nat) (addr : Word64)
  | command (id space : Nat) (addr : Word64)
  | agent (stack asid : Nat) (addr : Word64)
  deriving DecidableEq, Repr

/-- An error of an array (14 R337): a soft error corrected; an uncorrectable read of memory, with the subcode of the reader's POISON, of
an element of the tile of an anvil command, or of a lane register of a warp, whose retry fails where it `lasts`. -/
inductive MemError where
  | corrected
  | memory (r : Reader) (sub : Nat) (lasts : Bool)
  | tile (id elem : Nat) (lasts : Bool)
  | register (g w reg lane : Nat) (lasts : Bool)
  deriving DecidableEq, Repr

/-- One turn of the machine: an advance of the clock, then an issue slot of a lane group, a step of another agent, or the move of
one word of a copy command. The model's own (log 3). -/
inductive Turn where
  | issue (cycles : Nat) (core lg : Nat)
  | event (cycles : Nat) (i : Instr)
  | part (cycles : Nat) (copy word : Nat)
  /-- Bellows firmware programs the HBM threshold (07 R182). -/
  | cold (cycles : Nat) (v : Nat)
  /-- An error of an array becomes known (14 R337). -/
  | error (cycles : Nat) (e : MemError)
  /-- The next step of bring-up (16 R383). -/
  | boot (cycles : Nat)
  /-- The node manager reads a register of the Bellows' I3C target (16 R374). -/
  | node (cycles : Nat) (reg : Nat)
  /-- A checkpoint's copy goes on by some MiB, or its destination fails (16 R390). -/
  | ckpt (cycles : Nat) (mib : Option Nat)
  deriving DecidableEq, Repr

/-- The fragment that issues: workgroup, warp, split-table entry. The model's own (log 3). -/
structure Issuer where
  g : Nat
  w : Nat
  e : Nat
  deriving DecidableEq, Repr

/-- The state of the machine. -/
structure State where
  /-- The model's own: whose turn comes next (log 3). -/
  sched : List Turn
  /-- The model's own: the fragment selected to issue (log 3). -/
  issuer : Option Issuer
  /-- The model's own: the counter that free values are taken at (log 4). -/
  freeCtr : Nat
  /-- The model's own: the next handle of a command, access, workgroup or place in an order (log 3). -/
  nextId : Nat
  /-- CLOCK (04 R114). -/
  clock : Nat
  /-- The model's own: what has been taken in this cycle, by a class of things whose order within a cycle the spec fixes,
  with the place of the last one (log 3). -/
  marks : SMap Nat
  /-- Every byte store, by the keys of Machine.Ops; an unlisted byte reads 0 (log 1). -/
  mem : List Host.Cell
  /-- Poisoned granules, by key div 32 (14 R338). -/
  poison : List Nat
  /-- Device copies of host lines: line number of the bus address, dirty (07 R174). -/
  hostLines : List (Nat × Bool)
  /-- Lines of HBM in the memory-side slices, by key div 128, and whether .str has left them at the lowest retention
  priority (07 R170). -/
  msc : List (Nat × Bool)
  /-- Host lines in the slices that .str has left at the lowest retention priority, by line number (07 R170). -/
  hostLow : List Nat
  /-- Accesses that wait for lamp units, in arrival order (07 R180). -/
  lampq : List LampWait
  /-- Vault banks granted again before the release of the grant before has taken effect, with the agents whose accepted accesses it
  waits for (07 R184). -/
  regrant : List (Nat × List Nat)
  loads : List Load
  stores : List Store
  /-- Pending stores that a thread has read: the warp's key, the lane, the store's handle (08 R210). -/
  saw : List (Nat × Nat × Nat)
  atoms : List Atom
  dedup : List Dedup
  tlb : List Tlb
  /-- Cacheable host pages that ATS has granted, the last first: ASID, virtual page, bus page (07 R197, log 12). -/
  atsPages : List (Nat × Nat × Nat)
  walks : List Walk
  contexts : SMap Context
  regions : SMap Region
  wgs : SMap Wg
  warps : SMap Warp
  cores : SMap Core
  lgs : SMap Lg
  pairs : SMap Pair
  /-- Writes of exchange registers that are under way, in their issue order (11 R278). -/
  xpend : List XWrite
  copies : List Copy
  anvs : List Anv
  lamps : SMap Lamp
  /-- Owner (ASID) of vault bank 48 p + b (07 R176). -/
  vaultOwner : SMap Nat
  /-- n0 to n255; default 0 (13 R316). -/
  notify : SMap Word64
  /-- Next commit sequence number of each producer, by SRC; default 0 (13 R294). -/
  recSeq : SMap Nat
  /-- Last placement cycle of each Cooper plus one; default 0 (13 R300). -/
  placed : SMap Nat
  faultStores : SMap FaultStore
  host : HostRegs
  /-- Doorbell pages: 0 the PF, 1 to 16 the TDIs, 17 to 32 the harts. -/
  bells : SMap Bell
  rings : List Ring
  tdis : SMap Tdi
  /-- An SPDM session is up (15 R358), and the cycle since which its heartbeat period has been running (15 R360). -/
  spdm : Bool
  spdmBeat : Nat
  links : SMap Link
  /-- Transfers of the device over the links that are under way (15 R361 to R363). -/
  outs : List PeerReq
  /-- The device's link epoch (08 R225). -/
  epoch : BitVec 16
  /-- ATS invalidations of the host that are not complete: PASID, address, length (14 R349). -/
  atsInvs : List (Nat × Nat × Nat)
  /-- Requests of the host, of TDIs and of harts that wait, in their order, with their requesters (08 R219, 07 R180). -/
  posted : List (Requester × Posted)
  /-- Requests of peers that wait for lamp units or for room in a deduplication table: a handle, the tag, the physical address and the
  access (15 R363, 07 R180, 08 R224). -/
  peerq : List (Nat × PeerTag × Nat × PeerOp)
  /-- Reservations of the harts' load-reserved: address, bytes, value (08 R220). -/
  hartRes : SMap (Nat × Nat × Nat)
  /-- Link window table entries (15 R364). -/
  windows : SMap (BitVec 128)
  /-- The link window table as the last invalidation left it for the translations after it (15 R364). -/
  windowsSeen : SMap (BitVec 128)
  dom : Dom
  bellows : Bellows
  obs : Obs
  ckpt : Ckpt
  fw : Fw
  /-- MSI-X vectors fired, newest first (15 R353). -/
  msix : List Nat
  completion : Option Completion
  /-- Clusters that are power-gated (13 R306). -/
  gated : List Nat
  deriving DecidableEq, Repr

/-- The links after a reset: none is up. -/
def Link.reset : Link := ⟨false, 0, 0, 0, 0, [], [], 0, [], [], 0, [], []⟩

/-- The domain registers after a reset (15 R370). -/
def Dom.reset : Dom := ⟨0, 0, 0, false, 0, 0, [], [], [], []⟩

/-- The PF's registers after a reset (15 R356). -/
def HostRegs.reset : HostRegs := ⟨0, 0, false, 0, false, [], [], [], [], 0, 0, false⟩

/-- The Bellows after a reset: the cap is log 2's, the HBM threshold R182's; its firmware runs from bring-up on (16 R383). -/
def Bellows.reset : Bellows := ⟨3200, 3200, false, [], [], false, 65536⟩

/-- The observation registers after a reset (16 R386 to R389). -/
def Obs.reset : Obs := ⟨false, 4096, false, 0, 12, 0, [], [], 0, [], [], false, 0, 0, [], [], 0, 0, [], 0, 0⟩

/-- The checkpoint registers after a reset (16 R390). -/
def Ckpt.reset : Ckpt := ⟨0, 0, 0, 0, 0, false, 0, false, 0, []⟩

/-- The firmware registers after a power-on reset: slots, versions and rollback counter are log 2's. -/
def Fw.reset : Fw := ⟨0, 0, 0, 0, false, false, false, 0, [], [], [], [], none, 0, false⟩

/-- The machine right after power-on reset (16 R382): every lamp unit DARK, every TDI CONFIG_UNLOCKED, every region
inactive, the licences UNOWNED on the floor side, memory with nothing listed (log 1), the model's own fields empty
(logs 3 and 4). -/
def State.reset : State where
  sched := []
  issuer := none
  freeCtr := 0
  nextId := 1
  clock := 0
  marks := []
  mem := []
  poison := []
  hostLines := []
  msc := []
  hostLow := []
  lampq := []
  regrant := []
  loads := []
  stores := []
  saw := []
  atoms := []
  dedup := []
  tlb := []
  atsPages := []
  walks := []
  contexts := []
  regions := []
  wgs := []
  warps := []
  cores := []
  lgs := []
  pairs := []
  xpend := []
  copies := []
  anvs := []
  lamps := []
  vaultOwner := []
  notify := []
  recSeq := []
  placed := []
  faultStores := []
  host := HostRegs.reset
  bells := []
  rings := []
  tdis := []
  spdm := false
  spdmBeat := 0
  links := []
  outs := []
  epoch := 0
  atsInvs := []
  posted := []
  peerq := []
  hartRes := []
  windows := []
  windowsSeen := []
  dom := Dom.reset
  bellows := Bellows.reset
  obs := Obs.reset
  ckpt := Ckpt.reset
  fw := Fw.reset
  msix := []
  completion := none
  gated := []

end Sys2Proof.Machine
end

