-- ==== Sys2Proof/Machine/Maps.lean ====
section
/-!
DEFINITION. Operations on the finite tables of State, on bits and on lists, that every other operation uses.
-/

namespace Sys2Proof.Machine

/-- The value at a key. -/
def mget {α : Type} (m : SMap α) (k : Nat) : Option α :=
  match m with
  | [] => none
  | (j, v) :: t => if k = j then some v else mget t k

/-- The value at a key, or a default. -/
def mgetD {α : Type} (m : SMap α) (k : Nat) (d : α) : α := (mget m k).getD d

/-- Put a value at a key, keeping the keys rising. -/
def mset {α : Type} (m : SMap α) (k : Nat) (v : α) : SMap α :=
  match m with
  | [] => [(k, v)]
  | (j, x) :: t =>
    if k < j then (k, v) :: (j, x) :: t
    else if k = j then (k, v) :: t
    else (j, x) :: mset t k v

/-- Remove a key. -/
def mdel {α : Type} (m : SMap α) (k : Nat) : SMap α := m.filter (fun p => p.1 ≠ k)

/-- Put a value at a key of a table whose unlisted keys read a default. -/
def mput {α : Type} [DecidableEq α] (m : SMap α) (k : Nat) (v d : α) : SMap α :=
  if v = d then mdel m k else mset m k v

/-- Change the value at a key, if it is listed. -/
def mmod {α : Type} (m : SMap α) (k : Nat) (f : α → α) : SMap α :=
  match mget m k with
  | some v => mset m k (f v)
  | none => m

/-- Bits [lo + n - 1 : lo] of a number. -/
def bits (x lo n : Nat) : Nat := x / 2 ^ lo % 2 ^ n

/-- Lanes of a mask in ascending order (00, "for each lane"). -/
def lanesOf (m : Lanes) : List Nat := (List.range 32).filter (fun i => m.getLsbD i)

/-- The mask of one lane. -/
def laneBit (i : Nat) : Lanes := BitVec.ofNat 32 (2 ^ i)

/-- The mask of a list of lanes. -/
def maskOf (ls : List Nat) : Lanes := ls.foldl (fun m i => m ||| laneBit i) 0

/-- Members of a 16-bit set of warps, ascending. -/
def warpsOf (m : BitVec 16) : List Nat := (List.range 16).filter (fun i => m.getLsbD i)

/-- The 16-bit set of one warp. -/
def warpBit (i : Nat) : BitVec 16 := BitVec.ofNat 16 (2 ^ i)

/-- Number of set bits among the n low bits. -/
def popcount (n x : Nat) : Nat := ((List.range n).filter (fun i => x.testBit i)).length

/-- Least element of a list by a rank; the earlier of equals. -/
def leastBy {α : Type} (rank : α → List Nat) (lt : List Nat → List Nat → Bool) : List α → Option α
  | [] => none
  | x :: t =>
    match leastBy rank lt t with
    | none => some x
    | some y => if lt (rank y) (rank x) then some y else some x

/-- Lexicographic order. -/
def lexLt : List Nat → List Nat → Bool
  | [], [] => false
  | [], _ :: _ => true
  | _ :: _, [] => false
  | a :: s, b :: t => if a < b then true else if b < a then false else lexLt s t

/-- Insert into a list sorted by a key. -/
def insertBy {α : Type} (key : α → Nat) (x : α) : List α → List α
  | [] => [x]
  | y :: t => if key x < key y then x :: y :: t else y :: insertBy key x t

/-- Sort by a key; equals keep their order. -/
def sortBy {α : Type} (key : α → Nat) (l : List α) : List α := l.foldl (fun acc x => insertBy key x acc) []

/-- Remove duplicates, keeping first occurrences. -/
def nub {α : Type} [DecidableEq α] (l : List α) : List α :=
  l.foldl (fun acc x => if acc.contains x then acc else acc ++ [x]) []

/-- Sign-extend the n low bits of a number to 64 bits. -/
def sext64 (x n : Nat) : Word64 := (BitVec.ofNat n x).signExtend 64

/-- A free value, and the counter moved on (log 4). -/
def freshFree (s : State) : BitVec 64 × State :=
  (Config.freeValue s.freeCtr, { s with freeCtr := s.freeCtr + 1 })

/-- A new handle (log 3). -/
def freshId (s : State) : Nat × State := (s.nextId, { s with nextId := s.nextId + 1 })

/-- A list that holds at most `cap` entries, with room for one more: where it is full, an entry picked by a free value goes,
one that `first` names where there is one (log 8). What is kept, and what has gone. -/
def makeRoom {α : Type} (s : State) (cap : Nat) (first : α → Bool) (l : List α) : List α × Option α × State :=
  if l.length < cap then (l, none, s)
  else
    let idx := (List.range l.length).filter (fun i => (l[i]?).any first)
    let idx := if idx.isEmpty then List.range l.length else idx
    let (v, s) := freshFree s
    let i := idx.getD (v.toNat % idx.length) 0
    (l.eraseIdx i, l[i]?, s)

/-! ### The order of things within a cycle (log 3) -/

/-- Has nothing been taken in this cycle whose place in class `cls` is at or past `place`? -/
def inOrder (s : State) (cls place : Nat) : Bool := mgetD s.marks cls 0 ≤ place

/-- Something at a place of a class is taken in this cycle: what comes after it lies at that place or past it. -/
def takePlace (s : State) (cls place : Nat) : State := { s with marks := mset s.marks cls place }

/-- Class of the doorbells that arrive (15 R372): the requesters in their order. -/
def clsBell : Nat := 0
/-- Class of the allocations (13 R306): doorbells, then the lane groups of the cores in their order. -/
def clsAlloc : Nat := 1
/-- Class of the Coopers (13 R302): West, then East. -/
def clsCooper : Nat := 2
/-- Class of the copy commands that a core accepts (08 R214, 10 R239): its lane groups in their order. -/
def clsCopy (core : Nat) : Nat := 16 + 4 * core
/-- Class of the anvil commands that a core accepts (08 R214, 11 R263). -/
def clsAnvil (core : Nat) : Nat := 17 + 4 * core
/-- Class of the BANKLOCKs of a core (08 R233). -/
def clsBank (core : Nat) : Nat := 18 + 4 * core
/-- Class of the events of a licence (11 R270): completions and releases, withdrawals, requests. -/
def clsLic (pair : Nat) : Nat := 2048 + pair
/-- Class of the lamp unit that has dimmed in this cycle (07 R188). -/
def clsDim (u : Nat) : Nat := 4096 + u
/-- Class of the granule that a lane group has cleared in this cycle (04 R90); its place is 1 more than the key of the warp whose
last one it was, 0 where more are to come. -/
def clsWash (core lg : Nat) : Nat := 2 ^ 17 + 4 * core + lg
/-- Class of the barrier operations of a workgroup (08 R228): its warps in their order, engine arrivals at 16, completed phases at
17. -/
def clsBar (g : Nat) : Nat := 2 ^ 20 + 32 * g
/-- Class of the phases that one barrier of a workgroup has completed in this cycle (08 R228). -/
def clsDone (g b : Nat) : Nat := 2 ^ 20 + 32 * g + 1 + b
/-- Class of the PHASE instructions of a workgroup (07 R188): its warps in their order. -/
def clsPhase (g : Nat) : Nat := 2 ^ 20 + 32 * g + 17

/-- Stack of a core (01 R13). -/
def stackOf (core : Nat) : Nat := core / 240
/-- Side of a core: 0 floor, 1 loft (01 R13). -/
def sideOf (core : Nat) : Nat := core % 240 / 120
/-- Pair of a core (01 R13). -/
def pairOf (core : Nat) : Nat := core / 240 * 120 + core % 120
/-- Cluster of a core (01 R13). -/
def clusterOf (core : Nat) : Nat := core / 240 * 20 + core % 240 / 120 * 10 + core % 120 / 12
/-- Index of a core in its cluster (01 R13). -/
def indexOf (core : Nat) : Nat := core % 12
/-- Twin of a core (01 R13). -/
def twinOf (core : Nat) : Nat := if sideOf core = 0 then core + 120 else core - 120

/-- The key of a warp. -/
def warpKey (g w : Nat) : Nat := 16 * g + w

/-- A workgroup by handle. -/
def getWg (s : State) (g : Nat) : Option Wg := mget s.wgs g
/-- Store a workgroup. -/
def setWg (s : State) (g : Nat) (x : Wg) : State := { s with wgs := mset s.wgs g x }
/-- A warp by workgroup and WARPID. -/
def getWarp (s : State) (g w : Nat) : Option Warp := mget s.warps (warpKey g w)
/-- Store a warp. -/
def setWarp (s : State) (g w : Nat) (x : Warp) : State := { s with warps := mset s.warps (warpKey g w) x }
/-- Change a warp, if it is live. -/
def modWarp (s : State) (g w : Nat) (f : Warp → Warp) : State := { s with warps := mmod s.warps (warpKey g w) f }
/-- Change a workgroup, if it exists. -/
def modWg (s : State) (g : Nat) (f : Wg → Wg) : State := { s with wgs := mmod s.wgs g f }

/-- WARPIDs of the live warps of a workgroup, ascending. -/
def liveWarps (s : State) (g : Nat) : List Nat :=
  (List.range 16).filter (fun w => (mget s.warps (warpKey g w)).isSome)

/-- Set of the live warps of a workgroup. -/
def liveSet (s : State) (g : Nat) : BitVec 16 := (liveWarps s g).foldl (fun m w => m ||| warpBit w) 0

/-- A core that holds nothing. -/
def Core.empty : Core := ⟨[], [], [], [], [], [], []⟩
/-- A core. -/
def getCore (s : State) (k : Nat) : Core := mgetD s.cores k Core.empty
/-- Change a core. -/
def modCore (s : State) (k : Nat) (f : Core → Core) : State := { s with cores := mput s.cores k (f (getCore s k)) Core.empty }

/-- A lane group after reset (16 R373). -/
def Lg.empty : Lg := ⟨0, false, none, none, [], 0, none, []⟩
/-- A lane group. -/
def getLg (s : State) (core lg : Nat) : Lg := mgetD s.lgs (4 * core + lg) Lg.empty
/-- Change a lane group. -/
def modLg (s : State) (core lg : Nat) (f : Lg → Lg) : State :=
  { s with lgs := mput s.lgs (4 * core + lg) (f (getLg s core lg)) Lg.empty }

/-- A pair after reset: the licence UNOWNED on the floor side (16 R382). -/
def Pair.empty : Pair := ⟨.unowned 0, [], 0, false, [], [], none, false⟩
/-- A pair. -/
def getPair (s : State) (p : Nat) : Pair := mgetD s.pairs p Pair.empty
/-- Change a pair. -/
def modPair (s : State) (p : Nat) (f : Pair → Pair) : State := { s with pairs := mput s.pairs p (f (getPair s p)) Pair.empty }

/-- An uninitialised barrier (08 R227). -/
def Bar.empty : Bar := ⟨0, 0, 0, 0, 0, 0, [], false⟩
/-- A barrier of a workgroup. -/
def getBar (x : Wg) (b : Nat) : Bar := mgetD x.bars b Bar.empty
/-- Change a barrier of a workgroup. -/
def setBar (x : Wg) (b : Nat) (v : Bar) : Wg := { x with bars := mput x.bars b v Bar.empty }

/-- A timeline at launch (08 R214). -/
def Timeline.zero : Timeline := ⟨0, 0, []⟩

end Sys2Proof.Machine
end

