-- ==== Sys2Proof/Machine/Memory.lean ====
section
/-!
DEFINITION. The one memory of the model: the keys of every byte store, reading and writing it, poison, the caches, the
lamp units, translation, and what one core reads through its L1 cache and its pending stores.
-/

namespace Sys2Proof.Machine

/-! ### Keys -/

/-- Device physical address (07 R167). -/
def hbmKey (pa : Nat) : Nat := pa
/-- Vault address (07 R165). -/
def vaultKey (va : Nat) : Nat := 2 ^ 56 + va
/-- Physical scratchpad offset of a core (07 R171). -/
def padKey (core off : Nat) : Nat := 2 ^ 57 + core * 2 ^ 19 + off
/-- Operand-buffer byte of a core (11 R255). -/
def obKey (core off : Nat) : Nat := 2 ^ 58 + core * 2 ^ 18 + off
/-- Host memory by bus address, as the host and uncached accesses see it (07 R174). -/
def hostKey (a : Nat) : Nat := 2 ^ 65 + a
/-- Host memory by bus address, as cached accesses of the device see it (07 R174). -/
def hostDevKey (a : Nat) : Nat := 2 ^ 66 + a
/-- Byte of a firmware slot, as FWVER numbers slots, of 64 MiB each (16 R391). -/
def fwKey (slot off : Nat) : Nat := 2 ^ 70 + slot * 2 ^ 26 + off
/-- Memory of a peer device (15 R364). -/
def peerKey (peer a : Nat) : Nat := 2 ^ 80 + peer * 2 ^ 64 + a
/-- The copy of a byte in the L1 of a core. -/
def l1Key (core k : Nat) : Nat := 2 ^ 100 * (1 + core) + k
/-- The copy of a byte in the instruction cache of a core. -/
def icKey (core k : Nat) : Nat := 2 ^ 100 * (481 + core) + k
/-- The copy of a byte in the constant cache of a core, by its context and global address: `k` is kAddr of them. -/
def kcKey (core k : Nat) : Nat := 2 ^ 100 * (961 + core) + k
/-- A byte of a constant image, by the context's ASID and its global address (07 R175). -/
def kAddr (asid va : Nat) : Nat := asid * 2 ^ 64 + va % 2 ^ 64
/-- Is a key one of a copy in a constant cache? -/
def isKc (k : Nat) : Bool := 2 ^ 100 * 961 ≤ k

/-- Is a key a device physical address? -/
def isHbm (k : Nat) : Bool := k < 2 ^ 56
/-- Is a key of the cached view of host memory? -/
def isHostDev (k : Nat) : Bool := 2 ^ 66 ≤ k && k < 2 ^ 67
/-- May L1 hold the byte: .g memory other than uncached host memory (07 R168, R174)? -/
def l1Able (k : Nat) : Bool := isHbm k || isHostDev k || (2 ^ 80 ≤ k && k < 2 ^ 100)
/-- Is a key one of .g memory, uncached host memory among it? -/
def isGlobal (k : Nat) : Bool := l1Able k || (2 ^ 65 ≤ k && k < 2 ^ 66)

/-! ### Bytes -/

/-- What an unlisted byte reads as (log 1). -/
def blank : Byte := 0

/-- The byte stored under a key. -/
def readByte (m : List Host.Cell) (k : Nat) : Byte := mgetD m k blank

/-- Store a byte, keeping the canonical form. -/
def writeByte (m : List Host.Cell) (k : Nat) (b : Byte) : List Host.Cell := mput m k b blank

/-- Store a list of cells, in order. -/
def writeCells (m : List Host.Cell) (cs : List Host.Cell) : List Host.Cell :=
  cs.foldl (fun m c => writeByte m c.1 c.2) m

/-- The canonical form of a list of cells: addresses strictly rising, no entry equal to what an unlisted byte reads. -/
def Memory.wf : List Host.Cell → Bool
  | [] => true
  | [c] => c.2 ≠ blank
  | c :: d :: t => c.2 ≠ blank && c.1 < d.1 && Memory.wf (d :: t)

/-- n bytes from a key on, as a little-endian number (00 R2). -/
def readNat (m : List Host.Cell) (k : Nat) : Nat → Nat
  | 0 => 0
  | n + 1 => (readByte m k).toNat + 256 * readNat m (k + 1) n

/-- The cells of the n low bytes of a number, from a key on (00 R2). -/
def cellsOf (k : Nat) : Nat → Nat → List Host.Cell
  | 0, _ => []
  | n + 1, v => (k, BitVec.ofNat 8 v) :: cellsOf (k + 1) n (v / 256)

/-- Poison granule of a key (14 R338): 32 bytes in vaults, scratchpads and operand buffers, 64 elsewhere. -/
def granule (k : Nat) : Nat := if 2 ^ 56 ≤ k ∧ k < 2 ^ 59 then k / 32 else 2 ^ 200 + k / 64
/-- Size of a granule. -/
def granuleBytes (gr : Nat) : Nat := if gr < 2 ^ 200 then 32 else 64
/-- Is any of n bytes from a key on in a poisoned granule? -/
def poisonedAt (s : State) (k n : Nat) : Bool :=
  s.poison.contains (granule k) || (0 < n && s.poison.contains (granule (k + n - 1)))

/-- Poison left after cells are stored: a granule written whole is clean (14 R338). -/
def clearPoison (p : List Nat) (cs : List Host.Cell) : List Nat :=
  p.filter (fun gr => (nub (((cs.filter (fun c => granule c.1 = gr))).map (·.1))).length < granuleBytes gr)

/-- The granules that cells write whole (14 R338). -/
def wholeGranules (cs : List Host.Cell) : List Nat :=
  (nub (cs.map (fun c => granule c.1))).filter (fun gr =>
    granuleBytes gr ≤ (nub ((cs.filter (fun c => granule c.1 = gr)).map (·.1))).length)

/-- Write cells into memory. -/
def putCells (s : State) (cs : List Host.Cell) : State :=
  { s with mem := writeCells s.mem cs, poison := clearPoison s.poison cs }

/-- Write n bytes of a number into memory. -/
def putNat (s : State) (k n v : Nat) : State := putCells s (cellsOf k n v)

/-- Set every byte of a range to zero. -/
def zeroRange (s : State) (k n : Nat) : State :=
  { s with mem := s.mem.filter (fun c => c.1 < k ∨ k + n ≤ c.1)
           poison := s.poison.filter (fun gr =>
             !(if gr < 2 ^ 200 then k ≤ gr * 32 && gr * 32 < k + n
               else k ≤ (gr - 2 ^ 200) * 64 && (gr - 2 ^ 200) * 64 < k + n)) }

/-! ### Vectors, latency, triggers and recorders (15 R353, 16 R379, R380, R388, R389) -/

/-- Fire an MSI-X vector (15 R353). -/
def fireMsix (s : State) (v : Nat) : State := { s with msix := v :: s.msix }

/-- Freeze the event recorders, once, with a cause of 16 R389. -/
def freeze (s : State) (cause : Nat) : State :=
  if s.obs.frozen then s
  else { s with obs := { s.obs with frozen := true, fcause := BitVec.ofNat 8 cause } }

/-- A bucket of the histogram of a class. -/
def histCount (s : State) (cls i : Nat) : Nat := mgetD s.obs.hist (16 * cls + i) 0

/-- Requests counted in the first n buckets of a class. -/
def histSum (s : State) (cls n : Nat) : Nat := ((List.range n).map (histCount s cls)).foldl (· + ·) 0

/-- The threshold of a percentile of a class; none while its histogram is empty (16 R388). -/
def histThreshold (s : State) (cls pct : Nat) : Option Nat :=
  if histSum s cls 16 = 0 then none
  else ((List.range 16).find? (fun i => pct * histSum s cls 16 ≤ 100 * histSum s cls (i + 1))).map (fun i => 2 ^ (i + 1))

/-- Does trigger i fire on a request of a class with a latency (16 R388)? -/
def triggerFires (s : State) (i cls lat : Nat) : Bool :=
  let t := (mgetD s.obs.trigs i 0).toNat
  bits t 0 5 = cls && 1 ≤ bits t 5 7 && (histThreshold s cls (min (bits t 5 7) 99)).any (fun th => th ≤ lat)

/-- Trigger i fires: it counts, its vector fires, and an armed one freezes the recorders (16 R379). -/
def fireTrigger (s : State) (i : Nat) : State :=
  let t := mgetD s.obs.trigs i 0
  let s := fireMsix { s with obs := { s.obs with trigs := mset s.obs.trigs i (t + 0x100000000) } } 3
  if t.getLsbD 12 then freeze s 6 else s

/-- Recorder r writes an entry, its event code a free value (16 R389, log 4). -/
def recordEntry (s : State) (cls addr r : Nat) : State :=
  if s.obs.recsel.getLsbD (8 * r + 7) && bits s.obs.recsel.toNat (8 * r) 5 = cls && !s.obs.frozen then
    let n := mgetD s.obs.recptr r 0
    let v := s.clock % 2 ^ 64 * 2 ^ 64 + (Config.freeValue s.freeCtr).toNat % 256 * 2 ^ 56 + addr % 2 ^ 56
    { s with freeCtr := s.freeCtr + 1, obs := { s.obs with entries := mset s.obs.entries (256 * r + n) (BitVec.ofNat 128 v)
                                                           recptr := mput s.obs.recptr r ((n + 1) % 256) 0 } }
  else s

/-- A request of an engine class has been served: recorders, triggers against the histogram as it stands, and the
histogram (16 R379, R380). -/
def observe (s : State) (cls lat addr : Nat) : State :=
  let s := (List.range 4).foldl (fun s r => recordEntry s cls addr r) s
  let s := ((List.range 8).filter (fun i => triggerFires s i cls lat)).foldl fireTrigger s
  let k := 16 * cls + min 15 (Nat.log2 lat)
  { s with obs := { s.obs with hist := mset s.obs.hist k (mgetD s.obs.hist k 0 + 1) } }

/-! ### The memory-side slices and host lines (07 R170, R174) -/

/-- Hub die of a device physical address, and of the bus address of a host line (07 R167, R174). -/
def hubOf (pa : Nat) : Nat := (bits pa 7 3) ^^^ (bits pa 16 3) ^^^ (bits pa 25 3)

/-- Line of a key of the cached view of host memory. -/
def hostLine (k : Nat) : Nat := (k - 2 ^ 66) / 128
/-- Does the device hold a copy of the line? -/
def hostHeld (s : State) (line : Nat) : Bool := s.hostLines.any (fun p => p.1 = line)

/-- Copy n bytes from one key to another. -/
def copyRange (m : List Host.Cell) (src dst n : Nat) : List Host.Cell :=
  let kept := m.filter (fun c => c.1 < dst ∨ dst + n ≤ c.1)
  (m.filter (fun c => src ≤ c.1 ∧ c.1 < src + n)).foldl (fun m c => writeByte m (c.1 - src + dst) c.2) kept

/-- A line that a slice holds: of HBM (false) or of the host (true), with its number. -/
def sliceOf (s : State) (die : Nat) : List (Bool × Nat × Bool) :=
  (s.msc.filter (fun p => hubOf (128 * p.1) = die)).map (fun p => (false, p.1, p.2)) ++
    (s.hostLines.filter (fun p => hubOf (128 * p.1) = die)).map (fun p => (true, p.1, s.hostLow.contains p.1))

/-- The device copy of a host line is written back to the host (07 R174, R197). -/
def writeBack (s : State) (line : Nat) : State :=
  if s.hostLines.contains (line, true) then
    { s with mem := copyRange s.mem (hostDevKey (128 * line)) (hostKey (128 * line)) 128
             hostLines := s.hostLines.map (fun p => if p.1 = line then (p.1, false) else p) }
  else s

/-- The device copy of a host line leaves its slice. -/
def dropHostLine (s : State) (line : Nat) : State :=
  { zeroRange s (hostDevKey (128 * line)) 128 with hostLines := s.hostLines.filter (fun p => p.1 ≠ line),
                                                      hostLow := s.hostLow.filter (fun l => l ≠ line) }

/-- Room for a line in a slice of 32 MiB: where it is full a line is replaced, one at the lowest retention priority where there
is one, and a dirty host line is written back (07 R170, R174; log 8). -/
def sliceRoom (s : State) (die : Nat) : State :=
  match makeRoom s Config.sliceLines (fun p => p.2.2) (sliceOf s die) with
  | (_, some (true, line, _), s) => dropHostLine (writeBack s line) line
  | (_, some (false, line, _), s) => { s with msc := s.msc.filter (fun p => p.1 ≠ line) }
  | (_, none, s) => s

/-- An access to a line of host memory through its slice, when a key is of the cached view: the device copy is brought in where
there is none (07 R170, R174). -/
def hostFill (s : State) (str : Bool) (k : Nat) : State :=
  if isHostDev k then
    if hostHeld s (hostLine k) then { s with hostLow := s.hostLow.filter (fun l => l ≠ hostLine k) }
    else
      let base := 128 * hostLine k
      let s := sliceRoom s (hubOf base)
      { s with mem := copyRange s.mem (hostKey base) (hostDevKey base) 128,
               hostLines := s.hostLines ++ [(hostLine k, false)]
               hostLow := if str then s.hostLow ++ [hostLine k] else s.hostLow }
  else s

/-- An access of any agent to a line through its memory-side slice: a line that is not there is brought in, under .str at the
lowest retention priority, and one that is there has normal priority again (07 R170). -/
def useLine (s : State) (str : Bool) (k : Nat) : State :=
  if isHbm k then
    if s.msc.any (fun p => p.1 = k / 128) then
      { s with msc := s.msc.map (fun p => if p.1 = k / 128 then (p.1, false) else p) }
    else
      let s := sliceRoom s (hubOf k)
      { s with msc := s.msc ++ [(k / 128, str)] }
  else hostFill s str k

/-- Is the line of a key at the lowest retention priority (07 R170)? -/
def lineLow (s : State) (k : Nat) : Bool :=
  if isHbm k then s.msc.contains (k / 128, true) else isHostDev k && s.hostLow.contains (hostLine k)

/-- The line of a key, where a slice holds it, goes to the lowest retention priority (07 R170). -/
def lowerLine (s : State) (k : Nat) : State :=
  if isHbm k then { s with msc := s.msc.map (fun p => if p.1 = k / 128 then (p.1, true) else p) }
  else if isHostDev k && hostHeld s (hostLine k) && !s.hostLow.contains (hostLine k) then { s with hostLow := s.hostLow ++ [hostLine k] }
  else s

/-- Is a key one of a line that memory-side slices hold? -/
def inSlice (k : Nat) : Bool := isHbm k || isHostDev k

/-- A request of a memory-side slice for a line, asked for in cycle `since`, is counted in its class (16 R379, R388). -/
def countAsk (s : State) (since k : Nat) : State := if inSlice k then observe s 2 (s.clock - since) k else s

/-- A memory-side slice serves a request for a line. -/
def askLine (s : State) (since : Nat) (str : Bool) (k : Nat) : State := useLine (countAsk s since k) str k

/-- Memory-side slices serve a read of some keys, each line once (16 R379). -/
def askAll (s : State) (ks : List Nat) : State :=
  (nub ((ks.filter inSlice).map (fun k => k / 128 * 128))).foldl (fun s k => askLine s s.clock false k) s

/-- Memory-side slices serve every line of n bytes from a key on (16 R379). -/
def askRange (s : State) (k n : Nat) : State :=
  (List.range ((k % 128 + n + 127) / 128)).foldl (fun s i => askLine s s.clock false (k / 128 * 128 + 128 * i)) s

/-- The lines of a list of cells, each once where its cells stand together; by the key of their first byte. -/
def linesOf (cs : List Host.Cell) : List Nat :=
  cs.foldr (fun c l => if l.head? = some (c.1 / 128 * 128) then l else c.1 / 128 * 128 :: l) []

/-- Mark the device copy of a host line dirty. -/
def hostDirty (s : State) (k : Nat) : State :=
  if isHostDev k then
    { s with hostLines := s.hostLines.map (fun p => if p.1 = hostLine k then (p.1, true) else p) }
  else s

/-- The byte at the point of coherence (07 R165, R170, R174). -/
def pocByte (s : State) (k : Nat) : Byte :=
  if isHostDev k && !hostHeld s (hostLine k) then readByte s.mem (k - 2 ^ 66 + 2 ^ 65) else readByte s.mem k

/-- Write the cells of one line at the point of coherence, asked for in cycle `since`, under .str or not (07 R170). -/
def writeLine (since : Nat) (str : Bool) (cs : List Host.Cell) (s : State) (k : Nat) : State :=
  putCells (hostDirty (askLine s since str k) k) (cs.filter (fun c => c.1 / 128 * 128 = k))

/-- Perform a write at the point of coherence, line by line, asked for in cycle `since`, under .str or not (07 R170). -/
def pocWriteAs (s : State) (since : Nat) (str : Bool) (cs : List Host.Cell) : State :=
  (linesOf cs).foldl (writeLine since str cs) s

/-- Perform a write at the point of coherence. -/
def pocWrite (s : State) (cs : List Host.Cell) : State := pocWriteAs s s.clock false cs

/-! ### L1, constant and instruction caches -/

/-- Does the L1 of a core hold the line of a key? -/
def l1Holds (s : State) (core k : Nat) : Bool := (getCore s core).l1.contains (k / 128)

/-- The byte that core sees at the point of coherence with its own stores in front of it (08 R211). -/
def overlayByte (s : State) (core k : Nat) : Byte :=
  s.stores.foldl (fun b e => if e.core = core then e.cells.foldl (fun b c => if c.1 = k then c.2 else b) b else b)
    (pocByte s k)

/-- The byte that warp (g, w) of core sees in memory that L1 never holds: its own stores in front of it. -/
def ownByte (s : State) (g w k : Nat) : Byte :=
  s.stores.foldl
    (fun b e => if e.g = g ∧ e.w = w then e.cells.foldl (fun b c => if c.1 = k then c.2 else b) b else b)
    (pocByte s k)

/-- Drop lines, named by a test on their number, from the L1 of a core (07 R196, 08 R211). -/
def dropL1 (s : State) (core : Nat) (p : Nat → Bool) : State :=
  let s := { s with mem := s.mem.filter (fun c =>
    !(c.1 / 2 ^ 100 = 1 + core && p (c.1 % 2 ^ 100 / 128) && (getCore s core).l1.contains (c.1 % 2 ^ 100 / 128))) }
  modCore s core (fun c => { c with l1 := c.l1.filter (fun l => !p l) })

/-- Room for a line in the L1 of a core (01 R16; log 8). -/
def l1Room (s : State) (core : Nat) : State :=
  match makeRoom s Config.l1Lines (fun _ => false) (getCore s core).l1 with
  | (_, some l, s) => dropL1 s core (fun j => j = l)
  | (_, none, s) => s

/-- Bring a line into the L1 of a core through its memory-side slice (07 R168, R170), replacing the copy if there is one. -/
def fillL1 (s : State) (core : Nat) (str : Bool) (k : Nat) : State :=
  if l1Able k then
    let s := useLine s str k
    let s := l1Room (dropL1 s core (fun l => l = k / 128)) core
    let base := k / 128 * 128
    let cs := (List.range 128).map (fun i => (l1Key core (base + i), overlayByte s core (base + i)))
    modCore { s with mem := writeCells s.mem cs } core (fun c => { c with l1 := c.l1 ++ [k / 128] })
  else s

/-- What a .g or .v load of a warp reads at a key (07 R168, R169, 08 R211). -/
def seenByte (s : State) (core g w k : Nat) : Byte :=
  if l1Able k then
    if l1Holds s core k then readByte s.mem (l1Key core k) else overlayByte s core k
  else if isGlobal k then overlayByte s core k
  else ownByte s g w k

/-- n bytes that a warp reads from a key on. -/
def seenNat (s : State) (core g w k : Nat) : Nat → Nat
  | 0 => 0
  | n + 1 => (seenByte s core g w k).toNat + 256 * seenNat s core g w (k + 1) n

/-- n bytes at the point of coherence. -/
def pocNat (s : State) (k : Nat) : Nat → Nat
  | 0 => 0
  | n + 1 => (pocByte s k).toNat + 256 * pocNat s (k + 1) n

/-- Drop one line from the constant cache of a core. -/
def dropKLine (s : State) (core l : Nat) : State :=
  modCore (zeroRange s (kcKey core (128 * l)) 128) core (fun c => { c with kcache := c.kcache.filter (fun j => j ≠ l) })

/-- Room for a line in the constant cache of a core (01 R16; log 8). -/
def kRoom (s : State) (core : Nat) : State :=
  match makeRoom s Config.kcacheLines (fun _ => false) (getCore s core).kcache with
  | (_, some l, s) => dropKLine s core l
  | (_, none, s) => s

/-- Does the constant cache of a core hold the line of a byte, named as kAddr does? -/
def kHolds (s : State) (core ka : Nat) : Bool := (getCore s core).kcache.contains (ka / 128)

/-- Bring the line of a byte of a constant image, which lies at key k, into the constant cache of a core (07 R175); a line of an
uncached host page is never cached (07 R174), and neither is a poisoned one (14 R338). -/
def fillK (s : State) (core ka k : Nat) : State :=
  let from' := k / 128 * 128
  if kHolds s core ka || !l1Able k || poisonedAt s from' 64 || poisonedAt s (from' + 64) 64 then s
  else
    let s := kRoom (askLine s s.clock false k) core
    let base := ka / 128 * 128
    let cs := (List.range 128).map (fun i => (kcKey core (base + i), pocByte s (from' + i)))
    modCore { s with mem := writeCells s.mem cs } core (fun c => { c with kcache := c.kcache ++ [ka / 128] })

/-- Empty the constant cache of a core (07 R196). -/
def dropK (s : State) (core : Nat) : State :=
  modCore { s with mem := s.mem.filter (fun c => c.1 / 2 ^ 100 ≠ 961 + core) } core (fun c => { c with kcache := [] })

/-- Room for a line in the instruction cache of a core (01 R16; log 8). -/
def iRoom (s : State) (core : Nat) : State :=
  match makeRoom s Config.icacheLines (fun _ => false) (getCore s core).icache with
  | (_, some l, s) =>
    modCore (zeroRange s (icKey core (128 * l)) 128) core (fun c => { c with icache := c.icache.filter (fun j => j ≠ l) })
  | (_, none, s) => s

/-- Bring a line of code into the instruction cache of a core (02 R22, 16 R378). -/
def fillI (s : State) (core k : Nat) : State :=
  if (getCore s core).icache.contains (k / 128) then s
  else
    let s := iRoom (askLine s s.clock false k) core
    let base := k / 128 * 128
    let cs := (List.range 128).map (fun i => (icKey core (base + i), pocByte s (base + i)))
    modCore { s with mem := writeCells s.mem cs } core (fun c => { c with icache := c.icache ++ [k / 128] })

/-- Invalidate every instruction cache (16 R378). -/
def dropAllI (s : State) : State :=
  { s with mem := s.mem.filter (fun c => c.1 / 2 ^ 100 < 481 ∨ 961 ≤ c.1 / 2 ^ 100)
           cores := s.cores.map (fun p => (p.1, { p.2 with icache := [] })) }

/-! ### Lamp units (07 R178 to R187) -/

/-- Scratchpad granule of a core. -/
def padUnit (core off : Nat) : Nat := core * 128 + off / 4096
/-- Vault bank. -/
def bankUnit (bank : Nat) : Nat := 61440 + bank
/-- Bank number 48 p + b of a vault address (07 R176). -/
def bankOf (va : Nat) : Nat := 48 * (va / 2 ^ 24) + va % 2 ^ 24 / 2 ^ 18
/-- HBM pseudo-channel of a device physical address (07 R167). -/
def hbmUnit (pa : Nat) : Nat := 72960 + hubOf pa * 64 + bits pa 10 6
/-- Lamp unit that holds the byte of a key. -/
def unitOf (k : Nat) : Option Nat :=
  if isHbm k then some (hbmUnit k)
  else if k < 2 ^ 57 then some (bankUnit (bankOf (k - 2 ^ 56)))
  else if k < 2 ^ 58 then some ((k - 2 ^ 57) / 2 ^ 19 * 128 + (k - 2 ^ 57) % 2 ^ 19 / 4096)
  else none
/-- State of a lamp unit; DARK when not listed (16 R382). -/
def lampOf (s : State) (u : Nat) : Lamp := mgetD s.lamps u .dark
/-- Set the state of a lamp unit. -/
def setLamp (s : State) (u : Nat) (l : Lamp) : State := { s with lamps := mput s.lamps u l .dark }
/-- Has a unit dimmed in this very cycle, in which an access or a protection keeps it LIT (07 R188)? -/
def dimsNow (s : State) (u : Nat) : Bool := (mget s.marks (clsDim u)).isSome
/-- Is the unit LIT? -/
def isLit (s : State) (u : Nat) : Bool :=
  match lampOf s u with
  | .lit _ => true
  | .dim => dimsNow s u
  | .dark => dimsNow s u
  | .waking _ _ => false
/-- An access to a unit (07 R180, R188). -/
def touch (s : State) (u : Nat) : State :=
  match lampOf s u with
  | .lit _ => setLamp s u (.lit s.clock)
  | .dim => setLamp s u (if dimsNow s u then .lit s.clock else .waking s.clock false)
  | .dark => if dimsNow s u then setLamp s u (.lit s.clock) else if 72960 ≤ u then setLamp s u (.waking s.clock false) else s
  | .waking _ _ => s
/-- Accesses to several units. -/
def touchAll (s : State) (us : List Nat) : State := us.foldl touch s
/-- The numbers of those who wait for lamp units: 32 times a warp's key and an entry for a fragment's accesses, its fetches from
2^63 on, engine commands from 2^64 on (engWho), requesters, peers' requests by their handles, and the samples of lane groups. -/
def fetchWho (q : Nat) : Nat := 2 ^ 63 + q
def reqWho (r : Requester) : Nat :=
  2 ^ 65 + (match r with
    | .pf => 0
    | .tdi t => 2 * t + 1
    | .hart h => 2 * h + 2)
def peerWho (id : Nat) : Nat := 2 ^ 66 + id
def sampleWho (k : Nat) : Nat := 2 ^ 67 + k

/-- The numbers of agents that wait in the middle of what they do, a warp's being its key: a stack's Cooper, the end of a workgroup, the
checkpoint engine; and their numbers among those who wait for lamp units. -/
def cooperWho (stack : Nat) : Nat := 2 ^ 65 + stack
def endWho (g : Nat) : Nat := 2 ^ 66 + g
def ckptWho : Nat := 2 ^ 67
def syncWho (who : Nat) : Nat := 2 ^ 68 + who

/-- An access that must wait arrives: the units that are not LIT begin to wake, and it joins their queue unless it stands
there (07 R180). -/
def lampJoin (s : State) (who : Nat) (us : List Nat) : State :=
  let s := touchAll s (us.filter (fun u => !isLit s u))
  if s.lampq.contains ⟨who, us⟩ then s else { s with lampq := s.lampq.filter (fun q => q.who ≠ who) ++ [⟨who, us⟩] }
/-- An agent waits for no lamp unit any more. -/
def lampLeave (s : State) (who : Nat) : State := { s with lampq := s.lampq.filter (fun q => q.who ≠ who) }
/-- Wake latency of a unit (07 R179): from DIM or from DARK. -/
def wakeTime (u : Nat) (dark : Bool) : Nat :=
  if 72960 ≤ u then 2350 else if u < 61440 then (if dark then 1200 else 24) else (if dark then 1880 else 40)
/-- A grant of a scratchpad or vault unit: it wakes and is zeroed (07 R180, R181). -/
def grantUnit (s : State) (u : Nat) : State :=
  let s := setLamp s u (.waking s.clock true)
  if u < 61440 then zeroRange s (padKey (u / 128) (u % 128 * 4096)) 4096
  else zeroRange s (vaultKey ((u - 61440) / 48 * 2 ^ 24 + (u - 61440) % 48 * 2 ^ 18)) (2 ^ 18)
/-- Granules of a workgroup's allocation, as lamp units. -/
def padUnits (x : Wg) : List Nat := (List.range (x.padSize / 4096)).map (fun i => x.core * 128 + x.padBase + i)
/-- Near-vault banks that a workgroup's mask names and its context owns (07 R185). -/
def maskBanks (s : State) (x : Wg) : List Nat :=
  ((List.range 48).filter (fun b => x.nearMask.getLsbD b)).map (fun b => 48 * pairOf x.core + b)
    |>.filter (fun b => mget s.vaultOwner b = some x.asid)
/-- Units that a workgroup protects (07 R185). -/
def protects (s : State) (x : Wg) : List Nat :=
  if 4 ≤ x.phase then padUnits x ++ (maskBanks s x).map bankUnit else []
/-- Is the workgroup on its core? -/
def Wg.isResident (x : Wg) : Bool :=
  match x.status with
  | .resident => true
  | .stopping _ => true
  | .restoring => true
  | _ => false
/-- May warps or long-word threads of the workgroup issue: it is on its core and its restore is over (14 R345)? -/
def Wg.mayIssue (x : Wg) : Bool :=
  match x.status with
  | .resident => true
  | .stopping _ => true
  | _ => false
/-- Is a unit protected by some resident workgroup (07 R185)? -/
def isProtected (s : State) (u : Nat) : Bool :=
  s.wgs.any (fun p => p.2.isResident && (protects s p.2).contains u)

/-! ### Translation (14 R346 to R349, 15 R364) -/

/-- What the permission check needs (14 R347). -/
inductive Need where
  | read
  | write
  | atomic
  | fetch
  deriving DecidableEq, Repr

/-- How a page walk ends (14 R346). -/
inductive WalkEnd where
  /-- A leaf: page size as a power of two, physical address, MTYPE, R, W, X. -/
  | leaf (size pa mtype : Nat) (r w x : Bool)
  | fault (sub : Nat)
  /-- A table beyond HBM (01 R10). -/
  | hole
  deriving DecidableEq, Repr

/-- The lines of the tables that a walk reads from a level on, each asked of its slice (14 R346, 16 R379). -/
def walkAsks (s : State) (va : Nat) : Nat → Nat → State
  | 0, _ => s
  | n + 1, table =>
    let at' := table + 8 * bits va (if n = 0 then 16 else 12 + 9 * n) (if n = 0 then 5 else 9)
    if Config.hbmBytes ≤ at' then s
    else
      let e := pocNat s (hbmKey at') 8
      let s := askLine s s.clock false (hbmKey at')
      if e % 4 = 1 then walkAsks s va n (bits e 8 44 * 256) else s

/-- Walk from a level of the tables (14 R346). An entry in a poisoned granule is read as its bytes stand: DESIGN CHOICE, log 71. -/
def walkFrom (s : State) (va : Nat) : Nat → Nat → WalkEnd
  | 0, _ => .fault 4
  | n + 1, table =>
    -- n is the level
    let idx := match n with
      | 4 => bits va 48 9
      | 3 => bits va 39 9
      | 2 => bits va 30 9
      | 1 => bits va 21 9
      | _ => bits va 16 5
    if Config.hbmBytes ≤ table + 8 * idx then .hole
    else
      let e := pocNat s (hbmKey (table + 8 * idx)) 8
      let addr := bits e 8 44 * 256
      if e % 2 = 0 then .fault 1
      else if bits e 52 12 ≠ 0 ∨ bits e 2 1 ≠ 0 then .fault 4
      else if bits e 1 1 = 1 then
        if 3 ≤ n then .fault 4
        else
          let size := match n with
            | 2 => 30
            | 1 => 21
            | _ => 16
          let mtype := bits e 6 2
          if addr % 2 ^ size ≠ 0 then .fault 4
          else if (mtype = 1 ∨ mtype = 2) ∧ addr ≠ 0 then .fault 4
          else .leaf size addr mtype (bits e 3 1 = 1) (bits e 4 1 = 1) (bits e 5 1 = 1)
      else
        match n with
        | 0 => .fault 4
        | 1 => if addr % 256 ≠ 0 then .fault 4 else walkFrom s va n addr
        | _ => if addr % 4096 ≠ 0 then .fault 4 else walkFrom s va n addr

/-- A field of a context descriptor (14 R321). -/
def ctxBits (s : State) (asid lo n : Nat) : Nat :=
  match mget s.contexts asid with
  | some c => bits c.bits.toNat lo n
  | none => 0

/-- The walk of a context's tables. -/
def walkContext (s : State) (asid va : Nat) : WalkEnd := walkFrom s va 5 (ctxBits s asid 0 64)

/-- A context's tables are walked: their lines are accesses of their slices (07 R170, 16 R379). -/
def walkReads (s : State) (asid va : Nat) : State := walkAsks s va 5 (ctxBits s asid 0 64)

/-- Is a .g address canonical (07 R165)? -/
def canonical (va : Nat) : Bool := bits va 57 7 = (if bits va 56 1 = 1 then 127 else 0)

/-- How a translation ends. -/
inductive Xl where
  /-- The memory key of the byte, and the MTYPE of its page. -/
  | ok (key mtype : Nat)
  | fault (cause sub : Nat)
  /-- No TLB holds it: a walk is needed. -/
  | miss
  /-- A device physical address beyond HBM. -/
  | hole
  deriving DecidableEq, Repr

/-- The cached translation of a page for a core, by page type: leaf entries carry MTYPE 0 to 3, ATS entries 5 and 6. -/
def tlbFind (s : State) (core asid va : Nat) (ats : Bool) : Option Tlb :=
  s.tlb.find? (fun e => e.asid = asid && e.vpn = va / 2 ^ e.size && (e.holder = core || e.holder = 480 + stackOf core) &&
    (ats == decide (4 ≤ e.mtype)))

/-- Permission check of a leaf (14 R347); `swap` says the atomic form is one that an uncached page accepts (08 R223). -/
def permCheck (need : Need) (mtype : Nat) (r w x swap : Bool) : Option (Nat × Nat) :=
  match need with
  | .read => if r then none else some (3, 1)
  | .write => if w then none else some (3, 2)
  | .fetch => if x then none else some (3, 3)
  | .atomic => if !r then some (3, 1) else if !w then some (3, 2)
    else if mtype = 2 && !swap then some (3, 6) else none

/-- A link that a window table entry names is up (15 R364). -/
def windowUp (s : State) (entry : Nat) : Bool :=
  (List.range 12).any (fun i => entry.testBit (98 + i) && (mgetD s.links i Link.reset).up)

/-- What a TLB holds as the address of a leaf: for MTYPE 3, the link window entry as the last invalidation left it for
translations, above the leaf's ADDR (15 R364). -/
def leafAddr (s : State) (pa mtype : Nat) : Nat :=
  if mtype = 3 then (mgetD s.windowsSeen (bits pa 46 6) 0).toNat * 2 ^ 64 + pa else pa

/-- Put a translation into the TLB of its holder, where an entry picked by a free value makes room (01 R10, R16, 14 R348;
log 8). -/
def tlbInsert (s : State) (e : Tlb) : State :=
  let cap := if e.holder < 480 then Config.coreTlb else Config.stackTlb
  match makeRoom s cap (fun _ => false) (s.tlb.filter (fun x => x.holder = e.holder)) with
  | (kept, some _, s) => { s with tlb := s.tlb.filter (fun x => x.holder ≠ e.holder) ++ kept ++ [e] }
  | (_, none, s) => { s with tlb := s.tlb ++ [e] }

/-- A TDI's table entry. -/
def getTdi (s : State) (t : Nat) : Tdi := mgetD s.tdis t ⟨.unlocked, false, false, 0, false⟩

/-- Byte offset o of a TDI's entry lies at bit 8 (o - 8) of its stored bits: n bits from bit lo of the byte on. -/
def tdiField (d : Tdi) (off lo n : Nat) : Nat := bits d.entry.toNat (8 * (off - 8) + lo) n

/-- ASIDs bound to a TDI (15 R359). -/
def tdiAsids (d : Tdi) : List Nat :=
  ((List.range 8).filter (fun i => tdiField d (0x28 + 2 * i) 15 1 = 1)).map (fun i => tdiField d (0x28 + 2 * i) 0 11)

/-- Is a context bound to a TDI in ERROR, which bars it from host memory (15 R360)? -/
def tdiBars (s : State) (asid : Nat) : Bool :=
  s.tdis.any (fun p => (p.2.state = .error || (p.2.state = .run && !p.2.ideUp)) && (tdiAsids p.2).contains asid)

/-- Do two addresses of a context lie in one page of its tables, of 64 KiB, the smallest, where they map none (14 R346)? -/
def samePage (s : State) (asid a b : Nat) : Bool :=
  let size := match walkContext s asid a with
    | .leaf size _ _ _ _ _ => size
    | _ => 16
  a / 2 ^ size = b / 2 ^ size

/-- Does a walk stand for its whole page: it is at the tables, or has ended in a fault of theirs (14 R346, R348)? -/
def Walk.ofPage (k : Walk) : Bool :=
  match k.state with
  | .walking => true
  | .failed sub => sub = 1 || sub = 4
  | _ => false

/-- The walk of an agent for an address: that of its 4 KiB, else that of its page (14 R348). -/
def walkOf (s : State) (who asid va : Nat) : Option Walk :=
  match s.walks.find? (fun k => k.who = who && k.asid = asid && k.va = va / 4096) with
  | some k => some k
  | none => s.walks.find? (fun k => k.who = who && k.asid = asid && k.ofPage && samePage s asid va (4096 * k.va))

/-- Translate a canonical .g address for an agent `who` of a core (14 R346 to R349, 15 R364). -/
def xlate (s : State) (core asid who va : Nat) (need : Need) (swap : Bool) : Xl :=
  match walkOf s who asid va with
  | some ⟨_, _, _, _, _, .failed sub⟩ => .fault 2 sub
  | some _ => .miss
  | none =>
    match tlbFind s core asid va false with
    | none => .miss
    | some e =>
      let off := va % 2 ^ e.size
      if e.mtype = 0 then
        match permCheck need 0 e.r e.w e.x swap with
        | some (c, b) => .fault c b
        | none => if e.pa + off < Config.hbmBytes then .ok (hbmKey (e.pa + off)) 0 else .hole
      else if e.mtype = 3 then
        let win := e.pa / 2 ^ 64
        if !(win.testBit 0 && windowUp s win) then .fault 2 1
        else match permCheck need 3 e.r e.w e.x swap with
          | some (c, b) => .fault c b
          | none => .ok (peerKey (bits win 86 12) ((bits win 1 63 * 2 + bits e.pa 0 46 + off) % 2 ^ 64)) 3
      else if tdiBars s asid then .fault 3 7
      else
        match tlbFind s core asid va true with
        | none => .miss
        | some t =>
          match permCheck need e.mtype (e.r && t.r) (e.w && t.w) e.x swap with
          | some (c, b) => .fault c b
          | none => .ok ((if e.mtype = 1 then hostDevKey else hostKey) (t.pa + va % 4096)) e.mtype

/-- How a walk begins: at the tables, or, for a host page that a TLB holds the leaf of, at the host (14 R349). -/
def walkStart (s : State) (core asid va : Nat) : WalkState :=
  match tlbFind s core asid va false with
  | some e => if e.mtype = 1 ∨ e.mtype = 2 then (if ctxBits s asid 399 1 = 0 then .failed 5 else .ats e.mtype) else .walking
  | none => .walking

/-- Ask for the walk of a page, one for all that the agent accesses in it (14 R348). -/
def requestWalk (s : State) (core asid who va : Nat) : State :=
  if (walkOf s who asid va).isSome then s
  else { s with walks := s.walks ++ [⟨s.nextId, who, asid, va / 4096, core, walkStart s core asid va⟩], nextId := s.nextId + 1 }

/-- Forget the ended walks of an agent. -/
def dropFailed (s : State) (who : Nat) : State :=
  { s with walks := s.walks.filter (fun k => !(k.who = who && (match k.state with
      | .failed _ => true
      | _ => false))) }

end Sys2Proof.Machine
end

