-- ==== Sys2Proof/Machine/Admission.lean ====
section
/-!
DEFINITION. What a request over a Blululys link needs before it leaves (15 R361 to R363): flits and their queues, admission, and the
choice of a link.
-/

namespace Sys2Proof.Machine

/-- A link. -/
def getLink (s : State) (i : Nat) : Link := mgetD s.links i Link.reset

/-- Change a link. -/
def modLink (s : State) (i : Nat) (f : Link → Link) : State := { s with links := mset s.links i (f (getLink s i)) }

/-! ### Deduplication tables (08 R224) -/

/-- Entries that a unit's deduplication table has room for (08 R224). -/
def dedupFree (s : State) (unit : Nat) : Nat :=
  (if unit < 8 then Config.dedupHub else Config.dedupVault) - (s.dedup.filter (fun d => d.unit = unit)).length

/-- The tag, above those of the peers' transfers, under which the data that a request of the device brings back is admitted. -/
def backTag (req : Nat) : Nat := 2 ^ 24 + req

/-- Is a tag one of those? -/
def ownData (tag : Nat) : Bool := 2 ^ 24 ≤ tag

/-- Places of a hub die's table that are kept for the transfers granted to peers, any of which may bring an atomic for it: a granted
transfer is never stalled (15 R362). -/
def keptPlaces (s : State) (unit : Nat) : Nat :=
  if unit < 8 then (s.links.map (fun q => (q.2.grants.filter (fun g => !ownData g.1)).length)).foldl (· + ·) 0 else 0

/-- Entries that a unit's table has room for beside those. -/
def dedupLeft (s : State) (unit : Nat) : Nat := dedupFree s unit - keptPlaces s unit

/-- Does the table of a unit take one more request? Scratchpads, the host and a peer keep none here. -/
def dedupRoom (s : State) (unit : Nat) : Bool := 248 ≤ unit || 1 ≤ dedupLeft s unit

/-! ### Flits -/

/-- A transmitter sends a flit of a transfer, 0 for none: it joins the replay buffer until it is acknowledged (15 R361). -/
def Link.send (l : Link) (req : Nat) : Link := { l with replay := l.replay ++ [⟨l.txSeq, [], req⟩], txSeq := l.txSeq + 1 }

/-- Send flits in their order as far as the replay buffer has room: data flits leave what is kept for requests and grants (15 R361,
R362). -/
def Link.pump : List Nat → Link → Link
  | [], l => { l with queue := [] }
  | r :: rest, l =>
    if l.replay.length < (if r = 0 then Config.replaySize else Config.replaySize - Config.replayKept) then Link.pump rest (l.send r)
    else { l with queue := r :: rest }

/-- Flits to send join those that wait: a request or a grant before all data, in a flit of its own (15 R362). -/
def Link.enqueue (l : Link) (rs : List Nat) : Link :=
  Link.pump (l.queue.filter (· = 0) ++ rs.filter (· = 0) ++ l.queue.filter (· ≠ 0) ++ rs.filter (· ≠ 0)) l

/-- Drop the flits that an acknowledged sequence covers, those up to it when the buffer holds it, and send what has room then. -/
def Link.acked (l : Link) (a : BitVec 16) : Link :=
  if l.replay.any (fun q => q.seq = a) then
    Link.pump l.queue { l with replay := (l.replay.dropWhile (fun q => q.seq ≠ a)).drop 1 }
  else l

/-- A data flit uses up its grant by its 240 payload bytes (15 R361, R362). -/
def Link.payload (l : Link) (tag : Nat) : Link :=
  { l with grants := (l.grants.map (fun g => if g.1 = tag then (g.1, g.2 - 240) else g)).filter (fun g => 0 < g.2) }

/-- Data flits of a transfer of n bytes: at least one. -/
def flitsOf (n : Nat) : Nat := max 1 ((n + 239) / 240)

/-! ### Admission (15 R362) -/

/-- Bytes granted on a link and not received yet. -/
def Link.promised (l : Link) : Nat := (l.grants.map (·.2)).foldl (· + ·) 0

/-- May a link's first request be granted now: fewer than 256 grants are outstanding, there is buffer space for the whole transfer,
and, but for the data that the device itself has asked for, the hub dies can take it: each has room in its deduplication table
(log 39)? -/
def grantable (s : State) (l : Link) : Bool :=
  l.up && l.grants.length < Config.linkGrants && l.admitted.head?.any (fun r => l.promised + r.2 ≤ 65536 + Config.linkBuffer &&
    (ownData r.1 || (List.range 8).all (dedupRoom s)))

/-- The link whose turn it is to be granted a request: of those that can be, the one served longest ago (15 R362). -/
def nextGrant (s : State) : Option Nat :=
  (leastBy (fun q => [q.2.served, q.1]) lexLt (s.links.filter (fun q => grantable s q.2))).map (·.1)

/-- Grant the oldest request of a link, in a flit of its own. -/
def grantOne (s : State) (i : Nat) : State :=
  { modLink s i (fun l => { l.enqueue [0] with admitted := l.admitted.drop 1, grants := l.grants ++ l.admitted.take 1, served := s.nextId })
    with nextId := s.nextId + 1 }

/-- Grant what can be granted, at most n requests. -/
def grantAll : Nat → State → State
  | 0, s => s
  | n + 1, s => match nextGrant s with
    | none => s
    | some i => grantAll n (grantOne s i)

/-- Requests that wait on all links. -/
def waitingGrants (s : State) : Nat := (s.links.map (fun q => q.2.admitted.length)).foldl (· + ·) 0

/-- A peer's request for a transfer of at most 65,536 bytes joins those of its link; it is never refused. -/
def admitReq (s : State) (link tag bytes : Nat) : State :=
  if (getLink s link).up && bytes ≤ 65536 then
    let s := modLink s link (fun l => { l with admitted := l.admitted ++ [(tag, bytes)] })
    grantAll (waitingGrants s) s
  else s

/-- A transfer of the device asks for admission, in a flit of its own, and with it the data that it brings back (15 R362). -/
def askAdmission (s : State) (r : PeerReq) : State :=
  let s' := modLink { s with outs := s.outs ++ [{ r with id := s.nextId, since := s.clock, tag := { r.tag with seq := s.nextId } }]
                             nextId := s.nextId + 1 } r.link (fun l => l.enqueue [0])
  if r.back = 0 then s' else admitReq s' r.link (backTag s.nextId) r.back

/-! ### The device's own requests (15 R363) -/

/-- Is a key one of a peer's memory? -/
def onPeer (k : Nat) : Bool := 2 ^ 80 ≤ k && k < 2 ^ 100

/-- LINKS of the window that a context's translation of an address for a core was made with, none where its page is no peer's (15
R364). -/
def linksAt (s : State) (core asid va : Nat) : Nat :=
  match tlbFind s core asid va false with
  | some e => if e.mtype = 3 then bits (e.pa / 2 ^ 64) 98 12 else 0
  | none => 0

/-- The link that the hash of a key's 4 KiB block selects among those that are up of a window's LINKS (15 R363). -/
def pickLink (s : State) (links k : Nat) : Option Nat :=
  let ls := (List.range 12).filter (fun i => links.testBit i && (getLink s i).up)
  ls[Config.linkHash (k / 4096) % ls.length]?

/-- The tag of a request of an agent of the device, whose sequence number its handle becomes (15 R363; log 39). -/
def ownTag (s : State) (agent : Nat) : PeerTag := ⟨Config.deviceNumber, agent, 0, s.epoch.toNat⟩

/-- An access of an agent asks for admission of its request for the 4 KiB block of a key, unless it has: it carries `bytes`, and brings
`back` so many. -/
def askPeer (s : State) (acc agent links k bytes back : Nat) : State :=
  if !onPeer k || s.outs.any (fun r => r.acc = acc && r.key / 4096 = k / 4096) then s
  else match pickLink s links k with
    | some i => askAdmission s ⟨0, acc, ownTag s agent, k, i, bytes, back, 0, false, none⟩
    | none => s

/-- The handle, above those that the device gives out, of what an agent reads or writes in the middle of what it does, and its number in
the tags of its requests (15 R363). -/
def syncAcc (who : Nat) (write : Bool) : Nat := 2 ^ 70 + 2 * who + (if write then 1 else 0)
def syncAgent (who : Nat) : Nat := if who < 2 ^ 63 then 32 * who else 2 ^ 70 + who

/-- A request of the device has been served: it is counted in the class of its link, and the space for what it has brought back is
free (15 R362, 16 R379). -/
def endReq (s : State) (r : PeerReq) : State :=
  modLink (observe s (3 + r.link) (s.clock - r.since) r.key) r.link (fun l =>
    { l with grants := l.grants.filter (fun g => g.1 ≠ backTag r.id) })

/-- What an access has asked of peers has been served. -/
def endAccess (s : State) (acc : Nat) : State :=
  (s.outs.filter (fun r => r.acc = acc)).foldl endReq { s with outs := s.outs.filter (fun r => r.acc ≠ acc) }

/-- Has the request of an access or of a command for a key of a peer's memory left the device, its transfer granted and every flit
of it sent, and has the space for what it brings back been granted (15 R361, R362)? -/
def reqGone (s : State) (acc k : Nat) : Bool :=
  !onPeer k || s.outs.any (fun r => r.acc = acc && r.key / 4096 = k / 4096 && r.granted &&
    !(getLink s r.link).queue.contains r.id && (r.back = 0 || (getLink s r.link).grants.any (fun g => g.1 = backTag r.id)))

end Sys2Proof.Machine
end

