-- ==== Sys2Proof/Machine/Flags.lean ====
section
/-!
DEFINITION. The flag computations: the sticky flags of FPSTAT (03 R77, R78), the carry of IADDC (05 R121), the clamp of
.sat (03 R59), comparisons (05 R122, R137), and SF (05 R137).
-/

namespace Sys2Proof.Machine

/-- Invalid. -/
def flNV : BitVec 5 := 1
/-- Division by zero. -/
def flDZ : BitVec 5 := 2
/-- Overflow. -/
def flOF : BitVec 5 := 4
/-- Underflow. -/
def flUF : BitVec 5 := 8
/-- Inexact. -/
def flNX : BitVec 5 := 16

/-- Overflow and inexact (03 R71). -/
def flOver : BitVec 5 := flOF ||| flNX
/-- Underflow and inexact (03 R73). -/
def flUnder : BitVec 5 := flUF ||| flNX

/-- A flag when a condition holds. -/
def flagIf (c : Bool) (fl : BitVec 5) : BitVec 5 := if c then fl else 0

/-- The 33-bit sum of IADDC: the result and the carry out (05 R121). -/
def addCarry (a b : Word32) (cin : Bool) : Word32 × Bool :=
  let r := a.toNat + b.toNat + (if cin then 1 else 0)
  (BitVec.ofNat 32 r, 2 ^ 32 ≤ r)

/-- Smallest and largest value of an integer type of width w (03 R59). -/
def typeRange (signed : Bool) (w : Nat) : Int × Int :=
  if signed then (-(2 ^ (w - 1) : Nat), (2 ^ (w - 1) : Nat) - 1) else (0, (2 ^ w : Nat) - 1)

/-- Clamp an exact result to a type's range (03 R59). -/
def clampInt (signed : Bool) (w : Nat) (r : Int) : Int :=
  let (lo, hi) := typeRange signed w
  if r < lo then lo else if hi < r then hi else r

/-- Wrap an exact result modulo 2^w, or clamp it under .sat (03 R59). -/
def wrapOrSat (sat signed : Bool) (w : Nat) (r : Int) : Word64 :=
  BitVec.ofInt 64 ((if sat then clampInt signed w r else r) % (2 ^ w : Nat))

/-- The integer comparison with condition code 0 eq to 5 ge (05 R122). -/
def intCond (code : Nat) (a b : Int) : Bool :=
  match code with
  | 0 => a = b
  | 1 => a ≠ b
  | 2 => a < b
  | 3 => a ≤ b
  | 4 => b < a
  | _ => b ≤ a

/-- The outcome of SCMP, the new SF: codes 0 to 5 signed, 6 to 9 unsigned (05 R137). -/
def scmpCond (code : Nat) (a b : Word64) : Bool :=
  if code ≤ 5 then intCond code a.toInt b.toInt else intCond (code - 4) a.toNat b.toNat

end Sys2Proof.Machine
end

