-- ==== Sys2Proof/Machine/Float.lean ====
section
/-!
DEFINITION. The number formats and the one rounding function (03 R61 to R76), with exact values as fractions of natural
numbers, and the functions of 05 R126 to R134 on values.
-/

namespace Sys2Proof.Machine

/-- How a format treats its top exponent (03 R61, R63). -/
inductive Top where
  /-- Infinities and NaNs. -/
  | ieee
  /-- E4M3: one NaN pattern, no infinity. -/
  | nanOnly
  /-- E2M1: every code finite. -/
  | finite
  deriving DecidableEq, Repr

/-- A floating-point format (03 R61, R63, R68). -/
structure Fmt where
  width : Nat
  bias : Nat
  frac : Nat
  top : Top
  /-- NaNs with a clear top fraction bit are signalling (03 R62). -/
  snan : Bool
  deriving DecidableEq, Repr

/-- binary64. -/
def f64 : Fmt := ⟨64, 1023, 52, .ieee, true⟩
/-- binary32. -/
def f32 : Fmt := ⟨32, 127, 23, .ieee, true⟩
/-- binary16. -/
def f16 : Fmt := ⟨16, 15, 10, .ieee, true⟩
/-- bfloat16. -/
def bf16 : Fmt := ⟨16, 127, 7, .ieee, true⟩
/-- E4M3. -/
def e4m3 : Fmt := ⟨8, 7, 3, .nanOnly, false⟩
/-- E5M2. -/
def e5m2 : Fmt := ⟨8, 15, 2, .ieee, false⟩
/-- E2M1. -/
def e2m1 : Fmt := ⟨4, 1, 1, .finite, false⟩
/-- A96 (03 R68). -/
def a96 : Fmt := ⟨96, 16383, 80, .ieee, false⟩

/-- The format of a type code 0x8 to 0xE (02 R30). -/
def fmtOf (t : Nat) : Fmt :=
  match t with
  | 8 => f32
  | 9 => f64
  | 10 => f16
  | 11 => bf16
  | 12 => e4m3
  | 13 => e5m2
  | _ => e2m1

/-- Sign bit as a code. -/
def Fmt.sign (F : Fmt) : Nat := 2 ^ (F.width - 1)
/-- Code of the largest finite value. -/
def Fmt.maxCode (F : Fmt) : Nat :=
  match F.top with
  | .ieee => F.sign - 2 ^ F.frac - 1
  | .nanOnly => F.sign - 2
  | .finite => F.sign - 1
/-- Code of the canonical NaN (03 R62); +0 for E2M1 (03 R70). -/
def Fmt.nan (F : Fmt) : Nat :=
  match F.top with
  | .ieee => F.sign - 2 ^ F.frac + 2 ^ (F.frac - 1)
  | .nanOnly => F.sign - 1
  | .finite => 0
/-- Code of +∞. -/
def Fmt.inf (F : Fmt) : Nat := F.sign - 2 ^ F.frac

/-- An exact value: NaN, ±∞, ±0, or a sign with a positive fraction. -/
inductive FVal where
  | nan (signalling : Bool)
  | inf (neg : Bool)
  | zero (neg : Bool)
  | fin (neg : Bool) (num den : Nat)
  deriving DecidableEq, Repr

/-- m × 2^e as a fraction. -/
def dyadic (m : Nat) (e : Int) : Nat × Nat :=
  match e with
  | .ofNat k => (m * 2 ^ k, 1)
  | .negSucc k => (m, 2 ^ (k + 1))

/-- The finite value of a code's magnitude: exponent field and fraction (03 R61). -/
def Fmt.finite (F : Fmt) (neg : Bool) (mag : Nat) : FVal :=
  if mag = 0 then .zero neg
  else
    let e := mag / 2 ^ F.frac
    let m := mag % 2 ^ F.frac
    let (num, den) :=
      if e = 0 then dyadic m (1 - (F.bias : Int) - F.frac)
      else dyadic (2 ^ F.frac + m) ((e : Int) - F.bias - F.frac)
    .fin neg num den

/-- The value of a code; higher bits are ignored (03 R58, R61, R63, R68). -/
def Fmt.decode (F : Fmt) (code : Nat) : FVal :=
  let neg := code / F.sign % 2 = 1
  let mag := code % F.sign
  if mag ≤ F.maxCode then F.finite neg mag
  else
    match F.top with
    | .ieee => if mag = F.inf then .inf neg else .nan (F.snan && mag / 2 ^ (F.frac - 1) % 2 = 0)
    | _ => .nan false

/-- Is a value a subnormal of the format? -/
def Fmt.subnormal (F : Fmt) (x : FVal) : Bool :=
  match x with
  | .fin _ n d => n * 2 ^ (F.bias - 1) < d
  | _ => false

/-- Is a value a signalling NaN? -/
def FVal.isSnan : FVal → Bool
  | .nan b => b
  | _ => false
/-- Is a value a NaN? -/
def FVal.isNan : FVal → Bool
  | .nan _ => true
  | _ => false
/-- Is a value infinite? -/
def FVal.isInf : FVal → Bool
  | .inf _ => true
  | _ => false
/-- Is a value zero? -/
def FVal.isZero : FVal → Bool
  | .zero _ => true
  | _ => false
/-- Sign of a value; false for NaN. -/
def FVal.neg : FVal → Bool
  | .nan _ => false
  | .inf b => b
  | .zero b => b
  | .fin b _ _ => b
/-- The same magnitude with a given sign. -/
def FVal.withSign (x : FVal) (neg : Bool) : FVal :=
  match x with
  | .nan b => .nan b
  | .inf _ => .inf neg
  | .zero _ => .zero neg
  | .fin _ n d => .fin neg n d
/-- Negation. -/
def FVal.negate (x : FVal) : FVal := x.withSign (!x.neg)
/-- Magnitude. -/
def FVal.mag (x : FVal) : FVal := x.withSign false

/-- Replace a subnormal operand by zero of its sign under .ftz (03 R73). -/
def Fmt.flushIn (F : Fmt) (ftz : Bool) (x : FVal) : FVal :=
  if ftz && F.subnormal x then .zero x.neg else x

/-- An integer as a value. -/
def FVal.ofInt (z : Int) : FVal := if z = 0 then .zero false else .fin (z < 0) z.natAbs 1

/-- A signed fraction as a value, a zero taking the given sign. -/
def FVal.ofFrac (num : Int) (den : Nat) (zeroNeg : Bool) : FVal :=
  if num = 0 then .zero zeroNeg else .fin (num < 0) num.natAbs den

/-- The numerator with its sign. -/
def FVal.num : FVal → Int
  | .fin neg n _ => if neg then -(n : Int) else n
  | _ => 0
/-- The denominator. -/
def FVal.den : FVal → Nat
  | .fin _ _ d => d
  | _ => 1

/-- Is x < y, for values that are not NaN; −0 and +0 are equal. -/
def FVal.lt (x y : FVal) : Bool :=
  match x, y with
  | .inf a, .inf b => a && !b
  | .inf a, _ => a
  | _, .inf b => !b
  | _, _ => x.num * y.den < y.num * x.den

/-! ### Rounding (03 R70 to R75) -/

/-- One step of the stochastic register (03 R74). -/
def lfsr (s : Word32) : Word32 := if s.getLsbD 0 then (s >>> 1) ^^^ 0x80200003 else s >>> 1

/-- A rounded result: its code, the flags raised, and the stochastic register after it. -/
structure Rounded where
  code : Nat
  fl : BitVec 5
  st : Word32
  deriving DecidableEq, Repr

/-- Exponent of the greatest power of two at or below num/den. -/
def floorLog2 (num den : Nat) : Int :=
  let e : Int := (num.log2 : Int) - den.log2
  let below : Bool := match e with
    | .ofNat k => num < den * 2 ^ k
    | .negSucc k => num * 2 ^ (k + 1) < den
  if below then e - 1 else e

/-- The result of an overflow (03 R71), without its sign. -/
def overCode (F : Fmt) (mode : Nat) (neg : Bool) : Nat :=
  if F.top ≠ .ieee then F.maxCode
  else if mode = 0 ∨ (mode = 2 ∧ !neg) ∨ (mode = 3 ∧ neg) then F.inf else F.maxCode

/-- round(x, F, mode), mode 0 .rn, 1 .rz, 2 .ru, 3 .rd, 4 .rs (03 R70 to R74). -/
def roundTo (F : Fmt) (mode : Nat) (st : Word32) (x : FVal) : Rounded :=
  let withSign (neg : Bool) (c : Nat) : Nat := if neg then F.sign + c else c
  match x with
  | .nan _ => ⟨F.nan, flagIf (F.top = .finite) flNV, st⟩
  | .inf neg =>
    if F.top = .ieee then ⟨withSign neg F.inf, 0, st⟩ else ⟨withSign neg F.maxCode, flOF, st⟩
  | .zero neg => ⟨withSign neg 0, 0, st⟩
  | .fin neg num den =>
    let e := floorLog2 num den
    let emin : Int := 1 - (F.bias : Int)
    let q : Int := (if e < emin then emin else e) - F.frac
    let (a, b) : Nat × Nat := match q with
      | .ofNat k => (num, den * 2 ^ k)
      | .negSucc k => (num * 2 ^ (k + 1), den)
    let n := a / b
    let r := a % b
    let base := (q - (emin - F.frac)).toNat * 2 ^ F.frac
    if r = 0 then
      if base + n ≤ F.maxCode then ⟨withSign neg (base + n), 0, st⟩
      else ⟨withSign neg (overCode F mode neg), flOver, st⟩
    else
      let st' := if mode = 4 then lfsr st else st
      let up : Bool := match mode with
        | 0 => b < 2 * r || (2 * r = b && n % 2 = 1)
        | 1 => false
        | 2 => !neg
        | 3 => neg
        | _ =>
          if neg then !(st'.toNat ≤ 2 ^ 32 * (b - r) / b) else st'.toNat ≤ 2 ^ 32 * r / b
      let c := base + n + (if up then 1 else 0)
      let tiny := flagIf (e < emin) flUF
      if c ≤ F.maxCode then ⟨withSign neg c, flNX ||| tiny, st'⟩
      else ⟨withSign neg (overCode F mode neg), flOver ||| tiny, st'⟩

/-- Replace a result that is subnormal by zero of its sign under .ftz (03 R73). -/
def Fmt.flushOut (F : Fmt) (ftz : Bool) (r : Rounded) : Rounded :=
  let mag := r.code % F.sign
  if ftz && 0 < mag && mag < 2 ^ F.frac then ⟨r.code - mag, r.fl ||| flUnder, r.st⟩ else r

/-- An exact value rounded to an integer (03 R81, 05 R133); 0 for what is not finite. -/
def roundInt (mode : Nat) (x : FVal) : Int :=
  match x with
  | .fin neg num den =>
    let n := num / den
    let r := num % den
    let up : Bool := match mode with
      | 0 => den < 2 * r || (2 * r = den && n % 2 = 1)
      | 1 => false
      | 2 => !neg && 0 < r
      | _ => neg && 0 < r
    let m := n + (if up then 1 else 0)
    if neg then -(m : Int) else m
  | _ => 0

/-! ### Exact arithmetic (05 R126, R129) -/

/-- Exact sum; a sum of opposite signs that is zero takes the sign of 03 R72. -/
def fvAdd (mode : Nat) (x y : FVal) : FVal :=
  match x, y with
  | .nan _, _ => .nan false
  | _, .nan _ => .nan false
  | .inf a, .inf b => if a = b then .inf a else .nan false
  | .inf a, _ => .inf a
  | _, .inf b => .inf b
  | .zero a, .zero b => if a = b then .zero a else .zero (mode = 3)
  | .zero _, y => y
  | x, .zero _ => x
  | x, y => .ofFrac (x.num * y.den + y.num * x.den) (x.den * y.den) (mode = 3)

/-- Exact product. -/
def fvMul (x y : FVal) : FVal :=
  match x, y with
  | .nan _, _ => .nan false
  | _, .nan _ => .nan false
  | .inf _, .zero _ => .nan false
  | .zero _, .inf _ => .nan false
  | .inf a, y => .inf (a ^^ y.neg)
  | x, .inf b => .inf (x.neg ^^ b)
  | .zero a, y => .zero (a ^^ y.neg)
  | x, .zero b => .zero (x.neg ^^ b)
  | .fin a n d, .fin b m e => .fin (a ^^ b) (n * m) (d * e)

/-- Exact quotient by a value that is neither zero nor NaN. -/
def fvDiv (x y : FVal) : FVal :=
  match x, y with
  | .nan _, _ => .nan false
  | _, .nan _ => .nan false
  | .inf _, .inf _ => .nan false
  | .inf a, y => .inf (a ^^ y.neg)
  | x, .inf b => .zero (x.neg ^^ b)
  | .zero a, y => .zero (a ^^ y.neg)
  | x, .zero b => .inf (x.neg ^^ b)
  | .fin a n d, .fin b m e => .fin (a ^^ b) (n * e) (d * m)

/-- 0 × ∞ in a product. -/
def zeroInf (x y : FVal) : Bool := (x.isZero && y.isInf) || (x.isInf && y.isZero)

/-- ∞ − ∞ in a sum. -/
def infInf (x y : FVal) : Bool := x.isInf && y.isInf && (x.neg != y.neg)

/-- The arithmetic operations of 05 R126. -/
inductive FOp where
  | add
  | sub
  | mul
  | fma
  deriving DecidableEq, Repr

/-- One element of FADD, FSUB, FMUL or FFMA (05 R126). -/
def fArith (o : FOp) (F : Fmt) (mode : Nat) (ftz : Bool) (st : Word32) (a b c : Nat) : Rounded :=
  let x := F.flushIn ftz (F.decode a)
  let y0 := F.flushIn ftz (F.decode b)
  let y := if o = .sub then y0.negate else y0
  let z := if o = .fma then F.flushIn ftz (F.decode c) else .zero false
  let snan := x.isSnan || y.isSnan || z.isSnan
  let p := fvMul x y
  let (v, bad) := match o with
    | .add => (fvAdd mode x y, infInf x y)
    | .sub => (fvAdd mode x y, infInf x y)
    | .mul => (p, zeroInf x y)
    | .fma => (fvAdd mode p z, zeroInf x y || infInf p z)
  let r := F.flushOut ftz (roundTo F mode st v)
  { r with fl := r.fl ||| flagIf (snan || bad) flNV }

/-- One element of FMIN or FMAX (05 R127). -/
def fMinMax (max : Bool) (F : Fmt) (ftz : Bool) (a b : Nat) : Nat × BitVec 5 :=
  let x := F.flushIn ftz (F.decode a)
  let y := F.flushIn ftz (F.decode b)
  let enc (v : FVal) : Nat := (roundTo F 0 0 v).code
  let less := FVal.lt x y || (x.isZero && y.isZero && x.neg && !y.neg)
  let v := if x.isNan then y else if y.isNan then x else if less != max then x else y
  (enc v, flagIf (x.isSnan || y.isSnan) flNV)

/-- One comparison of FCMP: outcome and flags (05 R128). -/
def fCompare (code : Nat) (F : Fmt) (ftz : Bool) (a b : Nat) : Bool × BitVec 5 :=
  let x := F.flushIn ftz (F.decode a)
  let y := F.flushIn ftz (F.decode b)
  let un := x.isNan || y.isNan
  let lt := !un && FVal.lt x y
  let gt := !un && FVal.lt y x
  let eq := !un && !lt && !gt
  let t := match code with
    | 0 => eq
    | 1 => !eq
    | 2 => lt
    | 3 => lt || eq
    | 4 => gt
    | 5 => gt || eq
    | 6 => !un
    | _ => un
  (t, flagIf (if 2 ≤ code ∧ code ≤ 5 then un else x.isSnan || y.isSnan) flNV)

/-- FDIV of two values (05 R129). -/
def fDiv (F : Fmt) (mode : Nat) (ftz : Bool) (a b : Nat) : Nat × BitVec 5 :=
  let x := F.flushIn ftz (F.decode a)
  let y := F.flushIn ftz (F.decode b)
  let nv := x.isSnan || y.isSnan || (x.isZero && y.isZero) || (x.isInf && y.isInf)
  let dz := y.isZero && !x.isZero && !x.isInf && !x.isNan
  let v := if x.isZero && y.isZero then .nan false else fvDiv x y
  let r := F.flushOut ftz (roundTo F mode 0 v)
  (r.code, r.fl ||| flagIf nv flNV ||| flagIf dz flDZ)

/-- FRCP (05 R129, R131): the quotient of one. -/
def fRcp (F : Fmt) (mode : Nat) (ftz : Bool) (a : Nat) : Nat × BitVec 5 :=
  fDiv F mode ftz (roundTo F 0 0 (.fin false 1 1)).code a

/-- Floor of a square root, bit by bit from 2^(n-1) down. -/
def isqrtFrom (v : Nat) : Nat → Nat → Nat
  | 0, s => s
  | n + 1, s =>
    let t := s + 2 ^ n
    isqrtFrom v n (if t * t ≤ v then t else s)

/-- The square root of num/den with 2^-k parts below a working size of about 160 bits: a fraction that lies on the same
side as the exact root of every number that the formats or their midpoints hold, and equals it where it is exact. -/
def sqrtFrac (num den : Nat) : Nat × Nat :=
  let e := floorLog2 num den
  let k : Int := (320 - e) / 2
  let (a, b) : Nat × Nat := match k with
    | .ofNat j => (num * 2 ^ (2 * j), den)
    | .negSucc j => (num, den * 2 ^ (2 * (j + 1)))
  let s := isqrtFrom (a / b) 164 0
  let s2 := if s * s * b = a then 2 * s else 2 * s + 1
  match k with
  | .ofNat j => (s2, 2 ^ (j + 1))
  | .negSucc j => (s2 * 2 ^ (j + 1), 2)

/-- FSQRT (05 R129, R131). -/
def fSqrt (F : Fmt) (mode : Nat) (ftz : Bool) (a : Nat) : Nat × BitVec 5 :=
  match F.flushIn ftz (F.decode a) with
  | .nan b => (F.nan, flagIf b flNV)
  | .zero neg => ((roundTo F 0 0 (.zero neg)).code, 0)
  | .inf neg => if neg then (F.nan, flNV) else (F.inf, 0)
  | .fin neg num den =>
    if neg then (F.nan, flNV)
    else
      let (n, d) := sqrtFrac num den
      let r := F.flushOut ftz (roundTo F mode 0 (.fin false n d))
      (r.code, r.fl)

/-- FRND (05 R133). -/
def fRnd (F : Fmt) (mode : Nat) (ftz : Bool) (a : Nat) : Nat × BitVec 5 :=
  match F.flushIn ftz (F.decode a) with
  | .nan b => (F.nan, flagIf b flNV)
  | .fin neg num den =>
    let z := roundInt mode (.fin neg num den)
    ((roundTo F 0 0 (if z = 0 then .zero neg else .ofInt z)).code, 0)
  | x => ((roundTo F 0 0 x).code, 0)

/-- FSCALE (05 R134). A power beyond ±4,096 gives what ±4,096 gives. -/
def fScale (F : Fmt) (mode : Nat) (ftz : Bool) (a : Nat) (b : Int) : Nat × BitVec 5 :=
  let x := F.flushIn ftz (F.decode a)
  let e : Int := if b < -4096 then -4096 else if 4096 < b then 4096 else b
  let (p, q) := dyadic 1 e
  let r := F.flushOut ftz (roundTo F mode 0 (fvMul x (.fin false p q)))
  (r.code, r.fl ||| flagIf x.isSnan flNV)

/-- FCLASS (05 R132). -/
def fClass (F : Fmt) (a : Nat) : Nat :=
  match F.decode a with
  | .nan b => if b then 1 else 2
  | .inf neg => if neg then 4 else 512
  | .zero neg => if neg then 32 else 64
  | .fin neg n d =>
    if F.subnormal (.fin neg n d) then (if neg then 16 else 128) else (if neg then 8 else 256)

/-! ### Block scales (03 R64, R66, R76) -/

/-- Value of an E3M5 scale (03 R64), never a NaN or an infinity. -/
def e3m5 (c : Nat) : FVal :=
  let e := c % 256 / 32
  let m := c % 32
  let n := if e = 0 then m else (32 + m) * 2 ^ (e - 1)
  if n = 0 then .zero false else .fin false n 128

/-- Fmax of a blocked format (03 R76). -/
def blockMax (F : Fmt) : FVal := F.finite false F.maxCode

/-- The largest magnitude among values that are not NaN; none for no such value (03 R76). -/
def amax (xs : List FVal) : Option FVal :=
  (xs.filter (fun x => !x.isNan)).foldl (fun acc x =>
    match acc with
    | none => some x.mag
    | some m => if FVal.lt m x.mag then some x.mag else some m) none

/-- scale(amax, Fmax) (03 R76). -/
def blockScale (F : Fmt) (xs : List FVal) : Nat :=
  match amax xs with
  | none => 0x60
  | some (.inf _) => 0xFF
  | some m =>
    if m.isZero then 0x60
    else
      let t := fvDiv m (blockMax F)
      match ((List.range 256).drop 1).find? (fun c => !FVal.lt (e3m5 c) t) with
      | some c => c
      | none => 0xFF

/-- An element of a scaled block: round(x / S) with the saturation of finite quotients (03 R76). -/
def blockElem (F : Fmt) (mode : Nat) (st : Word32) (x : FVal) (c : Nat) : Rounded :=
  let v := fvDiv x (e3m5 c)
  let r := roundTo F mode st v
  match v with
  | .fin neg n d =>
    let beyond := FVal.lt (blockMax F) (.fin false n d) || F.maxCode < r.code % F.sign
    if beyond then ⟨(if neg then F.sign else 0) + F.maxCode, r.fl ||| flOver, r.st⟩ else r
  | _ => r

/-! ### Conversion of one value (03 R81) -/

/-- Bits of a type code. -/
def typeBits (t : Nat) : Nat := if t ≤ 7 then 8 * typeBytes t else (fmtOf t).width

/-- The exact value of a source of a type (03 R58). -/
def convIn (t : Nat) (v : Word64) : FVal :=
  if t ≤ 7 then
    let w := typeBits t
    let n := v.toNat % 2 ^ w
    .ofInt (if t % 2 = 1 ∧ 2 ^ (w - 1) ≤ n then (n : Int) - (2 ^ w : Nat) else n)
  else (fmtOf t).decode (v.toNat % 2 ^ (fmtOf t).width)

/-- A result of an integer type as the register holds it (03 R58): .i8 and .i16 sign-extended to 32 bits. -/
def convOutInt (t : Nat) (z : Int) : Word64 :=
  let w := typeBits t
  let n := (z % (2 ^ w : Nat)).toNat
  if t % 2 = 1 ∧ w < 32 ∧ 2 ^ (w - 1) ≤ n then BitVec.ofNat 64 (n + 2 ^ 32 - 2 ^ w) else BitVec.ofNat 64 n

/-- Conversion of one exact value to a type (03 R81). -/
def convOut (dt mode : Nat) (ftz : Bool) (st : Word32) (x : FVal) : Word64 × BitVec 5 × Word32 :=
  if 8 ≤ dt then
    let F := fmtOf dt
    let r := F.flushOut (ftz && isBin dt) (roundTo F mode st x)
    (BitVec.ofNat 64 r.code, r.fl ||| flagIf x.isSnan flNV, r.st)
  else
    let (lo, hi) := typeRange (dt % 2 = 1) (typeBits dt)
    match x with
    | .nan _ => (0, flNV, st)
    | .inf neg => (convOutInt dt (if neg then lo else hi), flNV, st)
    | .zero _ => (0, 0, st)
    | .fin neg n d =>
      let y := roundInt mode (.fin neg n d)
      if y < lo then (convOutInt dt lo, flNV, st)
      else if hi < y then (convOutInt dt hi, flNV, st)
      else (convOutInt dt y, flagIf (n % d ≠ 0) flNX, st)

/-- CVT of one lane (03 R81): value, flags, stochastic register. Integers to integers wrap nothing: the value is clamped
with NV as any other source is. -/
def convert (dt sty mode : Nat) (ftz : Bool) (st : Word32) (v : Word64) : Word64 × BitVec 5 × Word32 :=
  let x := convIn sty v
  convOut dt mode ftz st (if isBin sty then (fmtOf sty).flushIn ftz x else x)

/-! ### Approximated functions (05 R130, R131; log 7)

The value that a bound is held against is a fraction so near the exact one that no value of the format, and no such value
moved by the bound, lies between the two: a square root by construction (`sqrtFrac`), the others with fractions of 2^-192 or
finer, and a closed form where the argument is too small or too large for that. -/

/-- Fraction bits of the fixed-point numbers below. -/
def fxBits : Nat := 384
/-- One in fixed point. -/
def fxOne : Int := 2 ^ fxBits
/-- Product in fixed point. -/
def fxMul (a b : Int) : Int := a * b / fxOne

/-- Sum of the Taylor series whose term j is the term before it times x2 / d j, n terms. -/
def fxSeries (x2 : Int) (d : Nat → Nat) : Nat → Nat → Int → Int
  | 0, _, _ => 0
  | n + 1, j, term => term + fxSeries x2 d n (j + 1) (fxMul term x2 / d j)

/-- ln 2 in fixed point: Σ 1 / (k 2^k). -/
def fxLn2 : Int := ((List.range 400).map (fun k => fxOne / (((k + 1) * 2 ^ (k + 1) : Nat) : Int))).foldl (· + ·) 0

/-- arctan(1/n) in fixed point. -/
def fxAtanInv (n : Nat) : Int :=
  ((List.range 170).map (fun k =>
    (if k % 2 = 0 then 1 else -1) * (fxOne / (((2 * k + 1) * n ^ (2 * k + 1) : Nat) : Int)))).foldl (· + ·) 0

/-- π in fixed point (Machin). -/
def fxPi : Int := 16 * fxAtanInv 5 - 4 * fxAtanInv 239

/-- 2^f for f in [0, 1) in fixed point. -/
def fxExp2 (f : Int) : Int := fxSeries (fxMul f fxLn2) (fun j => j + 1) 100 0 fxOne

/-- Fixed point of a value of magnitude below 2^40, rounded down. -/
def fxOf (x : FVal) : Int := x.num * fxOne / x.den

/-- Exact 2^x, as a fraction, for x in fixed point of magnitude below 2^12. -/
def exp2Frac (x : Int) : Nat × Nat :=
  let n := x / fxOne
  let (p, q) := dyadic (fxExp2 (x - n * fxOne)).toNat n
  (p, q * 2 ^ fxBits)

/-- Bits of log2 of a fixed-point number in [1, 2), most significant first, n bits. -/
def fxLog2Bits : Nat → Int → Nat → Nat
  | 0, _, acc => acc
  | n + 1, m, acc =>
    let s := fxMul m m
    if 2 * fxOne ≤ s then fxLog2Bits n (s / 2) (2 * acc + 1) else fxLog2Bits n s (2 * acc)

/-- log2 of num/den, as an integer part and a fraction of 2^-192 (rounded down). -/
def log2Fix (num den : Nat) : Int :=
  let e := floorLog2 num den
  let (a, b) : Nat × Nat := match e with
    | .ofNat k => (num, den * 2 ^ k)
    | .negSucc k => (num * 2 ^ (k + 1), den)
  e * 2 ^ 192 + fxLog2Bits 192 (((a * 2 ^ fxBits / b : Nat)) : Int) 0

/-- sin(π t) for t in [0, 1/2] in fixed point. -/
def fxSinPi (t : Int) : Int :=
  let y := fxMul t fxPi
  fxSeries (-(fxMul y y)) (fun j => (2 * j + 2) * (2 * j + 3)) 60 0 y

/-- sin(π a) as a signed fixed-point number, for a = num/den of either sign. -/
def sinPiFix (num : Int) (den : Nat) : Int :=
  let r := num % (2 * den : Nat)
  let up := r < den
  let r1 := if up then r else r - den
  let r2 := if r1 * 2 ≤ den then r1 else den - r1
  let v := fxSinPi (r2 * fxOne / den)
  if up then v else -v

/-- The binary value nearest a choice within a bound: a free pattern when it decodes to a finite value within the bound
of the exact value y and of its rounded value, else the rounded value (05 R130). -/
def approximate (F : Fmt) (free : Nat) (yn : Int) (yd : Nat) (bn bd : Nat) : Nat :=
  let rn := (roundTo F 0 0 (.ofFrac yn yd (yn < 0))).code
  let near (v w : FVal) : Bool :=
    let diff := (v.num * w.den - w.num * v.den).natAbs
    diff * bd ≤ bn * (v.den * w.den)
  let v := F.decode free
  let ok := match v with
    | .nan _ => false
    | .inf _ => false
    | _ => near v (.ofFrac yn yd false) && near v (F.decode rn)
  if ok then free % 2 ^ F.width else rn

/-- ulp of an exact value (05 R130), as a fraction. -/
def ulpFrac (F : Fmt) (yn : Int) (yd : Nat) : Nat × Nat :=
  let e := if yn = 0 then 1 - (F.bias : Int) else floorLog2 yn.natAbs yd
  dyadic 1 ((if e < 1 - (F.bias : Int) then 1 - (F.bias : Int) else e) - F.frac)

/-- A result by bound, with its flags (05 R130). -/
def byBound (F : Fmt) (ftz : Bool) (free : Nat) (yn : Int) (yd : Nat) (bn bd : Nat) : Nat × BitVec 5 :=
  let c := approximate F free yn yd bn bd
  let mag := c % F.sign
  let sub := 0 < mag && mag < 2 ^ F.frac
  if sub && ftz then (c - mag, flUnder) else (c, flNX ||| flagIf sub flUF)

/-- A result within k ulp. -/
def byUlp (F : Fmt) (ftz : Bool) (free k : Nat) (yn : Int) (yd : Nat) : Nat × BitVec 5 :=
  let (un, ud) := ulpFrac F yn yd
  byBound F ftz free yn yd (k * un) ud

/-- An exact result. -/
def exactly (F : Fmt) (ftz : Bool) (x : FVal) (fl : BitVec 5) : Nat × BitVec 5 :=
  let r := F.flushOut ftz (roundTo F 0 0 x)
  (r.code, r.fl ||| fl)

/-- Is num/den an integer? -/
def isWhole (num den : Nat) : Bool := num % den = 0

/-- The exponent n when num/den is 2^n. -/
def powerOfTwo (num den : Nat) : Option Int :=
  let e := floorLog2 num den
  let (p, q) := dyadic 1 e
  if num * q = p * den then some e else none

/-- FRSQ (05 R130, R131). -/
def fRsq (F : Fmt) (ftz : Bool) (free a : Nat) : Nat × BitVec 5 :=
  match F.flushIn ftz (F.decode a) with
  | .nan b => (F.nan, flagIf b flNV)
  | .inf neg => if neg then (F.nan, flNV) else (0, 0)
  | .zero neg => (F.inf + (if neg then F.sign else 0), flDZ)
  | .fin neg num den =>
    if neg then (F.nan, flNV)
    else match powerOfTwo num den with
      | some e =>
        if e % 2 = 0 then
          let (p, q) := dyadic 1 (-(e / 2))
          exactly F ftz (.fin false p q) 0
        else let (n, d) := sqrtFrac den num
             byUlp F ftz free 1 n d
      | none => let (n, d) := sqrtFrac den num
                byUlp F ftz free 1 n d

/-- FEXP2 (05 R130, R131). Below -2^10 the exact value lies between 0 and 2^-1023, which no bound tells from 2^-1024. -/
def fExp2 (F : Fmt) (ftz : Bool) (free a : Nat) : Nat × BitVec 5 :=
  match F.flushIn ftz (F.decode a) with
  | .nan b => (F.nan, flagIf b flNV)
  | .inf neg => if neg then (0, 0) else (F.inf, 0)
  | .zero _ => exactly F ftz (.fin false 1 1) 0
  | .fin neg num den =>
    if !neg && 128 * den ≤ num then (F.inf, flOver)
    else if isWhole num den then
      if neg && 149 < num / den then (0, flUnder)
      else
        let (p, q) := dyadic 1 (if neg then -((num / den : Nat) : Int) else (num / den : Nat))
        exactly F ftz (.fin false p q) 0
    else if 1024 * den ≤ num then byUlp F ftz free 2 1 (2 ^ 1024)
    else
      let (p, q) := exp2Frac (fxOf (.fin neg num den))
      byUlp F ftz free 2 p q

/-- FLOG2 (05 R130, R131). -/
def fLog2 (F : Fmt) (ftz : Bool) (free a : Nat) : Nat × BitVec 5 :=
  match F.flushIn ftz (F.decode a) with
  | .nan b => (F.nan, flagIf b flNV)
  | .inf neg => if neg then (F.nan, flNV) else (F.inf, 0)
  | .zero _ => (F.sign + F.inf, flDZ)
  | .fin neg num den =>
    if neg then (F.nan, flNV)
    else match powerOfTwo num den with
      | some e => exactly F ftz (.ofInt e) 0
      | none =>
        let y := log2Fix num den
        if den ≤ 2 * num && num < 2 * den then byBound F ftz free y (2 ^ 192) 1 (2 ^ 22)
        else byUlp F ftz free 2 y (2 ^ 192)

/-- FSINPI, or FCOSPI with `cos` (05 R130, R131). -/
def fSinCos (cos : Bool) (F : Fmt) (ftz : Bool) (free a : Nat) : Nat × BitVec 5 :=
  match F.flushIn ftz (F.decode a) with
  | .nan b => (F.nan, flagIf b flNV)
  | .inf _ => (F.nan, flNV)
  | .zero neg => if cos then exactly F ftz (.fin false 1 1) 0 else exactly F ftz (.zero neg) 0
  | .fin neg num den =>
    let one (pos : Bool) := exactly F ftz (.fin (!pos) 1 1) 0
    if isWhole num den then
      if cos then one (num / den % 2 = 0) else exactly F ftz (.zero neg) 0
    else if isWhole (2 * num) den then
      -- n + 1/2 with n the floor of the signed value
      let n : Int := (if neg then -(num : Int) else num) / (den : Int)
      if cos then exactly F ftz (.zero false) 0 else one (n % 2 = 0)
    else
      let sn : Int := if neg then -(num : Int) else num
      let (zn, zd) : Int × Nat := if cos then (2 * sn + den, 2 * den) else (sn, den)
      let y := sinPiFix zn zd
      -- a value too small for the fixed point is π a itself
      let (yn, yd) : Int × Nat :=
        if !cos && num * 2 ^ 100 < den then (sn * fxPi, den * 2 ^ fxBits) else (y, 2 ^ fxBits)
      let (un, ud) := ulpFrac F yn yd
      if 2 * un * 2 ^ 24 ≤ ud then byBound F ftz free yn yd 1 (2 ^ 24)
      else byBound F ftz free yn yd (2 * un) ud

/-- FTANH (05 R130, R131). From a magnitude of 64 on the exact value lies between 1 - 2^-100 and 1; below 2^-100 it is
a - a^3 / 3 but for a part in 2^400, so it lies below a power of two that a may be. -/
def fTanh (F : Fmt) (ftz : Bool) (free a : Nat) : Nat × BitVec 5 :=
  match F.flushIn ftz (F.decode a) with
  | .nan b => (F.nan, flagIf b flNV)
  | .inf neg => exactly F ftz (.fin neg 1 1) 0
  | .zero neg => exactly F ftz (.zero neg) 0
  | .fin neg num den =>
    let sg (y : Nat) : Int := if neg then -(y : Int) else y
    if 64 * den ≤ num then byUlp F ftz free 2 (sg (2 ^ 100 - 1)) (2 ^ 100)
    else if num * 2 ^ 100 < den then byUlp F ftz free 2 (sg (num * (3 * den * den - num * num))) (3 * den * den * den)
    else
      let t := 2 * fxOf (.fin false num den) * fxOne / fxLn2
      let (p, q) := exp2Frac t
      byUlp F ftz free 2 (sg (p - q)) (p + q)

end Sys2Proof.Machine
end

