-- ==== Sys2Proof/Machine/Regs.lean ====
section
/-!
DEFINITION. The one place where vector, exchange, scalar and mask registers are read and written, and what an issuing
fragment is (02 R25 to R28, 04 R88, R93, 11 R277, R278, 14 R328).
-/

namespace Sys2Proof.Machine

/-- Vector register n of lane i, with the banked v232 to v239 of trap level 1 (14 R328). -/
def Warp.vreg (x : Warp) (n i : Nat) : Word32 :=
  match x.bank with
  | some b => if 232 ≤ n then mgetD b.vregs (32 * (n - 232) + i) 0 else mgetD x.vregs (32 * n + i) 0
  | none => mgetD x.vregs (32 * n + i) 0

/-- Write vector register n of lane i; a write clears its poison (14 R338). -/
def Warp.setVreg (x : Warp) (n i : Nat) (v : Word32) : Warp :=
  match x.bank with
  | some b =>
    if 232 ≤ n then { x with bank := some { b with vregs := mput b.vregs (32 * (n - 232) + i) v 0 } }
    else { x with vregs := mput x.vregs (32 * n + i) v 0, poisoned := x.poisoned.filter (· ≠ 32 * n + i) }
  | none => { x with vregs := mput x.vregs (32 * n + i) v 0, poisoned := x.poisoned.filter (· ≠ 32 * n + i) }

/-- s-register n; s0 reads zero, and s56 to s63 are banked at trap level 1. -/
def Warp.sreg (x : Warp) (n : Nat) : Word64 :=
  if n = 0 then 0
  else match x.bank with
    | some b => if 56 ≤ n then mgetD b.sregs n 0 else mgetD x.sregs n 0
    | none => mgetD x.sregs n 0

/-- Write s-register n; s0 ignores the write. -/
def Warp.setSreg (x : Warp) (n : Nat) (v : Word64) : Warp :=
  if n = 0 then x
  else match x.bank with
    | some b => if 56 ≤ n then { x with bank := some { b with sregs := mput b.sregs n v 0 } }
      else { x with sregs := mput x.sregs n v 0 }
    | none => { x with sregs := mput x.sregs n v 0 }

/-- Mask register n; m0 reads all ones. -/
def Warp.mreg (x : Warp) (n : Nat) : Lanes := if n = 0 then 0xFFFFFFFF else mgetD x.mregs n 0

/-- Write mask register n; m0 ignores the write. -/
def Warp.setMreg (x : Warp) (n : Nat) (v : Lanes) : Warp :=
  if n = 0 then x else { x with mregs := mput x.mregs n v 0 }

/-- WMASK, the banked one at trap level 1. -/
def Warp.mask (x : Warp) : Lanes :=
  match x.bank with
  | some b => b.wmask
  | none => x.wmask

/-- Set WMASK. -/
def Warp.setMask (x : Warp) (v : Lanes) : Warp :=
  match x.bank with
  | some b => { x with bank := some { b with wmask := v } }
  | none => { x with wmask := v }

/-- OR flags into FPSTAT (03 R78). -/
def Warp.raise (x : Warp) (fl : BitVec 5) : Warp := { x with fpstat := x.fpstat ||| fl }

/-- SEED of a lane (03 R75). -/
def Warp.seed (x : Warp) (i : Nat) : Word32 := mgetD x.seeds i 0
/-- Set SEED of a lane. -/
def Warp.setSeed (x : Warp) (i : Nat) (v : Word32) : Warp := { x with seeds := mput x.seeds i v 0 }

/-- Key of exchange register j of exchange lane e. -/
def xKey (e j : Nat) : Nat := 16 * e + j

/-- An exchange register that nothing has written since the file was taken. -/
def XReg.zero : XReg := ⟨0, 0, 0, false, false⟩

/-- What side reads in exchange register j of exchange lane e now: a write of the other side in this cycle is not seen, nor one of the
loft that the floor's in this cycle has overridden (11 R278). -/
def xread (s : State) (p side e j : Nat) : Word32 :=
  let r := mgetD (getPair s p).xfile (xKey e j) XReg.zero
  let own := if side = 0 then r.floor else r.loft && !r.floor
  if r.cycle = s.clock ∧ !own ∧ (r.floor ∨ r.loft) then r.prev else r.val

/-- A result is written to its exchange register in a cycle: in one cycle the floor value is kept and the loft workgroup's XCONF is
set (11 R278). -/
def xwrite (s : State) (cycle : Nat) (x : XWrite) : State :=
  let pr := getPair s x.pair
  let r := mgetD pr.xfile x.key XReg.zero
  let same := r.cycle = cycle && (r.floor || r.loft)
  let fl := same && r.floor
  let lo := same && r.loft
  let keep := x.side = 1 && fl
  let r' : XReg := { val := if keep then r.val else x.val, prev := if same then r.prev else r.val, cycle := cycle,
                     floor := fl || x.side = 0, loft := lo || x.side = 1 }
  let s := modPair s x.pair (fun q => { q with xfile := mput q.xfile x.key r' XReg.zero })
  if r'.floor && r'.loft then
    match pr.holder with
    | some (_, g) => modWg s g (fun x => { x with xconf := true })
    | none => s
  else s

/-- Write the exchange results that a test picks, in the order of their cycles; one without a cycle in the present one. -/
def xland (s : State) (p : XWrite → Bool) : State :=
  (sortBy (fun x => x.due.getD s.clock) (s.xpend.filter p)).foldl (fun t x => xwrite t (x.due.getD s.clock) x)
    { s with xpend := s.xpend.filter (fun x => !p x) }

/-- The exchange results of an instruction that has issued are written a number of cycles later (11 R278). -/
def xissue (s : State) (latency : Nat) : State :=
  if s.xpend.all (fun x => x.due.isSome) then s
  else { s with xpend := s.xpend.map (fun x => if x.due.isNone then { x with due := some (s.clock + latency) } else x) }

/-- The exchange results that are due are written. -/
def xdue (s : State) : State :=
  if s.xpend.isEmpty then s else xland s (fun x => x.due.all (fun d => d ≤ s.clock))

/-- Core of a workgroup, 0 where there is none. -/
def coreOf (s : State) (g : Nat) : Nat := ((getWg s g).map (·.core)).getD 0

/-- What an LW.LD in flight of a warp will write to vector register n of lane i: its handle and the value. -/
def loadOver (s : State) (g w n i : Nat) : Option (Nat × Word32) :=
  match s.loads.find? (fun l => l.kind = .lwld && l.g = g && l.w = w && l.vecs.any (fun v => v.1 = n && v.2.1 = i)) with
  | some l => (l.vecs.find? (fun v => v.1 = n && v.2.1 = i)).map (fun v => (l.id, v.2.2))
  | none => none

/-- Vector register n (0 to 255) of lane i as a warp reads it (02 R25); the destination of an LW.LD in flight reads as the
value before or the loaded one, a free choice (06 R145). -/
def vread (s : State) (g w n i : Nat) : Word32 :=
  match getWarp s g w with
  | none => 0
  | some x =>
    if n < 240 then
      match loadOver s g w n i with
      | some (id, v) => if Config.seesLoad id s.clock i && !(x.bank.isSome && 232 ≤ n) then v else x.vreg n i
      | none => x.vreg n i
    else xread s (pairOf (coreOf s g)) (sideOf (coreOf s g)) (32 * x.xlg + i) (n - 240)

/-- Write vector register n (0 to 255) of lane i; the result of an exchange register is under way until its cycle (11 R278). -/
def vwrite (s : State) (g w n i : Nat) (v : Word32) : State :=
  if n < 240 then modWarp s g w (fun x => x.setVreg n i v)
  else match getWarp s g w with
    | none => s
    | some x => { s with xpend := s.xpend ++
        [⟨g, w, pairOf (coreOf s g), sideOf (coreOf s g), xKey (32 * x.xlg + i) (n - 240), v, none⟩] }

/-- Write a list of (register, lane, value). -/
def vwrites (s : State) (g w : Nat) (rs : List (Nat × Nat × Word32)) : State :=
  rs.foldl (fun s r => vwrite s g w r.1 r.2.1 r.2.2) s

/-- A list of values from memory lands: they are written in this cycle (07 R166, 11 R278). -/
def vlands (s : State) (g w : Nat) (rs : List (Nat × Nat × Word32)) : State :=
  xdue (vwrites s g w rs)

/-- A value of k registers (1 or 2) from register n of lane i. -/
def vread64 (s : State) (g w n i k : Nat) : Word64 :=
  if k = 2 then (vread s g w (n + 1) i) ++ (vread s g w n i) else (vread s g w n i).setWidth 64

/-- The writes of a value of k registers (1 or 2). -/
def regWrites (n i k : Nat) (v : Word64) : List (Nat × Nat × Word32) :=
  if k = 2 then [(n, i, v.setWidth 32), (n + 1, i, v.extractLsb' 32 32)] else [(n, i, v.setWidth 32)]

/-- The issuing fragment of an instruction of the warp word (04 R93). -/
structure Ctx where
  g : Nat
  w : Nat
  e : Nat
  wg : Wg
  warp : Warp
  pc : Word64
  /-- FRAG. -/
  frag : Lanes
  /-- EXEC = FRAG and WMASK. -/
  exec : Lanes
  /-- EXEC and guard (02 R28). -/
  p : Lanes

/-- The lanes that a guard selects (02 R28). -/
def guardMask (x : Warp) (guard : BitVec 4) : Lanes :=
  let m := x.mreg (guard.toNat % 8)
  if guard.getLsbD 3 then ~~~m else m

/-- The context of the selected fragment; none when it is not live, or when the warp is a long-word thread. -/
def ctxOf (s : State) (i : Issuer) (guard : BitVec 4) : Option Ctx :=
  match getWg s i.g, getWarp s i.g i.w with
  | some wg, some x =>
    if !wg.mayIssue then none
    else match x.bank with
      | some b =>
        some ⟨i.g, i.w, i.e, wg, x, b.pc, 0xFFFFFFFF, b.wmask, b.wmask &&& guardMask x guard⟩
      | none =>
        if x.lw.isSome then none
        else match mget x.frags i.e with
          | none => none
          | some fr =>
            some ⟨i.g, i.w, i.e, wg, x, fr.pc, fr.mask, fr.mask &&& x.wmask, fr.mask &&& x.wmask &&& guardMask x guard⟩
  | _, _ => none

/-- The lowest lane of a mask (10 R238, 13 R308). -/
def lowest (m : Lanes) : Option Nat := (lanesOf m).head?

/-- What registers the warp may name (02 R25, 14 R328). -/
def Ctx.regCtx (c : Ctx) : RegCtx := ⟨c.warp.alloc, c.warp.bank.isSome, c.wg.bound⟩

/-- Move the issuing fragment, whose AGE becomes 0 at issue, whatever state it goes to (a fragment that its instruction puts into
BLOCKED or JOINWAIT too: DESIGN CHOICE, log 51); at trap level 1 the banked one, which ages as its entry (04 R96, 14 R328). -/
def setPc (s : State) (g w e : Nat) (pc : Word64) : State :=
  modWarp s g w (fun x =>
    match x.bank with
    | some b => { x with bank := some { b with pc := pc }, issued := s.clock
                         frags := mmod x.frags e (fun fr => { fr with age := 0, asked := false }) }
    | none => { x with issued := s.clock, frags := mmod x.frags e (fun fr => { fr with pc := pc, age := 0, asked := false }) })

/-- A fragment begins to wait in LIC.ACQ (11 R273). -/
def askFrag (s : State) (g w e : Nat) : State :=
  modWarp s g w (fun x => { x with frags := mmod x.frags e (fun fr => { fr with asked := true }) })

/-- Write an s-register of a warp. -/
def swrite (s : State) (g w n : Nat) (v : Word64) : State := modWarp s g w (fun x => x.setSreg n v)

/-- Write a mask register of a warp. -/
def mwrite (s : State) (g w n : Nat) (v : Lanes) : State := modWarp s g w (fun x => x.setMreg n v)

/-- OR flags into the FPSTAT of a warp. -/
def raiseFlags (s : State) (g w : Nat) (fl : BitVec 5) : State := modWarp s g w (fun x => x.raise fl)

end Sys2Proof.Machine
end

