-- ==== Sys2Proof/Machine/Groups.lean ====
section
/-!
DEFINITION. Operations on workgroups that several instructions and events share: regions and their effective fields, the
fault store, notify registers, barriers, timelines, waking, record queues, the licence, and how warps and workgroups end.
-/

namespace Sys2Proof.Machine

/-! ### Regions (13 R287, R288, R290) -/

/-- A field of a region control block. -/
def rcb (b : BitVec 2048) (lo n : Nat) : Nat := bits b.toNat lo n

/-- The active region whose block lies at an address. -/
def regionAt (s : State) (addr : Nat) : Option Region := ((s.regions.find? (fun p => p.2.addr = addr)).map (·.2))

/-- The blocks on the path from a block to its root, this one first; at most k of them. -/
def pathOf (s : State) : Nat → BitVec 2048 → List (BitVec 2048)
  | 0, _ => []
  | k + 1, b =>
    if rcb b 0 64 = 0 then [b]
    else match regionAt s (rcb b 0 64) with
      | some r => b :: pathOf s k r.bits
      | none => [b]

/-- The effective value of a field on a path: OVR bit, position, width, default (13 R288). -/
def effOn (path : List (BitVec 2048)) (ovr lo n dflt : Nat) : Nat :=
  match path.find? (fun b => rcb b (576 + ovr) 1 = 1) with
  | some b => rcb b lo n
  | none => dflt

/-- The path of an active region. -/
def pathTo (s : State) (rnum : Nat) : List (BitVec 2048) :=
  match mget s.regions rnum with
  | some r => pathOf s 8 r.bits
  | none => []

/-- Priority of a region. -/
def prioOf (s : State) (rnum : Nat) : Nat := effOn (pathTo s rnum) 0 384 8 0
/-- LICTRAP of a region. -/
def licTrapOf (s : State) (rnum : Nat) : Bool := effOn (pathTo s rnum) 1 396 1 0 = 1
/-- STK of a region. -/
def stkOf (s : State) (rnum : Nat) : Nat := effOn (pathTo s rnum) 2 397 2 3
/-- AGELIM of a region. -/
def ageLimOf (s : State) (rnum : Nat) : Nat := effOn (pathTo s rnum) 3 399 8 48
/-- ASID of a region. -/
def asidOf (s : State) (rnum : Nat) : Nat := effOn (pathTo s rnum) 4 407 11 0
/-- SPBOUND of a region. -/
def spBoundOf (s : State) (rnum : Nat) : Nat := effOn (pathTo s rnum) 5 448 20 20000
/-- PARKT of a region. -/
def parkTOf (s : State) (rnum : Nat) : Nat := effOn (pathTo s rnum) 6 468 20 20000
/-- PREDLY of a region. -/
def preDlyOf (s : State) (rnum : Nat) : Nat := effOn (pathTo s rnum) 7 488 20 5000
/-- COLD of a region. -/
def coldOf (s : State) (rnum : Nat) : Nat := effOn (pathTo s rnum) 8 512 16 40
/-- NTFMASK of a region. -/
def ntfMaskOf (s : State) (rnum : Nat) : Nat := effOn (pathTo s rnum) 13 640 256 0

/-- Bits [lo + n - 1 : lo] of a node descriptor (13 R291). -/
def nd (b : BitVec 1024) (lo n : Nat) : Nat := bits b.toNat lo n

/-- A node of an active region. -/
def getNode (s : State) (rnum node : Nat) : Option Node :=
  match mget s.regions rnum with
  | some r => mget r.nodes node
  | none => none

/-- Change a region. -/
def modRegion (s : State) (rnum : Nat) (f : Region → Region) : State := { s with regions := mmod s.regions rnum f }

/-- Change a node. -/
def modNode (s : State) (rnum node : Nat) (f : Node → Node) : State :=
  modRegion s rnum (fun r => { r with nodes := mmod r.nodes node f })

/-! ### Waking (04 R96) -/

/-- Is some lane group of a core in long-word mode through a warp? -/
def lwOn (s : State) (core lg : Nat) : Bool :=
  s.warps.any (fun p => p.2.lw.isSome && p.2.lg = lg &&
    (match getWg s (p.1 / 16) with
     | some x => x.isResident && x.core = core
     | none => false))

/-- Number of lane groups of a core in long-word mode (06 R141). -/
def lwCount (s : State) (core : Nat) : Nat := ((List.range 4).filter (lwOn s core)).length

/-- Is a warp held: by a long-word thread of its lane group, or because its workgroup is not on its core or stops for a save (04
R96, 14 R343)? A long-word thread of a workgroup that stops runs on to its safe point (06 R162). -/
def heldWarp (s : State) (g w : Nat) : Bool :=
  match getWg s g, getWarp s g w with
  | some x, some p => (match x.status with
      | .resident => p.lw.isNone && lwOn s x.core p.lg
      | .stopping _ => p.lw.isNone
      | _ => true)
  | _, _ => true

/-! ### Waiting for lamp units and for links (07 R180, 15 R362) -/

/-- Does an agent that waits in the middle of what it does still want its access: the checkpoint engine, the end of a workgroup, a
Cooper that serves a doorbell, or a warp that is not held? -/
def syncWants (s : State) (who : Nat) : Bool :=
  if ckptWho ≤ who then s.ckpt.busy ≠ 0
  else if endWho 0 ≤ who then (getWg s (who - endWho 0)).isSome
  else if cooperWho 0 ≤ who then !s.rings.isEmpty
  else !heldWarp s (who / 16) (who % 16)

/-- Does an agent in the queue of a lamp unit still wait there: an engine command that runs, a request that waits, the sampling
recorder, an agent's own access that it still wants, or a fragment or long-word thread that may issue? An access whose fragment is
held arrives afresh when it is issued again (log 3). -/
def LampWait.live (s : State) (q : LampWait) : Bool :=
  if syncWho 0 ≤ q.who then syncWants s (q.who - syncWho 0)
  else if sampleWho 0 ≤ q.who then s.obs.samples.any (fun p => sampleWho p.lg = q.who)
  else if peerWho 0 ≤ q.who then s.peerq.any (fun p => peerWho p.1 = q.who)
  else if 2 ^ 65 ≤ q.who then s.posted.any (fun p => reqWho p.1 = q.who)
  else if 2 ^ 64 ≤ q.who then s.copies.any (fun c => 2 ^ 64 + c.id = q.who) || s.anvs.any (fun a => 2 ^ 64 + a.id = q.who)
  else
    let n := q.who % 2 ^ 63
    let g := n / 32 / 16
    let w := n / 32 % 16
    !heldWarp s g w && (getWarp s g w).any (fun p => match p.bank with
      | some b => b.entry.getD 0 = n % 32
      | none => p.lw.isSome || (mget p.frags (n % 32)).any (fun fr => fr.state = .ready))

/-- Must an access of an agent to units wait: one of them is not LIT, or its grant awaits a release that this access is no part
of (07 R184), or an access that arrived before it waits for one of them (07 R180, R188)? -/
def lampHeld (s : State) (who : Nat) (us : List Nat) : Bool :=
  us.any (fun u => !isLit s u || s.regrant.any (fun r => bankUnit r.1 = u && !r.2.contains who)) ||
    (s.lampq.takeWhile (fun q => q.who ≠ who)).any (fun q => q.units.any us.contains && q.live s)

/-! ### Near-threshold operation (07 R186) -/

/-- Die of a core: 0 West floor, 1 West loft, 2 East floor, 3 East loft (01 R13). -/
def dieOf (core : Nat) : Nat := core / 120

/-- Is a die above its trip temperature (16 R376)? -/
def tripped (s : State) (die : Nat) : Bool := s.bellows.trips.contains die

/-- Are all resident, unheld warps of a lane group of workgroups in phase 5 to 7 (07 R186)? -/
def nearAllowed (s : State) (core lg : Nat) : Bool :=
  s.warps.all (fun p => match getWg s (p.1 / 16) with
    | some x => !(x.isResident && x.core = core && p.2.lg = lg && !heldWarp s (p.1 / 16) (p.1 % 16)) || 5 ≤ x.phase
    | none => true)

/-- Leave near-threshold operation, unless a thermal trip of the die holds it (07 R186). -/
def leaveNear (s : State) (core lg : Nat) : State :=
  if tripped s (dieOf core) then s else modLg s core lg (fun l => { l with near := false })

/-- Is a lane group in near-threshold operation: the Bellows has moved it there, and its warps allow it or a thermal trip holds
it there (07 R186)? -/
def inNear (s : State) (core lg : Nat) : Bool :=
  (getLg s core lg).near && (tripped s (dieOf core) || nearAllowed s core lg)

/-- Has a notify register reached a target (13 R318)? -/
def notifyReached (s : State) (j : Nat) (target : Word64) : Bool := (mgetD s.notify j 0 - target).toNat < 2 ^ 63

/-- Waiting tickets of REG.CLAIM on a lane group's pool. -/
def claimTickets (s : State) (g lg : Nat) : List Nat :=
  (s.warps.filter (fun p => p.1 / 16 = g && p.2.lg = lg)).flatMap (fun p => p.2.frags.filterMap (fun q =>
    match q.2.state with
    | .blocked (.claim t _) => some t
    | _ => none))

/-- Is a wait over? The waits that end by an event of their own (SLEEP, MODE.LW, HINV) and REC.ALLOC.w are not here. -/
def waitOver (s : State) (g : Nat) (x : Wg) (p : Warp) (wt : Wait) : Bool :=
  match wt with
  | .sleep _ => false
  | .bar b ph => (getBar x b).phase ≠ ph
  | .timeline anv n => n ≤ (if anv then x.tla else x.tlc).done
  | .notify j target _ _ => notifyReached s j target
  | .modeLw _ _ => false
  | .hinv _ _ _ => false
  | .lit us _ => us.all (isLit s)
  | .alloc _ _ _ _ _ => false
  | .claim t n => n ≤ mgetD x.pools p.lg 0 && (claimTickets s g p.lg).all (fun u => t ≤ u)

/-- An acquire at a scope other than .core: every .g line of the core's L1 counts as absent (08 R211). -/
def acquire (s : State) (core : Nat) : State := dropL1 s core (fun _ => true)

/-- An engine fault that a wait of a warp has acquired is delivered to it (14 R339). -/
def deliver (s : State) (g w : Nat) (anvil : Bool) (pick : Summary → Bool) : State :=
  match getWg s g with
  | none => s
  | some x =>
    match (if anvil then x.anvFault else x.copyFault) with
    | none => s
    | some f =>
      if f.delivered || !pick f then s
      else
        let f' := some { f with delivered := true }
        let s := setWg s g (if anvil then { x with anvFault := f' } else { x with copyFault := f' })
        modWarp s g w (fun p => { p with engine := p.engine ++ [(anvil, f)] })

/-- Granules of a claim moved from the pool to a warp and queued for clearing (13 R315, 04 R90). -/
def takeGranules (s : State) (g w n : Nat) : State :=
  match getWg s g, getWarp s g w with
  | some x, some p =>
    let s := setWg s g { x with pools := mput x.pools p.lg (mgetD x.pools p.lg 0 - n) 0 }
    let s := setWarp s g w { p with alloc := p.alloc + 8 * n }
    modLg s x.core p.lg (fun l =>
      { l with wash := l.wash ++ (List.range n).map (fun i => (warpKey g w, p.alloc / 8 + i)) })
  | _, _ => s

/-- What the end of a wait does beside making its fragment READY: acquires, deliveries and values. -/
def wakeEffect (s : State) (g w core : Nat) (wt : Wait) : State :=
  match wt with
  | .bar b ph => deliver s g w false (fun f => f.bars.contains (b, ph))
  | .timeline anv n => if n = 0 then s else
      match getWg s g with
      | some x => deliver s g w anv (fun f => f.num ≤ (if anv then x.tla else x.tlc).done)
      | none => s
  | .notify j _ dst _ => acquire (swrite s g w dst (mgetD s.notify j 0)) core
  | .claim _ n => takeGranules s g w n
  | _ => s

/-- Wake one fragment of a warp if its wait is over. -/
def wakeFrag (s : State) (g w e : Nat) : State :=
  match getWg s g, getWarp s g w with
  | some x, some p =>
    match mget p.frags e with
    | some fr =>
      match fr.state with
      | .blocked wt =>
        if waitOver s g x p wt then
          let s := setWarp s g w { p with frags := mset p.frags e { fr with state := .ready } }
          wakeEffect s g w x.core wt
        else s
      | _ => s
    | none => s
  | _, _ => s

/-- Is a workgroup stopping for a save (14 R343)? -/
def Wg.stopped (x : Wg) : Bool :=
  match x.status with
  | .stopping _ => true
  | _ => false

/-- The BAR.WAIT tokens of a long-word thread whose phases have completed count no more (06 R149). -/
def settleBars (s : State) (g w : Nat) : State :=
  match getWg s g with
  | none => s
  | some x =>
    modWarp s g w (fun p => { p with lw := p.lw.map (fun l =>
      let passed (b : BarTok) : Bool := !b.done && (getBar x b.bar).phase ≠ b.phase
      { l with tokens := (l.barw.filter passed).foldl (fun m b => mput m b.tok (mgetD m b.tok 0 - 1) 0) l.tokens
               barw := l.barw.map (fun b => if passed b then { b with done := true } else b) }) })

/-- Wake what may wake in a warp that is not held: at trap level 1 the banked fragment, none where a trap is due, else every
fragment. -/
def wakeWarp (s : State) (g w : Nat) : State :=
  if heldWarp s g w then s
  else
    let s := settleBars s g w
    match getWg s g, getWarp s g w with
    | some x, some p =>
      if p.due.isSome then s
      else match p.bank with
      | some b =>
        match b.wait with
        | some wt =>
          if waitOver s g x p wt then
            wakeEffect (setWarp s g w { p with bank := some { b with wait := none } }) g w x.core wt
          else s
        | none => s
      | none => p.frags.foldl (fun s q => wakeFrag s g w q.1) s
    | _, _ => s

/-- Is a wait of a parked warp over: a barrier's phase has completed, or a notify register has reached its target? -/
def parkedWaitOver (s : State) (g : Nat) (x : Wg) (p : Warp) (wt : Wait) : Bool :=
  match wt with
  | .bar _ _ => waitOver s g x p wt
  | .notify _ _ _ _ => waitOver s g x p wt
  | _ => false

/-- Does a warp of a parked workgroup call for its restore (08 R231, 13 R318)? -/
def parkedReady (s : State) (g : Nat) (x : Wg) (p : Warp) : Bool :=
  (match p.lw with
   | some l => l.barw.any (fun b => !b.done && (getBar x b.bar).phase ≠ b.phase)
   | none => false) ||
  (match p.bank with
   | some b => b.wait.any (parkedWaitOver s g x p)
   | none => p.frags.any (fun q => match q.2.state with
     | .blocked wt => parkedWaitOver s g x p wt
     | _ => false))

/-- Queue a parked workgroup for restore when a wait of one of its warps is over (08 R231, 13 R318). -/
def queueParked (s : State) (g : Nat) : State :=
  match getWg s g with
  | none => s
  | some x =>
    match x.status with
    | .saved true image none =>
      if (liveWarps s g).any (fun w => match getWarp s g w with
          | some p => parkedReady s g x p
          | none => false) then setWg s g { x with status := .saved true image (some s.clock) }
      else s
    | _ => s

/-- Wake what may wake in a workgroup. -/
def wakeWg (s : State) (g : Nat) : State := queueParked ((List.range 16).foldl (fun s w => wakeWarp s g w) s) g

/-- Wake what may wake anywhere. -/
def wakeAll (s : State) : State := s.wgs.foldl (fun s p => wakeWg s p.1) s

/-! ### Notify registers and faults (13 R290, R316, R317, 14 R342) -/

/-- Write a notify register and wake its waiters (13 R316). -/
def postNotify (s : State) (j : Nat) (v : Word64) (add : Bool) : State :=
  let old := mgetD s.notify j 0
  wakeAll { s with notify := mput s.notify j (if add then old + v else v) 0 }

/-- The region number of a region's fault domain (13 R290). -/
def faultDomain (s : State) (rnum : Nat) : Option Nat :=
  let path := pathTo s rnum
  match path.find? (fun b => rcb b 395 1 = 1) with
  | some b => some (rcb b 418 12)
  | none => path.getLast?.map (fun b => rcb b 418 12)

/-- Report a fault to the fault domain of a region (13 R290). -/
def reportFault (s : State) (rnum : Nat) : State :=
  match faultDomain s rnum with
  | some d =>
    if effOn (pathTo s d) 14 536 1 0 = 1 then postNotify s (effOn (pathTo s d) 14 528 8 0) 1 true else s
  | none => s

/-- An empty fault store. -/
def FaultStore.empty : FaultStore := ⟨0, 0, 0, []⟩

/-- The fields of a fault-store record (14 R342). -/
structure FaultRec where
  type : Nat
  aux : Nat := 0
  cause : Nat := 0
  faddr : Word64 := 0
  pc : Word64 := 0
  wgid : Nat := 0
  asid : Nat := 0
  rnum : Nat := 0
  node : Nat := 0
  core : Nat := 0
  warp : Nat := 0
  deriving DecidableEq, Repr

/-- The bits of a record (14 R342). -/
def FaultRec.toBits (r : FaultRec) (clock seq : Nat) : BitVec 512 :=
  BitVec.ofNat 512 (r.pc.toNat * 2 ^ 448 + r.faddr.toNat * 2 ^ 384 + clock % 2 ^ 64 * 2 ^ 320 + r.aux % 2 ^ 64 * 2 ^ 256 +
    r.cause % 2 ^ 64 * 2 ^ 192 + r.wgid % 2 ^ 32 * 2 ^ 160 + r.asid % 2 ^ 11 * 2 ^ 117 + r.rnum % 2 ^ 12 * 2 ^ 105 +
    r.node % 2 ^ 10 * 2 ^ 95 + r.core % 2 ^ 9 * 2 ^ 86 + r.warp % 16 * 2 ^ 82 + r.type % 16 * 2 ^ 76 + seq % 2 ^ 64)

/-- Write a record to the fault store of a stack (14 R342, 15 R356). -/
def writeFaultRec (s : State) (stack : Nat) (r : FaultRec) : State :=
  let fs := mgetD s.faultStores stack FaultStore.empty
  let s := if r.type = 3 then freeze s 2 else s
  if 64 ≤ fs.wseq - fs.rseq then
    { s with faultStores := mset s.faultStores stack { fs with drops := fs.drops + 1 } }
  else
    let fs' := { fs with wseq := fs.wseq + 1, recs := mset fs.recs (fs.wseq % 64) (r.toBits s.clock fs.wseq) }
    let s := { s with faultStores := mset s.faultStores stack fs' }
    if fs.wseq = fs.rseq then fireMsix s stack else s

/-- Write a record of TYPE 1, 2, 3 or 5 about a workgroup and report it to its domain (14 R342). -/
def storeFault (s : State) (x : Wg) (type aux cause : Nat) (pc faddr : Word64) (w : Nat) : State :=
  let r : FaultRec := { type := type, aux := aux, cause := cause, faddr := faddr, pc := pc, wgid := x.wgid,
                        asid := x.asid, rnum := x.rnum, node := x.node, core := x.core, warp := w }
  reportFault (writeFaultRec s (stackOf x.core) r) x.rnum

/-- The cause word of an engine fault (14 R323, R324): cause ENGINE, the summary's CAUSE, the space, ORIGIN 3 or 4. -/
def engineCause (anvil : Bool) (f : Summary) : Nat :=
  0x0C + bits f.word.toNat 4 4 * 2 ^ 8 + f.space * 2 ^ 16 + (if anvil then 4 else 3) * 2 ^ 20

/-! ### Barriers (08 R227 to R230) -/

/-- Is a barrier initialised (08 R227)? -/
def Bar.init (b : Bar) : Bool := b.enrol ≠ 0 || b.eexp ≠ 0

/-- Do the conditions of 08 R228 hold? -/
def Bar.complete (b : Bar) : Bool := b.init && b.warr = b.enrol && b.eexp ≤ b.ecnt

/-- The phase after this one. -/
def Bar.next (b : Bar) : Nat := (b.phase + 1) % 2 ^ 20

/-- Completion of a phase (08 R228). -/
def Bar.finish (b : Bar) : Bar :=
  { b with phase := b.next, warr := 0, ecnt := b.ecnt - b.eexp, enrol := b.enrol &&& ~~~b.leaving, leaving := 0 }

/-- Withdraw a warp's enrolment (08 R230). -/
def Bar.withdraw (b : Bar) (w : Nat) : Bar :=
  if b.enrol.getLsbD w then
    if b.warr.getLsbD w then { b with leaving := b.leaving ||| warpBit w, lastph := mdel b.lastph w }
    else
      let b' := { b with enrol := b.enrol &&& ~~~warpBit w, lastph := mdel b.lastph w }
      if b'.enrol = 0 ∧ b'.eexp = 0 then { b' with phase := b'.next, warr := 0 } else b'
  else b

/-- Is it a warp's turn among the barrier operations of its workgroup in this cycle (08 R228)? -/
def barTurn (s : State) (g w : Nat) : Bool := inOrder s (clsBar g) w

/-- A warp's barrier operation is applied in this cycle (08 R228). -/
def barPlace (t : State) (g w : Nat) : State := takePlace t (clsBar g) w

/-- Is a warp enrolled in a barrier of its workgroup? -/
def enrolled (s : State) (g w : Nat) : Bool := (getWg s g).any (fun x => x.bars.any (fun b => b.2.enrol.getLsbD w))

/-- Withdraw a warp from every barrier of its workgroup (08 R230): a barrier operation of the cycle (08 R228). -/
def withdrawAll (s : State) (g w : Nat) : State :=
  let s := if enrolled s g w then barPlace s g (max w (mgetD s.marks (clsBar g) 0)) else s
  wakeWg (modWg s g (fun x => (List.range 16).foldl (fun x b => setBar x b ((getBar x b).withdraw w)) x)) g

/-- An engine arrival (08 R229); the faulted copy's arrival is noted for its delivery. -/
def Bar.engineArrive (b : Bar) : Bar :=
  if b.init && 1 ≤ b.eexp then
    if b.ecnt = 0xFFFFFFFF then { b with esat := true } else { b with ecnt := b.ecnt + 1 }
  else b

/-! ### Timelines (08 R214) -/

/-- Remove n and its successors from the numbers completed beyond a counter. -/
def Timeline.settle : Nat → Timeline → Timeline
  | 0, t => t
  | k + 1, t =>
    if t.ahead.contains (t.done + 1) then
      Timeline.settle k { t with done := t.done + 1, ahead := t.ahead.filter (· ≠ t.done + 1) }
    else t

/-- Command n has completed (08 R214). -/
def Timeline.complete (t : Timeline) (n : Nat) : Timeline :=
  Timeline.settle (t.ahead.length + 1) { t with ahead := t.ahead ++ [n] }

/-- The next number taken. -/
def Timeline.accept (t : Timeline) : Timeline := { t with issued := t.issued + 1 }

/-! ### The licence (11 R269 to R275) -/

/-- Has a workgroup accepted ANV.MMA commands that have not completed? -/
def mmaPending (s : State) (g : Nat) : Bool := s.anvs.any (fun a => a.g = g && a.kind = .mma)

/-- Has a workgroup accepted ANV.MMA commands of an engine slot, a long-word thread's, that have not completed? -/
def threadMma (s : State) (g : Nat) : Bool :=
  s.anvs.any (fun a => a.g = g && a.kind = .mma && (getWarp s g a.w).any (fun x => x.lw.isSome))

/-- Side of a workgroup's core. -/
def sideOfWg (s : State) (g : Nat) : Nat := sideOf (coreOf s g)
/-- Pair of a workgroup's core. -/
def pairOfWg (s : State) (g : Nat) : Nat := pairOf (coreOf s g)

/-- Does a workgroup hold the licence of its pair? -/
def holdsLic (s : State) (g : Nat) : Bool :=
  match (getPair s (pairOfWg s g)).lic with
  | .held h _ _ => h = g
  | _ => false

/-- Order in which requests are served (11 R269). -/
def licRank (s : State) (r : LicReq) : List Nat :=
  [if r.urgent then 0 else 1, r.age, sideOfWg s r.g, coreOf s r.g, ((getWg s r.g).map (·.wgid)).getD 0]

/-- Hand the licence over to a request, from a side (11 R270). -/
def handOver (s : State) (p side : Nat) (r : LicReq) : State :=
  modPair s p (fun q =>
    let q := { q with reqs := q.reqs.filter (fun x => x.g ≠ r.g), releasing := r.rel }
    if sideOfWg s r.g = side then { q with lic := .held r.g side r.pinned, idleFrom := s.clock }
    else { q with lic := .transfer r.g (sideOfWg s r.g) r.pinned s.clock })

/-- Free the licence of a pair from a side (11 R270). -/
def freeLic (s : State) (p side : Nat) : State :=
  match leastBy (licRank s) lexLt (getPair s p).reqs with
  | some r => handOver s p side r
  | none => modPair s p (fun q => { q with lic := .unowned side, releasing := false })

/-- Free the licence of a pair once its releasing holder has no accepted ANV.MMA left (11 R270). -/
def licSettle (s : State) (p : Nat) : State :=
  match (getPair s p).lic with
  | .held g side _ => if (getPair s p).releasing && !mmaPending s g then freeLic s p side else s
  | _ => s

/-- The place of a workgroup's request among the events of a cycle (11 R269, R270): after completions and releases (0) and
withdrawals (1), in the order in which requests are served. -/
def licPlace (s : State) (g : Nat) (urgent : Bool) : Nat :=
  2 + (if urgent then 0 else 2 ^ 50) + (sideOfWg s g * 2 ^ 10 + coreOf s g) * 2 ^ 32 + ((getWg s g).map (·.wgid)).getD 0 % 2 ^ 32

/-- May a workgroup's request be raised after what has happened in this cycle (11 R270)? -/
def licOpen (s : State) (g : Nat) (urgent : Bool) : Bool := inOrder s (clsLic (pairOfWg s g)) (licPlace s g urgent)

/-- Raise a workgroup's request, or mark the one it has (11 R269, R273). -/
def raiseReq (s : State) (g : Nat) (pinned urgent engine : Bool) : State :=
  let p := pairOfWg s g
  let q := getPair s p
  let old := q.reqs.find? (fun r => r.g = g)
  let r : LicReq := match old with
    | some r => { r with pinned := r.pinned || pinned, urgent := r.urgent || urgent, engine := r.engine || engine }
    | none => ⟨g, pinned, urgent, engine, false, s.clock⟩
  let s := takePlace s (clsLic p) (max (licPlace s g urgent) (mgetD s.marks (clsLic p) 0))
  match q.lic with
  | .unowned side => handOver s p side r
  | .transfer h side pn b =>
    if h = g then modPair s p (fun q => { q with lic := .transfer h side (pn || pinned) b })
    else modPair s p (fun q => { q with reqs := q.reqs.filter (fun x => x.g ≠ g) ++ [r] })
  | .held _ _ _ => modPair s p (fun q => { q with reqs := q.reqs.filter (fun x => x.g ≠ g) ++ [r] })

/-- Has a workgroup a request pending? -/
def hasReq (s : State) (g : Nat) : Bool :=
  let q := getPair s (pairOfWg s g)
  q.reqs.any (fun r => r.g = g) || (match q.lic with
    | .transfer h _ _ _ => h = g
    | _ => false)

/-- May a workgroup's request be withdrawn now: it has none, or no request has been raised in this cycle (11 R270)? -/
def withdrawTurn (s : State) (g : Nat) : Bool := !hasReq s g || inOrder s (clsLic (pairOfWg s g)) 1

/-- Withdraw a workgroup's request, the one being served included (11 R270, R273): what is left of the cycle brings no completion and
no release. -/
def withdrawReq (s : State) (g : Nat) : State :=
  let p := pairOfWg s g
  let s := if hasReq s g then takePlace s (clsLic p) (max 1 (mgetD s.marks (clsLic p) 0)) else s
  modPair s p (fun q =>
    let q := { q with reqs := q.reqs.filter (fun r => r.g ≠ g) }
    match q.lic with
    | .transfer h side _ b => if h = g then { q with lic := .transfer 0 side false b } else q
    | _ => q)

/-- LIC.REL of a workgroup, or its end: its pin ends too (11 R270, R273). -/
def releaseLic (s : State) (g : Nat) : State :=
  let p := pairOfWg s g
  let s := withdrawReq s g
  if holdsLic s g then licSettle (modPair s p (fun q => { q with
      releasing := true
      lic := match q.lic with
        | .held h side _ => .held h side false
        | l => l })) p else s

/-- A workgroup ends: it gives the licence up as LIC.REL does, but accepted ANV.MMA commands of it that wait for the licence keep their
request, unpinned, and free the licence when they have completed (11 R270). -/
def endLic (s : State) (g : Nat) : State :=
  if mmaPending s g && !holdsLic s g then
    modPair s (pairOfWg s g) (fun p =>
      let q : Pair := { p with reqs := p.reqs.map (fun (r : LicReq) => if r.g = g then { r with pinned := false, rel := true } else r) }
      match q.lic with
      | .transfer h side _ b => if h = g then { q with lic := .transfer h side false b, releasing := true } else q
      | _ => q)
  else releaseLic s g

/-! ### Record queues (13 R294 to R298) -/

/-- The ATS translation of a virtual page that some TLB holds for a context. -/
def atsEntry (s : State) (asid va : Nat) : Option Tlb :=
  s.tlb.find? (fun e => e.asid = asid && 4 ≤ e.mtype && e.vpn = va / 2 ^ e.size)

/-- Where the device's own agents find a byte of a context's .g memory: through the tables; on a peer page through its link window
(15 R364), on a host page through an ATS translation that a TLB holds (14 R349). -/
def contextKey (s : State) (asid va : Nat) : Option Nat :=
  match walkContext s asid va with
  | .leaf size pa mtype _ _ _ =>
    let off := va % 2 ^ size
    if mtype = 0 then (if pa + off < Config.hbmBytes then some (hbmKey (pa + off)) else none)
    else if mtype = 3 then
      let win := leafAddr s pa 3 / 2 ^ 64
      if win.testBit 0 && windowUp s win then
        some (peerKey (bits win 86 12) ((bits win 1 63 * 2 + bits pa 0 46 + off) % 2 ^ 64)) else none
    else if tdiBars s asid then none
    else (atsEntry s asid va).map (fun t => (if mtype = 1 then hostDevKey else hostKey) (t.pa + va % 4096))
  | _ => none

/-- LINKS of the window of a peer page of a context (15 R364). -/
def contextLinks (s : State) (asid va : Nat) : Nat :=
  match walkContext s asid va with
  | .leaf _ pa 3 _ _ _ => bits (leafAddr s pa 3 / 2 ^ 64) 98 12
  | _ => 0

/-- The pieces of a range of addresses that lie each in one 4 KiB page: address and bytes. -/
def piecesOf (va n : Nat) : List (Nat × Nat) :=
  ((List.range ((va % 4096 + n + 4095) / 4096)).map (fun i => va / 4096 * 4096 + 4096 * i)).map (fun p =>
    (max va p, min (va + n) (p + 4096) - max va p))

/-- The lamp units of a piece of a context's memory. -/
def pieceUnits (s : State) (asid : Nat) (q : Nat × Nat) : List Nat :=
  nub ((List.range ((q.1 % 128 + q.2 + 127) / 128)).filterMap (fun i => (contextKey s asid (q.1 / 128 * 128 + 128 * i)).bind unitOf))

/-- Must an agent of the device wait for a piece of a context's memory: for its translation by the host, which has still to be asked
for (14 R349), for a request over its link window (15 R362), or for its pseudo-channels (07 R180)? -/
def pieceWaits (s : State) (asid who : Nat) (q : Nat × Nat) : Bool :=
  match walkContext s asid q.1 with
  | .leaf _ _ mtype _ _ _ =>
    if mtype = 1 || mtype = 2 then !tdiBars s asid && (atsEntry s asid q.1).isNone && !(walkOf s who asid q.1).any (fun k => match k.state with
      | .failed _ => true
      | _ => false)
    else if mtype = 3 then (contextKey s asid q.1).any (fun k => !reqGone s (syncAcc who true) k)
    else lampHeld s (syncWho who) (pieceUnits s asid q)
  | _ => false

/-- The pieces of a range of a context's memory that an agent must still wait for. -/
def contextMiss (s : State) (asid who va n : Nat) : List (Nat × Nat) := (piecesOf va n).filter (pieceWaits s asid who)

/-- Ask for what the pieces of a context's memory wait for: translations, requests over links, which carry their bytes and bring back
as many, and pseudo-channels. -/
def askPieces (s : State) (core asid who : Nat) (ps : List (Nat × Nat)) : State :=
  let us := nub (ps.flatMap (pieceUnits s asid))
  let s := ps.foldl (fun s q =>
    match walkContext s asid q.1 with
    | .leaf _ _ mtype _ _ _ =>
      if mtype = 3 then
        askPeer s (syncAcc who true) (syncAgent who) (contextLinks s asid q.1) ((contextKey s asid q.1).getD 0) q.2 q.2
      else if mtype = 0 then s
      else requestWalk s core asid who q.1
    | _ => s) s
  if us.isEmpty then s else lampJoin s (syncWho who) us

/-- An agent has what it waited for in a context's memory, and waits for nothing of it any more. -/
def pieceDone (s : State) (who : Nat) : State := lampLeave (endAccess (dropFailed s who) (syncAcc who true)) (syncWho who)

/-- Write bytes of a context's memory for an agent of the device, where they are mapped. -/
def contextWrite (s : State) (asid va : Nat) (bs : List Byte) : State :=
  let cs := (List.range bs.length).filterMap (fun i => (contextKey s asid (va + i)).map (fun k => (k, bs.getD i 0)))
  pocWrite (touchAll s (nub (cs.filterMap (fun c => unitOf c.1)))) cs

/-- Read a byte of a context's memory for an agent of the device. -/
def contextByte (s : State) (asid va : Nat) : Byte := ((contextKey s asid va).map (pocByte s)).getD 0

/-- n bytes of a context's memory as a number. -/
def contextNat (s : State) (asid va : Nat) : Nat → Nat
  | 0 => 0
  | n + 1 => (contextByte s asid va).toNat + 256 * contextNat s asid (va + 1) n

/-- Ring capacity Q and record size RS of a node (13 R292). -/
def ringSlots (b : BitVec 1024) : Nat := 2 ^ nd b 358 5
/-- Record size. -/
def recSize (b : BitVec 1024) : Nat := 32 * (nd b 363 5 + 1)
/-- Address of a ring slot. -/
def slotAddr (b : BitVec 1024) (pos : Nat) : Nat := nd b 128 64 + pos % ringSlots b * recSize b

/-- Padding slots that an allocation of n needs (13 R295). -/
def ringPad (n : Node) (k : Nat) : Nat :=
  let q := ringSlots n.bits
  if n.tail % q + k > q then q - n.tail % q else 0

/-- Does the ring take n slots (13 R295)? -/
def ringTakes (n : Node) (k : Nat) : Bool := n.tail - n.head + ringPad n k + k ≤ ringSlots n.bits

/-- A record just reserved. -/
def Rec.fresh (addr : Nat) (pos : Option Nat) (st : RecState) : Rec := ⟨addr, pos, st, 0, 0, false, 0, 0, 0, 0⟩

/-- Take n slots of the ring, with padding; the address of the first record (13 R295). -/
def ringTake (n : Node) (k : Nat) : Node × Nat :=
  let pad := ringPad n k
  let first := n.tail + pad
  let pads := (List.range pad).map (fun i => Rec.fresh (slotAddr n.bits (n.tail + i)) (some (n.tail + i)) .aborted)
  let recs := (List.range k).map (fun i => Rec.fresh (slotAddr n.bits (first + i)) (some (first + i)) .reserved)
  ({ n with tail := first + k, recs := n.recs ++ pads ++ recs }, slotAddr n.bits first)

/-- Spilled records of a region with their sizes: address and bytes. -/
def spilled (r : Region) : List (Nat × Nat) :=
  r.nodes.flatMap (fun p => (p.2.recs.filter (fun x => x.pos.isNone)).map (fun x => (x.addr, recSize p.2.bits)))

/-- The lowest RS-aligned run of n records that the spill area of a region has free (13 R298). Of several runs that fit it is the
lowest: DESIGN CHOICE, log 13. -/
def spillFind (r : Region) (rs n : Nat) : Option Nat :=
  let base := rcb r.bits 128 64
  let size := rcb r.bits 192 32
  let used := spilled r
  let start := (base + rs - 1) / rs * rs
  -- candidates: the start, and the ends of used runs rounded up
  let cands := (start :: used.map (fun u => (u.1 + u.2 + rs - 1) / rs * rs)).filter (fun a =>
    base ≤ a && a + rs * n ≤ base + size && used.all (fun u => u.1 + u.2 ≤ a || a + rs * n ≤ u.1))
  leastBy (fun a => [a]) lexLt cands

/-- Is a record over? -/
def Rec.finished (r : Rec) : Bool :=
  match r.state with
  | .consumed => true
  | .aborted => true
  | _ => false

/-- Advance the head over records that are over, at most k of them; drop spilled ones (13 R296). -/
def advanceHead : Nat → Node → Node
  | 0, n => n
  | k + 1, n =>
    match n.recs.find? (fun r => r.pos = some n.head) with
    | some r => if r.finished then
        advanceHead k { n with head := n.head + 1, recs := n.recs.filter (fun x => x.pos ≠ some n.head) } else n
    | none => n

/-- Free what may be free in a queue (13 R296). -/
def freeSlots (n : Node) : Node :=
  let n := { n with recs := n.recs.filter (fun r => !(r.pos.isNone && r.finished)) }
  advanceHead n.recs.length n

/-- WAITING records of a node in the order of 13 R299, those committed in this cycle left out (13 R306). -/
def waitingList (n : Node) (clock : Nat) : List Rec :=
  let w := n.recs.filter (fun r => r.state = .waiting && r.commit < clock)
  sortBy (fun r => r.pos.getD 0) (w.filter (fun r => r.pos.isSome)) ++ sortBy (·.order) (w.filter (fun r => r.pos.isNone))

/-- The records of a node that a launch takes become LAUNCHED as it is placed, a range record with its last launch (13 R296,
R299; log 53). -/
def takeRecs (n : Node) (l : Launch) : Node :=
  { n with pending := none
           recs := n.recs.map (fun r =>
             if l.recs.contains r.addr && r.state = .waiting then
               if r.range then { r with made := r.made + 1, state := if r.count ≤ r.made + 1 then .launched else .waiting }
               else { r with state := .launched }
             else r) }

/-- Do the ordinary records that precede the first range record make a full batch, those committed in this cycle among them (13
R306)? -/
def fullNext (n : Node) (clock : Nat) : Bool :=
  nd n.bits 320 8 + 1 ≤ ((waitingList n (clock + 1)).takeWhile (fun r => !r.range)).length

/-- Has the timer formed the pending launch of a node in this cycle? -/
def timedNow (n : Node) (clock : Nat) : Bool :=
  n.pending.any (fun l => !l.range && l.formed = clock && l.recs.length < nd n.bits 320 8 + 1) && !(waitingList n clock).any (·.range)

/-- A partial batch that the timer has formed in this cycle, in which the record that fills it is committed, is none: one full batch
is formed (13 R306). -/
def refill (n : Node) (clock : Nat) : Node := if timedNow n clock && fullNext n clock then { n with pending := none } else n

/-- Form the pending launch of a node that has none (13 R299); `timer` lets the partial-batch timer expire. -/
def formNode (n : Node) (clock : Nat) (timer : Bool) : Node :=
  match n.pending, waitingList n clock with
  | some _, _ => n
  | none, [] => n
  | none, f :: rest =>
    let list := f :: rest
    if f.range then { n with pending := some ⟨[f.addr], true, f.made, f.count, f.depth, clock, clock⟩ }
    else
      let ords := list.takeWhile (fun r => !r.range)
      let b := nd n.bits 320 8 + 1
      let first := list.foldl (fun m r => min m r.commit) f.commit
      if b ≤ ords.length || ords.length < list.length || (timer && first + 64 * nd n.bits 272 16 ≤ clock && !fullNext n clock) then
        let rs := ords.take b
        { n with pending := some ⟨rs.map (·.addr), false, 0, 0, rs.foldl (fun m r => max m r.depth) 0, clock, clock⟩ }
      else n

/-- The Coopers form the launches that need no timer (13 R299); a barred region launches nothing (15 R360). -/
def formAll (s : State) : State :=
  { s with regions := s.regions.map (fun p =>
      (p.1, if p.2.barred then p.2
            else { p.2 with nodes := p.2.nodes.map (fun q => (q.1, formNode q.2 s.clock false)) })) }

/-- Set the state of the record at an address. -/
def setRecState (n : Node) (addr : Nat) (st : RecState) : Node :=
  { n with recs := n.recs.map (fun r => if r.addr = addr && !r.finished then { r with state := st } else r) }

/-- Write the ABORTED bit of a header (13 R294). -/
def writeAborted (s : State) (asid addr : Nat) : State :=
  contextWrite s asid (addr + 3) [contextByte s asid (addr + 3) ||| 4]

/-- Abort n records of a node from an address (13 R296, R311). -/
def abortRecs (s : State) (asid rnum node addr n : Nat) : State :=
  match getNode s rnum node with
  | none => s
  | some d =>
    (List.range n).foldl (fun s i =>
      let a := addr + i * recSize d.bits
      modNode (writeAborted s asid a) rnum node (fun d => freeSlots (setRecState d a .aborted))) s

/-- The workgroup of a launch has ended: its records are consumed when every workgroup of the batch, or every launch of
the range, has ended (13 R296). -/
def endLaunch (s : State) (x : Wg) : State :=
  let partnerLive := match x.partner with
    | some h => (match getWg s h with
        | some y => (match y.status with
            | .ending => false
            | _ => true)
        | none => false)
    | none => false
  if partnerLive then s
  else x.batch.foldl (fun s a =>
    modNode s x.rnum x.node (fun d => freeSlots { d with recs := d.recs.map (fun r =>
      if r.addr = a && !r.finished then
        if r.range then
          let r := { r with ended := r.ended + 1 }
          if r.count ≤ r.ended then { r with state := .consumed } else r
        else { r with state := .consumed }
      else r) })) s

/-! ### Ends (04 R106, 08 R230, 11 R270, 14 R341) -/

/-- A warp leaves the set that waits in the latch (11 R261). -/
def unlatch (s : State) (g w : Nat) : State :=
  modWg s g (fun x => { x with latch := match x.latch with
    | some l =>
      let ws := l.waiting.filter (fun m => m.w ≠ w)
      if ws.isEmpty then none else some { l with waiting := ws, asked := false }
    | none => none })

/-- Remove a warp and all that is its own (04 R106, 08 R230, R232, 11 R261). -/
def dropWarp (s : State) (g w : Nat) : State :=
  let k := warpKey g w
  let core := coreOf s g
  let s := { s with warps := mdel s.warps k
                    loads := s.loads.filter (fun l => !(l.g = g && l.w = w)),
                    saw := s.saw.filter (fun q => q.1 ≠ k)
                    walks := s.walks.filter (fun l => l.who ≠ k)
                    regions := s.regions.map (fun p => (p.1, { p.2 with nodes := p.2.nodes.map (fun q =>
                      (q.1, { q.2 with waiters := q.2.waiters.filter (fun x =>
                        match x with
                        | .frag v _ => v ≠ k
                        | .bell _ => true) })) })) }
  let s := modCore s core (fun c => { c with spans := c.spans.filter (fun x => x.warp ≠ k) })
  let s := (List.range 4).foldl (fun s lg => modLg s core lg (fun l => { l with wash := l.wash.filter (fun x => x.1 ≠ k) })) s
  let s := unlatch (modWg s g (fun x => { x with gang := x.gang &&& ~~~warpBit w })) g w
  withdrawAll s g w

/-- Have all commands of a workgroup completed, with the multicasts of others that write to it (10 R249, 11 R253), and for a
killed one its stores and atomics been performed? -/
def drained (s : State) (g : Nat) (killed : Bool) : Bool :=
  !s.copies.any (fun c => c.g = g || c.recv.any (fun r => r.1 = g)) && !s.anvs.any (fun a => a.g = g) &&
  (!killed || (!s.stores.any (fun e => e.g = g) && !s.atoms.any (fun a => a.g = g && !a.done)))

/-- The pieces of a reservation that an agent must still wait for. -/
def resvMiss (s : State) (who : Nat) (x : Wg) (r : Resv) : List (Nat × Nat) :=
  contextMiss s x.asid who r.addr (r.n * ((getNode s x.rnum r.node).map (fun d => recSize d.bits)).getD 0)

/-- Abort the reservations of a workgroup that ends (13 R296): those whose memory waits for nothing; for the others what they need is
asked for, and they stay until it comes. -/
def abortAll (s : State) (g : Nat) (x : Wg) : State :=
  let ready (r : Resv) : Bool := (resvMiss s (endWho g) x r).isEmpty
  let t := (x.resv.filter ready).foldl (fun s r => abortRecs s x.asid x.rnum r.node r.addr r.n) s
  modWg (askPieces t x.core x.asid (endWho g) (x.resv.flatMap (resvMiss s (endWho g) x))) g
    (fun x => { x with resv := x.resv.filter (fun r => !ready r) })

/-- The last things an ended workgroup leaves: an undelivered engine fault, tiles, range records, the twin flags. -/
def removeWg (s : State) (g : Nat) (x : Wg) : State :=
  let rec5 (s : State) (anvil : Bool) (f : Option Summary) : State := match f with
    | some f => if f.delivered then s else storeFault s x 5 f.word.toNat (engineCause anvil f) f.pc f.faddr f.warp
    | none => s
  let s := rec5 (rec5 s false x.copyFault) true x.anvFault
  let s := modCore s x.core (fun c => { c with tiles := c.tiles.filter (fun t => t.2.owner ≠ g)
                                               obs := c.obs.filter (fun o => o.2.owner ≠ g)
                                               spawns := c.spawns.filter (fun p => p.g ≠ g) })
  let s := { s with wgs := mdel s.wgs g }
  let p := pairOf x.core
  match (getPair s p).holder with
  | some (a, b) =>
    if (a = g || b = g) && (getWg s a).isNone && (getWg s b).isNone then
      modPair { s with xpend := s.xpend.filter (fun x => x.pair ≠ p) } p
        (fun q => { q with holder := none, bound := false, xfile := [], flags := [] })
    else s
  | none => s

/-- A workgroup that has ended goes, once its reservations are aborted. -/
def reapEnded (s : State) (g : Nat) : State :=
  match getWg s g with
  | none => s
  | some x =>
    let s := abortAll s g x
    if (getWg s g).any (fun y => y.resv.isEmpty) then
      removeWg (pieceDone { s with walks := s.walks.filter (fun k => k.who ≠ endWho g) } (endWho g)) g x
    else s

/-- Finish the end of a workgroup whose commands have completed. -/
def reapWg (s : State) (g : Nat) : State :=
  match getWg s g with
  | none => s
  | some x =>
    match x.status with
    | .ending => if drained s g false then reapEnded s g else s
    | .killed type aux cause pc faddr w =>
      if drained s g true then
        let s := (liveWarps s g).foldl (fun s w => dropWarp s g w) s
        let s := modCore s x.core (fun c => { c with spawns := c.spawns.filter (fun p => p.g ≠ g) })
        let s := endLaunch (modWg s g (fun y => { y with status := .ending })) x
        let s := releaseLic s g
        reapEnded (storeFault s x type aux cause pc faddr w) g
      else s
    | _ => s

/-- Finish the end of every workgroup whose commands have completed. -/
def reapAll (s : State) : State := s.wgs.foldl (fun s p => reapWg s p.1) s

/-- Finish the ends of workgroups that have waited (13 R296). -/
def settleEnds (s : State) : State := if s.wgs.any (fun p => p.2.status = .ending) then reapAll s else s

/-- The last warp of a workgroup has ended (04 R106). -/
def endWg (s : State) (g : Nat) : State :=
  match getWg s g with
  | none => s
  | some x =>
    let s := modWg s g (fun y => { y with status := .ending })
    let s := endLaunch (abortAll s g x) x
    reapWg (endLic s g) g

/-- A warp ends (04 R106); its workgroup ends with its last warp when no child is pending (13 R314). -/
def endWarp (s : State) (g w : Nat) : State :=
  let s := dropWarp s g w
  if (liveWarps s g).isEmpty && !(getCore s (coreOf s g)).spawns.any (fun p => p.g = g) then endWg s g else s

/-- A double fault or TRAP.RET.kill stops a workgroup and its pair-placed partner (14 R341). -/
def killWg (s : State) (g w type aux cause : Nat) (pc faddr : Word64) : State :=
  match getWg s g with
  | none => s
  | some x =>
    let stop (s : State) (h : Nat) : State := modWg s h (fun y => { y with status := .killed type aux cause pc faddr w })
    let s := stop s g
    let s := match x.partner with
      | some h => (match getWg s h with
          | some y => if y.isResident then stop s h else s
          | none => s)
      | none => s
    reapAll s

/-! ### Fragments (04 R94 to R96) -/

/-- The lowest FREE entry of a split table (04 R94). -/
def freeEntry (fs : SMap Frag) : Nat := ((List.range 32).find? (fun e => (mget fs e).isNone)).getD 31

/-- Fuse the fragments whose reconvergence address is X, if the condition of 04 R95 holds. -/
def fuseAt (x : Warp) (X : Word64) : Warp :=
  let ws := x.frags.filter (fun q => q.2.rca = X)
  let waiting := ws.all (fun q => match q.2.state with
    | .joinWait _ => true
    | _ => false)
  let d := ws.foldl (fun d q => min d q.2.depth) 31
  match ws with
  | [] => x
  | (e, fr) :: _ =>
    if waiting && x.frags.all (fun q => q.2.depth ≤ d) then
      let a := match fr.state with
        | .joinWait a => a
        | _ => 0
      let rest := x.frags.filter (fun q => q.2.rca ≠ X)
      let f : Frag := { pc := X + 8, rca := x.sreg a, mask := ws.foldl (fun m q => m ||| q.2.mask) 0,
                        age := ws.foldl (fun m q => max m q.2.age) 0, depth := d - 1, state := .ready, since := fr.since, asked := false }
      { x with frags := mset rest e f }
    else x

/-- Check the fuse condition for every reconvergence address, until nothing changes. -/
def fuse : Nat → Warp → Warp
  | 0, x => x
  | k + 1, x =>
    let x' := (nub (x.frags.filterMap (fun q => match q.2.state with
      | .joinWait _ => some q.2.rca
      | _ => none))).foldl fuseAt x
    if x' = x then x else fuse k x'

/-- Check the fuse conditions of a warp after one of its fragments has changed (04 R95). -/
def refuse (s : State) (g w : Nat) : State := modWarp s g w (fuse 32)

end Sys2Proof.Machine
end

