-- ==== Sys2Proof/Machine/Operands.lean ====
section
/-!
DEFINITION. Operand values: immediates (02 R27, 05 R118, R125, R135), the values of the fields a, b and c in each lane
(02 R26, 05 R117), and what a trap captures of them (14 R331).
-/

namespace Sys2Proof.Machine

/-- imm16, word[35:20] (02 R27). -/
def imm16 (f : WarpWord) : Nat := f.b.toNat * 256 + f.c.toNat

/-- imm32, extension [31:0] (02 R27). -/
def imm32 (f : WarpWord) : Nat := extBits f 0 32

/-- The immediate, sign-extended to 64 bits. -/
def immSx (f : WarpWord) : Word64 := if f.l then sext64 (imm32 f) 32 else sext64 (imm16 f) 16

/-- The immediate, zero-extended to 64 bits. -/
def immZx (f : WarpWord) : Word64 := BitVec.ofNat 64 (if f.l then imm32 f else imm16 f)

/-- The immediate of a floating type in place of b (05 R125). -/
def immFlt (f : WarpWord) : Word64 :=
  match typeCode f with
  | 9 => if f.l then BitVec.ofNat 64 (imm32 f * 2 ^ 32) else BitVec.ofNat 64 (imm16 f * 2 ^ 48)
  | 8 => if f.l then BitVec.ofNat 64 (imm32 f) else BitVec.ofNat 64 (imm16 f * 2 ^ 16)
  | _ => if f.l then BitVec.ofNat 64 (imm32 f) else BitVec.ofNat 64 (imm16 f * 65537)

/-- The immediate by the signedness of the type: sext for .i, zext otherwise (05 R118). -/
def immInt (f : WarpWord) : Word64 := if typeCode f % 2 = 1 then immSx f else immZx f

/-- The immediate of an operation, extended to 64 bits as its entry states (02 R27). -/
def immOf (op : Op) (f : WarpWord) : Word64 :=
  match op with
  | .iadd => immInt f
  | .isub => immInt f
  | .imul => immInt f
  | .imulh => immInt f
  | .imad => immInt f
  | .imin => immInt f
  | .imax => immInt f
  | .iabsd => immInt f
  | .icmp => immInt f
  | .movi => immInt f
  | .fadd => immFlt f
  | .fsub => immFlt f
  | .fmul => immFlt f
  | .ffma => immFlt f
  | .fmin => immFlt f
  | .fmax => immFlt f
  | .fcmp => immFlt f
  | .fscale => immSx f
  | .sadd => immSx f
  | .ssub => immSx f
  | .smul => immSx f
  | .smulh => immSx f
  | .sand => immSx f
  | .sor => immSx f
  | .sxor => immSx f
  | .sshl => immSx f
  | .sshr => immSx f
  | .sshra => immSx f
  | .smin => immSx f
  | .smax => immSx f
  | .scmp => immSx f
  | .ssel => immSx f
  | .sli => if modBits f 0 1 = 1 then immZx f else immSx f
  | .sld => immSx f
  | .sst => immSx f
  | .modeLw => immSx f
  | _ => immZx f

/-- Value of a vector field of k registers in a lane, or of the scalar it selects (02 R26). -/
def fieldVal (s : State) (c : Ctx) (v : BitVec 8) (sel : Bool) (k i : Nat) : Word64 :=
  if sel then c.warp.sreg v.toNat else vread64 s c.g c.w v.toNat i k

/-- Operand a of k registers in lane i. -/
def opA (s : State) (c : Ctx) (f : WarpWord) (k i : Nat) : Word64 := fieldVal s c f.a (f.mod.getLsbD 14) k i

/-- Operand b of k registers in lane i, or the immediate in its place. -/
def opB (s : State) (c : Ctx) (op : Op) (f : WarpWord) (k i : Nat) : Word64 :=
  if immBit f then immOf op f else fieldVal s c f.b (f.mod.getLsbD 13) k i

/-- Operand c of k registers in lane i. -/
def opC (s : State) (c : Ctx) (f : WarpWord) (k i : Nat) : Word64 := fieldVal s c f.c (f.mod.getLsbD 12) k i

/-- The s-register that field a names. -/
def sA (c : Ctx) (f : WarpWord) : Word64 := c.warp.sreg f.a.toNat

/-- The s-register that field b names, or the immediate in its place. -/
def sB (c : Ctx) (op : Op) (f : WarpWord) : Word64 := if immBit f then immOf op f else c.warp.sreg f.b.toNat

/-- The s-register that field c names. -/
def sC (c : Ctx) (f : WarpWord) : Word64 := c.warp.sreg f.c.toNat

/-! ### What an instruction reads and writes -/

/-- The source lane of SHFL (04 R111): width w, mode, .edge, selector b. -/
def shflLane (w mode : Nat) (edge : Bool) (i : Nat) (b : Word32) : Nat :=
  let base := i - i % w
  let r := i - base
  match mode with
  | 0 => base + b.toNat % 32 % w
  | 1 =>
    let u : Int := (r : Int) - (b.setWidth 6).toInt
    if edge && (u < 0 || (w : Int) ≤ u) then i else base + (u % (w : Int)).toNat
  | 2 => base + (r ^^^ (b.toNat % 32 % w))
  | _ => base + (w - 1 - r)

/-- The width that SHFL's field names (04 R111). -/
def shflWidth (f : WarpWord) : Nat := if modBits f 2 3 = 0 then 32 else 2 ^ modBits f 2 3

/-- Vector registers that a field covers. -/
def fldVecs (k : Fld) (v : BitVec 8) (sel : Bool) : List Nat :=
  match k with
  | .vec n _ => (List.range n).map (v.toNat + ·)
  | .vecS n _ => if sel then [] else (List.range n).map (v.toNat + ·)
  | _ => []

/-- s-registers that a field covers. -/
def fldSregs (k : Fld) (v : BitVec 8) (sel : Bool) : List Nat :=
  match k with
  | .vecS _ _ => if sel then [v.toNat] else []
  | .sreg => [v.toNat]
  | .sblk => [v.toNat, v.toNat + 1, v.toNat + 2]
  | _ => []

/-- Vector registers that an instruction reads. -/
def readVecs (op : Op) (f : WarpWord) : List Nat :=
  let sh := shape op f
  let imm16 := immBit f && !f.l
  fldVecs sh.a f.a (f.mod.getLsbD 14) ++ (if immBit f then [] else fldVecs sh.b f.b (f.mod.getLsbD 13)) ++
    (if imm16 then [] else fldVecs sh.c f.c (f.mod.getLsbD 12))

/-- Vector registers that an instruction writes. -/
def writeVecs (op : Op) (f : WarpWord) : List Nat := fldVecs (shape op f).dst f.dst false

/-- s-registers that an instruction reads or writes. -/
def usedSregs (op : Op) (f : WarpWord) : List Nat :=
  let sh := shape op f
  let imm16 := immBit f && !f.l
  fldSregs sh.dst f.dst false ++ fldSregs sh.a f.a (f.mod.getLsbD 14) ++
    (if immBit f then [] else fldSregs sh.b f.b (f.mod.getLsbD 13)) ++
    (if imm16 then [] else fldSregs sh.c f.c (f.mod.getLsbD 12))

/-- May the warp name vector register n (02 R25, 14 R328)? -/
def nameable (c : Ctx) (n : Nat) : Bool :=
  if n < 240 then n < c.warp.alloc || (c.warp.bank.isSome && 232 ≤ n) else c.wg.bound

/-- A captured operand (14 R331): a value for each lane, none where the field is not an operand or names a register
that the warp may not name. -/
def captureFld (s : State) (c : Ctx) (k : Fld) (v : BitVec 8) (sel : Bool) : Option (List Word64) :=
  let vec (n : Nat) : Option (List Word64) :=
    if (List.range n).all (fun j => nameable c (v.toNat + j)) then
      some ((List.range 32).map (fun i => vread64 s c.g c.w v.toNat i (if 2 ≤ n then 2 else 1)))
    else none
  let sca : Option (List Word64) :=
    if v.toNat ≤ 63 then some ((List.range 32).map (fun _ => c.warp.sreg v.toNat)) else none
  match k with
  | .vec n _ => vec n
  | .vecS n _ => if sel then sca else vec n
  | .sreg => sca
  | .sblk => sca
  | _ => none

/-- The three captured operands of a warp word (14 R331); none for the operation is the emulation range. -/
def capture (s : State) (c : Ctx) (op : Option Op) (f : WarpWord) : List (Option (List Word64)) :=
  let sh : Shape := match op with
    | some o => shape o f
    | none => { a := .vecS 1 1, b := .vecS 1 1, c := .vecS 1 1, imm16 := true, imm32 := true }
  let imm := immBit f && (sh.imm16 || sh.imm32)
  let iv : Word64 := match op with
    | some o => immOf o f
    | none => immZx f
  [captureFld s c sh.a f.a (f.mod.getLsbD 14),
   if imm then some ((List.range 32).map (fun _ => iv)) else captureFld s c sh.b f.b (f.mod.getLsbD 13),
   if imm && !f.l then none else captureFld s c sh.c f.c (f.mod.getLsbD 12)]

end Sys2Proof.Machine
end

