-- ==== Sys2Proof/Machine/Access.lean ====
section
/-!
DEFINITION. Accesses: effective addresses and their checks (07 R191, R192), pending stores and their performance
(08 R211), atomic groups (08 R222 to R224), and the landing of loads with late faults (14 R332, R336, R338).
-/

namespace Sys2Proof.Machine

/-- ILLEGAL OPERAND (14 R323). -/
def trapOperand : Trap := { cause := 1, sub := 4 }

/-- What an instruction's meaning answers. -/
inductive Res where
  /-- It has its effect. -/
  | done (s : State)
  /-- It cannot issue yet and stays at its PC; the state left by the attempt (a wake, a walk or a request begun). -/
  | hold (s : State)
  /-- A condition of execution (14 R325). -/
  | trap (t : Trap)
  /-- A condition of execution that changes other state as well. -/
  | trapOn (s : State) (t : Trap)
  /-- The model's own stop. -/
  | stop (f : Fault)

/-! ### Addresses (07 R191) -/

/-- An address of a space (07 R191). -/
def spaceAddr (space : Nat) (e : Word64) : Word64 := if space = 0 then e else BitVec.ofNat 64 (e.toNat % 2 ^ 32)

/-- Effective address of a lane of LD, ST, PREF, CCTL and the atomics (07 R191, 08 R221). -/
def laneAddr (s : State) (c : Ctx) (f : WarpWord) (space i : Nat) : Word64 :=
  let ix : Word64 := if f.mod.getLsbD 14 then c.warp.sreg f.a.toNat
    else (vread s c.g c.w f.a.toNat i).signExtend 64
  let off : Word64 := if f.l then sext64 (extBits f 0 32) 32 else 0
  let sc : Nat := if f.l then 2 ^ extBits f 32 3 else 1
  spaceAddr space (sB c .ld f + ix * BitVec.ofNat 64 sc + off)

/-! ### Checks (07 R173, R175, R176, R192) -/

/-- One lane's place: its lane, its address, the memory key of its first byte (none: nothing is accessed), the bytes that
exist (fewer than the access only at the end of a constant image), the page's MTYPE, and LINKS of the window that it lies in. -/
structure Place where
  lane : Nat
  addr : Word64
  key : Option Nat
  bytes : Nat
  mtype : Nat
  links : Nat := 0
  deriving DecidableEq, Repr

/-- How a check of one lane ends. -/
inductive Chk where
  | ok (p : Place)
  /-- Class 0 misalignment, 1 space limits, 2 translation, 3 permission, with the trap's space and address. -/
  | bad (cls cause sub space : Nat) (addr : Word64)
  /-- A walk of a page is needed. -/
  | walk (va : Nat)
  | hole
  deriving DecidableEq, Repr

/-- Who translates, owns and waits: core, ASID, the agent's number, its workgroup, and its number among the accesses that wait
for lamp units. -/
structure Agent where
  core : Nat
  asid : Nat
  who : Nat
  g : Nat
  q : Nat
  deriving DecidableEq, Repr

/-- The number of a fragment, or of a long-word thread (entry 0), among the accesses that wait. -/
def fragWho (g w e : Nat) : Nat := 32 * warpKey g w + e

/-- The agent that a fragment's accesses are. -/
def Ctx.agent (c : Ctx) : Agent := ⟨c.wg.core, c.wg.asid, warpKey c.g c.w, c.g, fragWho c.g c.w c.e⟩

/-- Node of a workgroup. -/
def nodeBits (s : State) (x : Wg) : BitVec 1024 := ((getNode s x.rnum x.node).map (·.bits)).getD 0

/-- The node of an agent's workgroup, whose constant image it reads. -/
def agentNode (s : State) (a : Agent) : BitVec 1024 := ((getWg s a.g).map (nodeBits s)).getD 0

/-- Check of a .g address. -/
def chkG (s : State) (a : Agent) (lane : Nat) (ad : Word64) (n : Nat) (need : Need) (swap : Bool) : Chk :=
  if !canonical ad.toNat then .bad 1 2 2 0 ad
  else match xlate s a.core a.asid a.who ad.toNat need swap with
    | .ok k m => .ok ⟨lane, ad, some k, n, m, linksAt s a.core a.asid ad.toNat⟩
    | .fault 2 sub => .bad 2 2 sub 0 ad
    | .fault cse sub => .bad 3 cse sub 0 ad
    | .miss => .walk ad.toNat
    | .hole => .hole

/-- Has the vault controller accepted an access of an agent to a bank: it stands in the queue of the bank (07 R181, R184)? -/
def vaultAccepted (s : State) (a : Agent) (bank : Nat) : Bool :=
  s.lampq.any (fun q => q.who = a.q && q.units.contains (bankUnit bank) && q.live s)

/-- Check of one lane's access of n bytes in a space (07 R173, R175, R176, R192); an access that waits at a vault bank since before its
grant was withdrawn never fails (07 R181). -/
def chkLane (s : State) (a : Agent) (space n : Nat) (need : Need) (swap : Bool) (lane : Nat) (ad : Word64) : Chk :=
  if ad.toNat % n ≠ 0 then .bad 0 5 0 space ad
  else match space with
    | 0 => chkG s a lane ad n need swap
    | 1 =>
      if 240 ≤ ad.toNat / 2 ^ 24 ∨ 0xC00000 ≤ ad.toNat % 2 ^ 24 then .bad 1 2 3 1 ad
      else if mget s.vaultOwner (bankOf ad.toNat) = some a.asid || vaultAccepted s a (bankOf ad.toNat) then
        .ok ⟨lane, ad, some (vaultKey ad.toNat), n, 0, 0⟩
      else .bad 3 3 4 1 ad
    | 2 =>
      match getWg s a.g with
      | none => .hole
      | some x =>
        if x.wrapped then
          if x.padSize = 0 then .ok ⟨lane, ad, none, n, 0, 0⟩
          else .ok ⟨lane, ad, some (padKey x.core (4096 * x.padBase + ad.toNat % x.padSize)), n, 0, 0⟩
        else if ad.toNat + n ≤ x.padSize then .ok ⟨lane, ad, some (padKey x.core (4096 * x.padBase + ad.toNat)), n, 0, 0⟩
        else .bad 1 4 0 2 ad
    | _ =>
      match getWg s a.g with
      | none => .hole
      | some x =>
        let b := nodeBits s x
        let size := nd b 288 17
        let ka := kAddr a.asid (nd b 64 64 + ad.toNat)
        if size ≤ ad.toNat then .ok ⟨lane, ad, none, n, 0, 0⟩
        else if kHolds s a.core ka then .ok ⟨lane, ad, some (kcKey a.core ka), min n (size - ad.toNat), 0, 0⟩
        else match chkG s a lane (BitVec.ofNat 64 (nd b 64 64) + ad) n .read false with
          | .ok p => .ok { p with addr := ad, bytes := min n (size - ad.toNat) }
          | r => r

/-- Is a bank-lock span under way: it ends 256 cycles after its BANKLOCK issued (08 R232)? -/
def Span.open (sp : Span) (clock : Nat) : Bool := clock < sp.began + Config.spanCycles

/-- Do n bytes of .p from a key on lie in a bank of a mask (08 R232)? -/
def onBanks (banks : BitVec 32) (key n : Nat) : Bool :=
  (2 ^ 57 ≤ key && key < 2 ^ 58) && (List.range ((n + 3) / 4)).any (fun j => banks.getLsbD ((key / 4 + j) % 32))

/-- Is a bank of .p held by a span of a warp other than this one (08 R233)? -/
def spanHolds (s : State) (core who key n : Nat) : Bool :=
  (getCore s core).spans.any (fun sp => sp.open s.clock && sp.warp ≠ who && onBanks sp.banks key n)

/-- Is an atomic of a lane thread on these bytes, or one that acquires, still to be performed, of any lane thread of its warp for a
long-word thread (08 R201, R210, R222)? -/
def atomWaits (s : State) (who lane key n : Nat) : Bool :=
  s.atoms.any (fun a => warpKey a.g a.w = who && !a.done && (a.acq.isSome || (key < a.key + 8 && a.key < key + n)) &&
    (a.lanes.any (fun l => l.1 = lane) || (getWarp s a.g a.w).any (fun x => x.lw.isSome)))

/-- The lamp units of places: what an access needs LIT (07 R180). -/
def placeUnits (ps : List Place) : List Nat := nub (ps.filterMap (fun p => p.key.bind unitOf))

/-- The outcome of the checks of an instruction's lanes. -/
inductive Checked where
  | ok (ps : List Place)
  | trap (t : Trap)
  | hold (s : State)
  | stop
  deriving Repr

/-- Check every lane before any is performed (07 R192): the first class that any lane fails is the trap, with every lane
that fails it and the address of the lowest. An access to a unit that is not LIT or that an earlier access waits for, to banks
locked by another warp, or behind an atomic of its lane thread, waits. -/
def checkLanes (s : State) (a : Agent) (space n : Nat) (need : Need) (swap : Bool) (ls : List (Nat × Word64)) : Checked :=
  let rs := ls.map (fun l => (l.1, chkLane s a space n need swap l.1 l.2))
  let failing (cls : Nat) : List (Nat × Nat × Nat × Nat × Word64) := rs.filterMap (fun r =>
    match r.2 with
    | .bad k cs sub sp ad => if k = cls then some (r.1, cs, sub, sp, ad) else none
    | _ => none)
  let asTrap (fs : List (Nat × Nat × Nat × Nat × Word64)) : Option Trap :=
    match fs with
    | [] => none
    | (_, cs, sub, sp, ad) :: _ =>
      some { cause := cs, sub := sub, space := sp, flanes := some (maskOf (fs.map (·.1))), faddr := ad }
  match asTrap (failing 0) with
  | some t => .trap t
  | none =>
  match asTrap (failing 1) with
  | some t => .trap t
  | none =>
  if rs.any (fun r => r.2 = .hole) then .stop
  else
  let walks := rs.filterMap (fun r => match r.2 with
    | .walk va => some va
    | _ => none)
  if !walks.isEmpty then .hold (walks.foldl (fun s va => requestWalk s a.core a.asid a.who va) s)
  else
  match asTrap (failing 2) with
  | some t => .trap t
  | none =>
  match asTrap (failing 3) with
  | some t => .trap t
  | none =>
    let ps := rs.filterMap (fun r => match r.2 with
      | .ok p => some p
      | _ => none)
    let us := placeUnits ps
    if lampHeld s a.q us then .hold (lampJoin s a.q us)
    else if ps.any (fun p => match p.key with
        | some k => spanHolds s a.core a.who k n || atomWaits s a.who p.lane k n
        | none => false) then .hold s
    else .ok ps

/-- An agent's access is made: its units are accessed, and it waits for none of them any more (07 R180). -/
def touchPlaces (s : State) (a : Agent) (ps : List Place) : State :=
  touchAll (lampLeave s a.q) (placeUnits ps)

/-! ### Stores (07 R194, 08 R211) -/

/-- Write cells into the L1 copies of a core (07 R168). -/
def updateL1 (s : State) (core : Nat) (cs : List Host.Cell) : State :=
  { s with mem := writeCells s.mem ((cs.filter (fun c => l1Holds s core c.1)).map (fun c => (l1Key core c.1, c.2))) }

/-- How a store is issued: its thread, whether it is a marked access, its cache policy, its token, the granules that its instruction
writes whole, and the first store of its instruction, if it is not itself. -/
structure StoreAs where
  lane : Nat := 0
  marked : Bool := false
  policy : Nat := 0
  token : Option Nat := none
  whole : List Nat := []
  inst : Option Nat := none

/-- Issue a store into the queue on the way to its point of coherence, with the issuing core's L1 copy updated, or invalidated
under .nl1 (07 R168, R194, 08 R211). -/
def issueStore (s : State) (core g w : Nat) (how : StoreAs) (cs : List Host.Cell) : State :=
  let s := if how.policy = 1 then dropL1 s core (fun l => cs.any (fun c => c.1 / 128 = l)) else updateL1 s core cs
  let e : Store := { id := s.nextId, core := core, g := g, w := w, kind := .st, cells := cs, token := how.token, since := s.clock
                     lane := how.lane, marked := how.marked, str := how.policy = 2, inst := how.inst.getD s.nextId, whole := how.whole, joined := [] }
  { s with stores := s.stores ++ [e], nextId := s.nextId + 1 }

/-- The number of a lane thread, or of a long-word thread (lane 0), in the tags of its requests (15 R363). -/
def threadNum (g w lane : Nat) : Nat := 32 * warpKey g w + lane

/-- An access asks for admission of its requests for the peers' memory among its places: of a write, with the bytes; of a read, with
the space for what comes back (15 R362, R363). -/
def askPeers (s : State) (acc agent : Nat) (write : Bool) (ps : List Place) : State :=
  ps.foldl (fun s p => match p.key with
    | some k =>
      let n := ((ps.filter (fun q => q.key.any (fun j => j / 4096 = k / 4096))).map (·.bytes)).foldl (· + ·) 0
      askPeer s acc agent p.links k (if write then n else 0) (if write then 0 else n)
    | none => s) s

/-- Issue the store of each of some places, in order (07 R194): the bytes that a place stores. -/
def issueStores (s : State) (core g w n : Nat) (how : StoreAs) (ps : List Place) (data : Nat → Nat) : State :=
  let whole := wholeGranules (ps.flatMap (fun p => (p.key.map (fun k => cellsOf k n 0)).getD []))
  let how := { how with whole := whole, inst := some s.nextId }
  ps.foldl (fun t p => match p.key with
    | some k => askPeers (issueStore t core g w { how with lane := p.lane } (cellsOf k n (data p.lane)))
        t.nextId (threadNum g w p.lane) true [p]
    | none => t) s

/-- A token of a warp's long-word thread counts one less (06 R149). -/
def tokenDone (s : State) (g w : Nat) (t : Option Nat) : State :=
  match t with
  | none => s
  | some k => modWarp s g w (fun x => { x with lw := x.lw.map (fun l =>
      { l with tokens := mput l.tokens k (mgetD l.tokens k 0 - 1) 0 }) })

/-- A store leaves the queue. -/
def dropStore (s : State) (id : Nat) : State :=
  { s with stores := s.stores.filter (fun x => x.id ≠ id), saw := s.saw.filter (fun q => q.2.2 ≠ id) }

/-- The granules that an instruction has written whole are clean once the last of its stores to them is performed (14 R338). -/
def clearWhole (s : State) (e : Store) : State :=
  { s with poison := s.poison.filter (fun gr => !e.whole.contains gr ||
      s.stores.any (fun x => x.inst = e.inst && x.id ≠ e.id && x.cells.any (fun c => granule c.1 = gr))) }

/-- The lines of a store under .str belong to one access with those of its instruction's other stores: a line at the lowest retention
priority that one of them has written stays there (07 R170). -/
def joinLines (s t : State) (e : Store) : State :=
  if e.str then
    let t := (e.joined.filter (lineLow s)).foldl lowerLine t
    { t with stores := t.stores.map (fun x => if x.inst = e.inst then { x with joined := nub (x.joined ++ linesOf e.cells) } else x) }
  else t

/-- Perform a pending entry of the store queue at its point of coherence. -/
def performStore (s : State) (e : Store) : State :=
  let s := dropStore s e.id
  match e.kind with
  | .st =>
    let t := pocWriteAs (touchAll s (nub (e.cells.filterMap (fun c => unitOf c.1)))) e.since e.str e.cells
    tokenDone (clearWhole (joinLines s t e) e) e.g e.w e.token
  | .flush line => writeBack (countAsk s e.since (hostDevKey (128 * line))) line

/-- Does an atomic belong to one of some lane threads of a warp? -/
def Atom.ofLanes (a : Atom) (g w : Nat) (ls : Lanes) : Bool :=
  a.g = g && a.w = w && a.lanes.any (fun l => ls.getLsbD l.1)

/-- Have some lane threads of a warp read stores of other threads that are not performed, issued before a handle where one is given
(08 R210)? -/
def sawPending (s : State) (g w : Nat) (ls : Lanes) (before : Option Nat) : Bool :=
  s.saw.any (fun q => q.1 = warpKey g w && ls.getLsbD q.2.1 && before.all (fun id => q.2.2 < id))

/-- Have some lane threads of a warp stores or atomics issued and not performed (08 R211), or read stores that are not (08 R210)? -/
def outstanding (s : State) (g w : Nat) (ls : Lanes) : Bool :=
  sawPending s g w ls none ||
  s.stores.any (fun e => e.g = g && e.w = w && e.kind = .st && ls.getLsbD e.lane) ||
    s.atoms.any (fun a => !a.done && a.ofLanes g w ls)

/-- Have some lane threads of a warp marked accesses issued and not performed (08 R204, R208)? -/
def markedPending (s : State) (g w : Nat) (ls : Lanes) : Bool :=
  s.stores.any (fun e => e.g = g && e.w = w && e.marked && ls.getLsbD e.lane) ||
    s.atoms.any (fun a => !a.done && a.ofLanes g w ls)

/-- Has a warp HFLUSH writes not performed (07 R198)? -/
def flushing (s : State) (g w : Nat) : Bool := s.stores.any (fun e => e.g = g && e.w = w && e.kind ≠ .st)

/-- May a release of some lane threads of a warp at a scope code take effect (08 R211, 07 R198)? -/
def laneRelease (s : State) (g w scope : Nat) (ls : Lanes) : Bool := !outstanding s g w ls && !(scope = 4 && flushing s g w)

/-- May a release of a whole warp at a scope code take effect? -/
def releaseReady (s : State) (g w scope : Nat) : Bool := laneRelease s g w scope 0xFFFFFFFF

/-! ### Atomics (08 R221 to R224) -/

/-- The new value of an operation (08 R221): op 9 is compare-and-swap. -/
def atomNew (op t : Nat) (v d swap : Word64) : Word64 :=
  let w := if t = 2 ∨ t = 3 then 64 else 32
  let m (x : Nat) : Word64 := BitVec.ofNat 64 (x % 2 ^ w)
  let less : Bool := if t % 2 = 1 then (if w = 64 then v.slt d else (v.setWidth 32).slt (d.setWidth 32)) else v.ult d
  match op with
  | 0 =>
    if t = 8 then
      BitVec.ofNat 64 (roundTo f32 0 0 (fvAdd 0 (f32.decode v.toNat) (f32.decode d.toNat))).code
    else if t = 11 then
      let h (k : Nat) : Nat :=
        (roundTo bf16 0 0 (fvAdd 0 (bf16.decode (bits v.toNat k 16)) (bf16.decode (bits d.toNat k 16)))).code
      BitVec.ofNat 64 (h 0 + h 16 * 2 ^ 16)
    else m (v.toNat + d.toNat)
  | 1 => if less then v else d
  | 2 => if less then d else v
  | 3 => v &&& d
  | 4 => v ||| d
  | 5 => v ^^^ d
  | 6 => d
  | 7 => if d.toNat ≤ v.toNat then 0 else m (v.toNat + 1)
  | 8 => if v = 0 ∨ d.toNat < v.toNat then d else m (v.toNat - 1)
  | _ => if v = d then swap else v

/-- Bytes of an atomic's type. -/
def atomBytes (t : Nat) : Nat := if t = 2 ∨ t = 3 then 8 else 4

/-- The serial order of a group: old values by lane, and the value left (08 R222). -/
def atomRun (op t : Nat) (v : Word64) (ls : List (Nat × Word64 × Word64)) : List (Nat × Word64) × Word64 :=
  ls.foldl (fun acc l => (acc.1 ++ [(l.1, acc.2)], atomNew op t acc.2 l.2.1 l.2.2)) ([], v)

/-- Add an entry to a warp's late-fault list of 16 (14 R332, R336). -/
def addLate (s : State) (g w : Nat) (l : Late) : State :=
  modWarp s g w (fun x => if x.late.length < 16 then { x with late := x.late ++ [l] } else x)

/-- Space code of a memory key. -/
def keySpace (k : Nat) : Nat :=
  if 2 ^ 56 ≤ k ∧ k < 2 ^ 57 then 1 else if 2 ^ 57 ≤ k ∧ k < 2 ^ 58 then 2 else if 2 ^ 58 ≤ k ∧ k < 2 ^ 59 then 4 else 0

/-- The late fault of a poisoned atomic (14 R332, R336, R338). -/
def atomLate (s : State) (a : Atom) : State :=
  addLate s a.g a.w { addr := BitVec.ofNat 64 a.va, lanes := maskOf (a.lanes.map (·.1)), dst := a.dst.getD 255,
                      width := if a.dst.isNone then 0 else atomBytes a.type / 4, cause := 0x0B, sub := 2,
                      space := keySpace a.key, token := none }

/-- Execute an atomic group at its unit (08 R222, R224): its old values reach their lanes, and the issuing core's L1
copy of the line goes. A poisoned location is left unchanged. -/
def applyAtom (s : State) (a : Atom) : State :=
  let n := atomBytes a.type
  let s := touchAll s ((unitOf a.key).toList)
  let rest (s : State) : List Atom :=
    if a.unit < 248 then s.atoms.map (fun x => if x.id = a.id then { x with done := true } else x)
    else s.atoms.filter (fun x => x.id ≠ a.id)
  let fin (s : State) : State := { s with atoms := rest s }
  if poisonedAt s a.key n then atomLate (fin (askLine s a.since false (a.key / 128 * 128))) a
  else
    let (olds, v) := atomRun a.op a.type (BitVec.ofNat 64 (pocNat s a.key n)) a.lanes
    let s := pocWriteAs s a.since false (cellsOf a.key n v.toNat)
    let s := dropL1 s a.core (fun l => l = a.key / 128)
    let s := { s with dedup := if a.unit < 248 then s.dedup ++ [⟨a.id, a.unit, .device a.id, olds⟩] else s.dedup }
    let s := match a.dst with
      | some d => vlands s a.g a.w (olds.flatMap (fun o => regWrites d o.1 (n / 4) o.2))
      | none => s
    match a.acq with
    | some scope => if scope = 0 then fin s else acquire (fin s) a.core
    | none => fin s

/-! ### Loads in flight (07 R166, 14 R336) -/

/-- Has what a load has asked of peers left, and been given room for what comes back (15 R362)? -/
def loadGone (s : State) (l : Load) : Bool := (s.outs.filter (fun r => r.acc = l.id)).all (fun r => reqGone s l.id r.key)

/-- Lanes of a load that read poisoned data. -/
def poisonedLanes (s : State) (l : Load) : List (Nat × Nat) :=
  (l.reads.filter (fun r => poisonedAt s r.2.2.1 r.2.2.2)).map (fun r => (r.1, r.2.1))

/-- End a load with a late fault in the given lanes; the other lanes receive their values (14 R336). -/
def faultLoad (s : State) (l : Load) (bad : List (Nat × Nat)) (cause sub : Nat) : State :=
  let s := { s with loads := s.loads.filter (fun x => x.id ≠ l.id) }
  let isBad (i : Nat) : Bool := bad.any (fun b => b.1 = i)
  let s := vlands s l.g l.w (l.vecs.filter (fun v => !isBad v.2.1))
  match bad with
  | [] => s
  | b :: _ =>
    let s := addLate s l.g l.w { addr := BitVec.ofNat 64 b.2, lanes := maskOf (bad.map (·.1)), dst := l.dst,
                                 width := l.width, cause := cause, sub := sub, space := l.space, token := l.token }
    tokenDone s l.g l.w l.token

/-- A load lands (07 R166): its values reach their registers, or it becomes a late fault (14 R338). -/
def landLoad (s : State) (l : Load) : State :=
  let s := l.slices.foldl (fun s k => observe s 2 (s.clock - l.since) k) s
  let bad := poisonedLanes s l
  if bad.isEmpty then
    let s := { s with loads := s.loads.filter (fun x => x.id ≠ l.id) }
    let s := vlands s l.g l.w l.vecs
    let s := match l.scal with
      | some (n, v) => swrite s l.g l.w n v
      | none => s
    tokenDone s l.g l.w l.token
  else faultLoad s l bad 0x0B 1

/-- Has a warp loads or atomics with a return in flight? -/
def returning (s : State) (g w : Nat) : Bool :=
  s.loads.any (fun l => l.g = g && l.w = w && l.token.isNone) ||
    s.atoms.any (fun a => a.g = g && a.w = w && !a.done && a.dst.isSome)

/-! ### Order among pending accesses (08 R210, R224) -/

/-- HBM pseudo-channels of keys that are not LIT. -/
def darkHbm (s : State) (ks : List Nat) : List Nat :=
  nub ((ks.filterMap unitOf).filter (fun u => 72960 ≤ u && !isLit s u))

/-- Does an entry of the store queue write a byte of a line, or a byte that another writes? -/
def storesMeet (a b : Store) : Bool :=
  match a.kind, b.kind with
  | .st, .st => a.cells.any (fun c => b.cells.any (fun d => c.1 = d.1))
  | .flush l, .st => b.cells.any (fun d => isHostDev d.1 && hostLine d.1 = l)
  | .st, .flush l => a.cells.any (fun d => isHostDev d.1 && hostLine d.1 = l)
  | .flush l, .flush k => l = k

/-- Does an atomic touch what an entry of the store queue writes? -/
def atomMeets (e : Store) (a : Atom) : Bool :=
  match e.kind with
  | .st => e.cells.any (fun c => a.key ≤ c.1 && c.1 < a.key + atomBytes a.type)
  | .flush l => isHostDev a.key && hostLine a.key = l

/-- A pending access of a core: an entry of the store queue, or an atomic request. -/
inductive Access where
  | store (e : Store)
  | atom (a : Atom)
  deriving DecidableEq, Repr

/-- Its handle, which rises in the order of issue. -/
def Access.id : Access → Nat
  | .store e => e.id
  | .atom a => a.id

/-- Its core. -/
def Access.core : Access → Nat
  | .store e => e.core
  | .atom a => a.core

/-- Do two accesses touch a byte or a line in common? -/
def Access.meets : Access → Access → Bool
  | .store a, .store b => storesMeet a b
  | .store e, .atom a => atomMeets e a
  | .atom a, .store e => atomMeets e a
  | .atom a, .atom b => a.key < b.key + atomBytes b.type && b.key < a.key + atomBytes a.type

/-- Must the first of two accesses of a core, the earlier one, be performed before the second: they touch a byte in common, or
are marked accesses of one lane thread (08 R208, R210)? -/
def Access.before : Access → Access → Bool
  | .atom a, .atom b => a.g = b.g && a.w = b.w && a.lanes.any (fun l => b.lanes.any (fun k => k.1 = l.1))
  | .store e, .atom a => atomMeets e a || (e.marked && e.g = a.g && e.w = a.w && a.lanes.any (fun l => l.1 = e.lane))
  | x, y => x.meets y

/-- The accesses pending anywhere, in the order of their issue. -/
def pendingAccesses (s : State) : List Access :=
  sortBy Access.id (s.stores.map .store ++ (s.atoms.filter (fun a => !a.done)).map .atom)

/-- Those that some accesses need performed, themselves among them, in the order of their issue: with each, the earlier ones of
its core that come before it. -/
def withEarlier (s : State) (p : Access → Bool) : List Access :=
  (pendingAccesses s).foldr (fun a acc =>
    if p a || acc.any (fun b => a.core = b.core && a.before b) then a :: acc else acc) []

/-- May an access be performed now, what comes before it apart: its pseudo-channels are LIT (07 R180), no bank-lock span of another
warp holds its banks (08 R233), a table has room (08 R224), and a request to a peer has left (15 R362)? -/
def Access.free (s : State) : Access → Bool
  | .store e => (darkHbm s (e.cells.map (·.1))).isEmpty &&
      e.cells.all (fun c => !spanHolds s e.core (warpKey e.g e.w) c.1 1 && reqGone s e.id c.1)
  | .atom a => (darkHbm s [a.key]).isEmpty && dedupRoom s a.unit && reqGone s a.id a.key

/-- May an access be performed: nothing of its core that comes before it is pending, and nothing else holds it? -/
def Access.ready (s : State) (a : Access) : Bool :=
  a.free s && (pendingAccesses s).all (fun b => !(b.core = a.core && b.id < a.id && b.before a))

/-- Perform an access. -/
def Access.perform (s : State) : Access → State
  | .store e => performStore s e
  | .atom a => applyAtom s a

/-- May a list of accesses be performed at once: the tables have room for their requests, no bank-lock span holds their banks, and
their requests to peers have left (08 R224, R233, 15 R362)? -/
def drainOk (s : State) (as : List Access) : Bool :=
  as.all (fun a => match a with
    | .store e => e.cells.all (fun c => !spanHolds s e.core (warpKey e.g e.w) c.1 1 && reqGone s e.id c.1)
    | .atom a => reqGone s a.id a.key && (248 ≤ a.unit ||
      (as.filter (fun b => match b with
        | .atom b => b.unit = a.unit
        | _ => false)).length ≤ dedupLeft s a.unit))

/-- Perform accesses in their order. -/
def performAll (s : State) (as : List Access) : State := as.foldl Access.perform s

/-- What an agent that has waited in the queue of a lamp unit issues there, the accesses from a handle on, is performed with its issue,
before accesses that arrive at the unit later (07 R180, R188). -/
def lampFlush (s0 : State) (a : Agent) (t : State) : State :=
  let as := withEarlier t (fun x => s0.nextId ≤ x.id && (match x with
    | .store e => e.cells.any (fun c => (unitOf c.1).isSome)
    | .atom b => (unitOf b.key).isSome))
  if s0.lampq.any (fun q => q.who = a.q) && as.all (fun x => x.free t) && drainOk t as then reapAll (performAll t as) else t

/-- The device's own sources acknowledge the responses that a table holds for them (08 R224). -/
def ackUnit (s : State) (unit : Nat) : State :=
  let done (id : Nat) : Bool := s.atoms.any (fun a => a.id = id && a.done && a.unit = unit)
  { s with dedup := s.dedup.filter (fun d => !done d.id), atoms := s.atoms.filter (fun a => !done a.id) }

/-- Perform accesses in their order, a full table emptied of responses that can be acknowledged (08 R224). -/
def performAcked (s : State) (as : List Access) : State :=
  as.foldl (fun s a => match a with
    | .store e => performStore s e
    | .atom a => applyAtom (if dedupRoom s a.unit then s else ackUnit s a.unit) a) s

/-- The accesses that a trap of a warp awaits: its stores and atomics, those of long-word tokens excepted (14 R327), with what
comes before them. -/
def warpAccesses (s : State) (g w : Nat) : List Access :=
  withEarlier s (fun a => match a with
    | .store e => e.g = g && e.w = w && e.kind = .st && e.token.isNone
    | .atom a => a.g = g && a.w = w)

/-- May a warp's accesses be performed and its loads land at once, those of long-word tokens excepted (14 R327)? -/
def warpDrains (s : State) (g w : Nat) : Bool :=
  drainOk s (warpAccesses s g w) && (s.loads.filter (fun l => l.g = g && l.w = w && l.token.isNone)).all (loadGone s)

/-- Perform every store and atomic of a warp and land its loads, those of long-word tokens excepted (14 R327). -/
def drainWarp (s : State) (g w : Nat) : State :=
  let s := performAll s (warpAccesses s g w)
  (s.loads.filter (fun l => l.g = g && l.w = w && l.token.isNone)).foldl landLoad s

/-- The scratchpad accesses of a warp that are still to be performed (08 R233), with what comes before them. -/
def padAccesses (s : State) (who : Nat) : List Access :=
  withEarlier s (fun a => match a with
    | .store e => warpKey e.g e.w = who && e.cells.any (fun c => 2 ^ 57 ≤ c.1 && c.1 < 2 ^ 58)
    | .atom a => warpKey a.g a.w = who && 2 ^ 57 ≤ a.key && a.key < 2 ^ 58)

/-- What a warp has issued on the scratchpad inside a bank-lock span of its own is performed at once, so before its banks are
released (08 R233). -/
def spanFlush (s : State) (core g w : Nat) : State :=
  if (getCore s core).spans.any (fun sp => sp.warp = warpKey g w && sp.open s.clock) then performAll s (padAccesses s (warpKey g w))
  else s

end Sys2Proof.Machine
end

