-- ==== Sys2Proof/Machine/Ops.lean ====
section
/-!
DEFINITION. The shared operations of issue: taking a trap and the double fault (14 R327 to R331, R340, R341), the return
from one (14 R335), blocking, and the runner that every instruction of the warp word goes through (02 R33, R34,
14 R325, R326).
-/

namespace Sys2Proof.Machine

/-- The outcome type of a step. -/
abbrev Out := Host.Outcome State Fault Refusal

/-- The selected fragment has issued (log 3). -/
def clearIssuer (s : State) : State := { s with issuer := none }

/-! ### Taking a trap -/

/-- Is a late fault one that a trap at this site takes into its frame: any but that of an LW.LD whose token the bundle does not
wait for (14 R336)? -/
def Site.takes (a : Site) (l : Late) : Bool := l.token.all a.waits.contains

/-- The cause word (14 R324). -/
def Trap.word (t : Trap) : Nat := t.cause + t.sub * 2 ^ 8 + t.space * 2 ^ 16 + t.origin * 2 ^ 20

/-- The frame address of a warp (14 R322). -/
def frameAddr (s : State) (x : Wg) (w : Nat) : Nat :=
  (ctxBits s x.asid 64 64 + 65536 * x.trapBlock.getD 0 + 4096 * w) % 2 ^ 64

/-- A late-fault entry's 16 bytes (14 R332). -/
def Late.toNat (l : Late) : Nat :=
  l.addr.toNat + l.lanes.toNat * 2 ^ 64 + l.dst * 2 ^ 96 + l.width * 2 ^ 104 + l.cause * 2 ^ 112 + l.sub * 2 ^ 120

/-- The INFO word (14 R330). -/
def infoWord (x : Warp) (w : Nat) (a : Site) : Nat :=
  let opv := ((List.range 3).filter (fun i => (a.ops.getD i none).isSome)).foldl (fun n i => n + 2 ^ i) 0
  (x.late.filter a.takes).length * 2 ^ 40 + opv * 2 ^ 32 + w * 2 ^ 24 + x.lg * 2 ^ 22 + (if x.sf then 2 ^ 21 else 0) +
    x.fpstat.toNat * 2 ^ 16 + x.alloc * 2 ^ 8 + a.dst

/-- The frame's fields: offset, size, value (14 R329); the rest of its 4,096 bytes is zero. -/
def frameFields (x : Warp) (t : Trap) (a : Site) : List (Nat × Nat × Nat) :=
  let fl := t.flanes.getD a.planes
  let late := x.late.filter a.takes
  [(0x000, 8, t.word), (0x008, 8, a.pc.toNat), (0x010, 8, a.npc.toNat), (0x018, 8, a.word.toNat), (0x020, 8, a.extw.toNat),
   (0x028, 8, a.exec.toNat + a.wmask.toNat * 2 ^ 32), (0x030, 8, a.planes.toNat + fl.toNat * 2 ^ 32),
   (0x038, 8, t.faddr.toNat), (0x040, 8, infoWord x a.w a), (0x048, 8, t.aux), (0x050, 8, x.tcount + 1)] ++
  (List.range 15).map (fun j => (0x080 + 4 * j, 4, (x.mreg (j + 1)).toNat)) ++
  (List.range late.length).map (fun j => (0x100 + 16 * j, 16, ((late.map Late.toNat).getD j 0))) ++
  (List.range 3).flatMap (fun i =>
    match a.ops.getD i none with
    | some vs => (List.range 32).map (fun l => (0x200 + 0x100 * i + 8 * l, 8, (vs.getD l 0).toNat))
    | none => []) ++
  [(0x700, 128, a.bundle), (0x780, 32, a.status)]

/-- Where a page of a context is, with its walk made at once when no TLB holds it and its page is not a host page. -/
def xlateNow (s : State) (x : Wg) (who va : Nat) (need : Need) : Xl × State :=
  if !canonical va then (.fault 2 2, s)
  else match xlate s x.core x.asid who va need false with
    | .miss =>
      match walkContext s x.asid va with
      | .leaf size pa mtype r w ex =>
        if mtype = 1 ∨ mtype = 2 then (.miss, requestWalk s x.core x.asid who va)
        else
          let s := tlbInsert (walkReads s x.asid va) ⟨480 + stackOf x.core, x.asid, size, va / 2 ^ size, leafAddr s pa mtype, mtype, r, w, ex⟩
          (xlate s x.core x.asid who va need false, s)
      | .fault sub => (.fault 2 sub, s)
      | .hole => (.hole, s)
    | r => (r, s)

/-- End the workgroup by a double fault: reason 1 frame, 2 no handler, 3 condition at trap level 1, 4 bad TRAP.RET
(14 R340 to R342). -/
def doubleFault (s : State) (g w reason cause : Nat) (pc faddr : Word64) : State :=
  killWg s g w 1 reason cause pc faddr

/-- Write a line of a frame whole at its slice: some cells, the rest zero. -/
def frameLine (cs : List Host.Cell) (s : State) (k : Nat) : State :=
  putCells (zeroRange (hostDirty (askLine s s.clock false k) k) k 128) (cs.filter (fun c => c.1 / 128 = k / 128))

/-- Write the frame (14 R327, R329): 4,096 bytes at a key, line by line, through the core's L1. -/
def writeFrame (s : State) (core key : Nat) (fs : List (Nat × Nat × Nat)) : State :=
  let cs := (fs.filter (fun f => f.2.2 ≠ 0)).flatMap (fun f => cellsOf (key + f.1) f.2.1 f.2.2)
  (List.range 32).foldl (fun s i => frameLine cs s (key + 128 * i)) (dropL1 s core (fun l => key / 128 ≤ l && l < key / 128 + 32))

/-- Cycles counted towards SPBOUND by now (06 R163). -/
def Lw.count (l : Lw) (clock : Nat) : Nat := l.spCount + (if l.spHold then 0 else clock - l.spMark)

/-- The count goes on from now (06 R163). -/
def Lw.counting (l : Lw) (clock : Nat) : Lw := { l with spCount := l.count clock, spMark := clock, spHold := false }

/-- The count stands still from now (06 R163). -/
def Lw.resting (l : Lw) (clock : Nat) : Lw :=
  if l.spHold then l else { l with spCount := l.count clock, spMark := clock, spHold := true }

/-- The handler state of 14 R328. -/
def enterHandler (x : Warp) (clock : Nat) (handler : Word64) (frame : Nat) (t : Trap) (a : Site) : Warp :=
  let sr : SMap Word64 := mput (mput (mput (mput [] 56 (BitVec.ofNat 64 frame) 0) 57 (BitVec.ofNat 64 t.word) 0) 58 a.pc 0) 63
    (BitVec.ofNat 64 (frame + 4096)) 0
  { x with bank := some ⟨handler, 0xFFFFFFFF, [], sr, a.entry, none⟩, tcount := x.tcount + 1, due := none,
           lw := x.lw.map (·.counting clock),
           late := x.late.filter (fun l => !a.takes l),
           engine := if t.cause = 0x0C then x.engine.drop 1 else x.engine }

/-- A result of a long-word slot lands, with its flags (06 R144, R146). -/
def landOne (x : Warp) (f : Flight) : Warp :=
  if !f.live then x
  else
    let x := x.raise f.flags
    match f.land with
    | .vec r i v => x.setVreg r i v
    | .scalar r v => x.setSreg r v
    | .flag q i v => x.setMreg q (if v then x.mreg q ||| laneBit i else x.mreg q &&& ~~~laneBit i)
    | .sf v => { x with sf := v }

/-- The results of a long-word thread that land at a schedule slot or before (06 R144). -/
def landUpTo (x : Warp) (slot : Nat) : Warp :=
  match x.lw with
  | none => x
  | some l =>
    let x := (sortBy (·.slot) (l.flights.filter (fun f => f.slot ≤ slot))).foldl landOne x
    { x with lw := some { l with flights := l.flights.filter (fun f => slot < f.slot) } }

/-- The results in flight of a long-word thread land, and its schedule clock starts afresh (06 R164). -/
def landFlights (x : Warp) : Warp :=
  match x.lw with
  | none => x
  | some l =>
    let x := landUpTo x (l.flights.foldl (fun n f => max n f.slot) 0)
    { x with lw := x.lw.map (fun l => { l with flights := [], busy := [], slot := 0 }) }

/-- A fragment waits for no lamp unit any more: its access is not performed (07 R180, 14 R326). -/
def leaveQueue (s : State) (a : Site) : State := lampLeave s (fragWho a.g a.w (a.entry.getD 0))

/-- The entry of a trap waits: the trapped fragment has stopped, every other fragment of its warp is held, and the trap stands until
it is taken (14 R327). -/
def deferTrap (s : State) (t : Trap) (a : Site) : State := modWarp s a.g a.w (fun x => { x with due := some (t, a) })

/-- The entry of a trap begins: its fragment waits for nothing any more, and has asked for nothing. An entry that goes on has begun. -/
def beginTrap (s : State) (a : Site) (p : Warp) : State :=
  if p.due.isSome then s else leaveQueue (unlatch (dropFailed s (warpKey a.g a.w)) a.g a.w) a

/-- The pseudo-channels of a frame. -/
def frameUnits (key : Nat) : List Nat := nub ((List.range 32).filterMap (fun i => unitOf (key + 128 * i)))

/-- The write of a frame on a peer page asks for admission (15 R362, R363). -/
def askFrame (s : State) (x : Wg) (who va key : Nat) : State :=
  let ask (s : State) (k n : Nat) : State := askPeer s (syncAcc who true) (syncAgent who) (linksAt s x.core x.asid va) k n 0
  ask (ask s key (4096 - key % 4096)) (key + 4095) (key % 4096)

/-- Have the requests for a frame left? -/
def frameGone (s : State) (who key : Nat) : Bool := reqGone s (syncAcc who true) key && reqGone s (syncAcc who true) (key + 4095)

/-- A frame is about to be written: its pseudo-channels are accessed, and nothing is waited for any more (07 R180, 15 R362). -/
def touchFrame (s : State) (a : Site) (key : Nat) : State :=
  touchAll (lampLeave (endAccess s (syncAcc (warpKey a.g a.w) true)) (fragWho a.g a.w (a.entry.getD 0))) (frameUnits key)

/-- Take a trap (14 R327): the warp's accesses are performed and landed, the frame is written and the handler state is
set up; or a double fault ends the workgroup. A frame waits for its translation by the host, for its pseudo-channels (07 R180) and for
its request to a peer (15 R362), and the whole for a table that has room for the warp's atomics (08 R224), for bank-lock spans (08
R233) and for the warp's requests to peers: until then the trap is due, and nothing of it has happened. A frame that does not
translate freezes the recorders (16 R380). -/
def takeTrap (s : State) (t : Trap) (a : Site) : Out :=
  match getWg s a.g, getWarp s a.g a.w with
  | some x, some p0 =>
    let who := warpKey a.g a.w
    let s := if t.cause = 2 then freeze s 3 else s
    if p0.bank.isSome then .next (clearIssuer (doubleFault s a.g a.w 3 t.word a.pc t.faddr))
    else
      let s := beginTrap s a p0
      let s := modCore s x.core (fun c => { c with spans := c.spans.filter (fun sp => sp.warp ≠ who) })
      let handler := ctxBits s x.asid 128 64
      if handler = 0 then .next (clearIssuer (doubleFault s a.g a.w 2 t.word a.pc t.faddr))
      else
        let fr := frameAddr s x a.w
        match xlateNow s x who fr .write with
        | (.fault cs _, s) => .next (clearIssuer (doubleFault (if cs = 2 then freeze s 3 else s) a.g a.w 1 t.word a.pc t.faddr))
        | (.miss, s) => .next (deferTrap s t a)
        | (.hole, _) => .fault .physicalHole
        | (.ok key _, s) =>
          if (List.range 64).any (fun i => poisonedAt s (key + 64 * i) 64) then
            .next (clearIssuer (doubleFault s a.g a.w 1 t.word a.pc t.faddr))
          else if lampHeld s (fragWho a.g a.w (a.entry.getD 0)) (frameUnits key) then
            .next (deferTrap (lampJoin s (fragWho a.g a.w (a.entry.getD 0)) (frameUnits key)) t a)
          else if !frameGone s who key then .next (deferTrap (askFrame s x who fr key) t a)
          else if !warpDrains s a.g a.w then .next (deferTrap s t a)
          else
            let s := drainWarp (modWarp s a.g a.w landFlights) a.g a.w
            match getWarp s a.g a.w with
            | none => .next s
            | some p =>
              let s := writeFrame (touchFrame s a key) x.core key (frameFields p t a)
              .next (clearIssuer (setWarp s a.g a.w (enterHandler p s.clock (BitVec.ofNat 64 handler) fr t a)))
  | _, _ => .next s

/-- The site of a trap taken at the boundary before an instruction or bundle: a fetch, a late fault, an engine fault or the
watchdog (14 R329). -/
def boundarySite (g w : Nat) (entry : Option Nat) (pc : Word64) (exec wmask planes : Lanes) (status : Nat) : Site :=
  ⟨g, w, entry, pc, pc, 0, 0, exec, wmask, planes, [], 0, 0, status, []⟩

/-! ### The return from a trap (14 R335) -/

/-- A number in the frame, read as a load of the warp. -/
def frameNat (s : State) (core g w key off n : Nat) : Nat := seenNat s core g w (key + off) n

/-- Registers of TRAP.RET's widths (14 R333). -/
def retRegs (width : Nat) : Nat := if width = 0 then 0 else 2 ^ (width - 1)

/-- MASK of the trapped fragment, all ones for a long-word thread (14 R335). -/
def trappedMask (x : Warp) : Lanes :=
  match x.bank.bind (·.entry) with
  | some e => ((mget x.frags e).map (·.mask)).getD 0
  | none => 0xFFFFFFFF

/-- End trap level 1 (14 R335): mode 0 .retry, 1 .next; the commit of RESULT under a mask. A bad register or address is a
double fault. -/
def returnTrap (s : State) (c : Ctx) (key mode width : Nat) (commit : Lanes) : State :=
  let rd (off n : Nat) : Nat := frameNat s c.wg.core c.g c.w key off n
  let t : Word64 := BitVec.ofNat 64 (rd (if mode = 0 then 0x008 else 0x010) 8)
  let info := rd 0x040 8
  let d := bits info 0 8
  let k := retRegs width
  match c.warp.bank with
  | none => s
  | some b =>
    let lwMode := b.entry.isNone
    let kmask := trappedMask c.warp
    let user : RegCtx := ⟨c.warp.alloc, false, c.wg.bound⟩
    if (width ≠ 0 && !vecOk user d k k) || t.toNat % (if lwMode then 128 else 8) ≠ 0 then
      doubleFault s c.g c.w 4 0 c.pc 0
    else
      let masks := rd 0x028 8
      let writes : List (Nat × Nat × Word32) := if width = 0 then [] else
        (lanesOf (commit &&& kmask)).flatMap (fun i =>
          (List.range k).map (fun j => (d + j, i, BitVec.ofNat 32 (rd (0x500 + 16 * i + 4 * j) 4))))
      let mvals := (List.range 15).map (fun j => (j + 1, BitVec.ofNat 32 (rd (0x080 + 4 * j) 4)))
      let s := modWarp s c.g c.w (fun x =>
        let x := { x with bank := none, wmask := BitVec.ofNat 32 (bits masks 32 32), sf := bits info 21 1 = 1,
                          fpstat := BitVec.ofNat 5 (bits info 16 5) }
        let x := mvals.foldl (fun x m => x.setMreg m.1 m.2) x
        match b.entry with
        | some e => { x with frags := mmod x.frags e (fun fr => { fr with pc := t, state := .ready, asked := false }) }
        | none => { x with lw := x.lw.map (fun l => { l with pc := t, slot := 0, flights := [], busy := [] }) })
      wakeWarp (vwrites s c.g c.w writes) c.g c.w

/-! ### Blocking (04 R96) -/

/-- Put the issuing fragment into BLOCKED. -/
def blockFrag (s : State) (g w e : Nat) (wt : Wait) : State :=
  modWarp s g w (fun x =>
    match x.bank with
    | some b => { x with bank := some { b with wait := some wt } }
    | none => { x with frags := mmod x.frags e (fun fr => { fr with state := .blocked wt, since := s.clock }) })

/-- Block the issuing fragment, and wake it at once when the wait is already over. -/
def waitOn (s : State) (g w e : Nat) (wt : Wait) : State := wakeWarp (blockFrag s g w e wt) g w

/-! ### The runner -/

/-- Bytes of a warp word with its extension (02 R24). -/
def wordBytes (f : WarpWord) : Word64 := if f.l then 16 else 8

/-- The site of a trap of a warp word (14 R329, R331). -/
def siteOf (s : State) (c : Ctx) (word : Word64) (op : Option Op) (f : WarpWord) (captured : Bool) : Site where
  g := c.g
  w := c.w
  entry := some c.e
  pc := c.pc
  npc := c.pc + wordBytes f
  word := word
  extw := f.ext
  exec := c.exec
  wmask := c.warp.mask
  planes := c.p
  ops := if captured then capture s c op f else []
  dst := f.dst.toNat
  bundle := 0
  status := 0
  waits := []

/-- Is an operation one that 14 R328 makes a double fault at trap level 1? -/
def barredAtTrap (op : Op) (f : WarpWord) : Bool :=
  match op with
  | .brx => true
  | .join => true
  | .exit => true
  | .modeLw => true
  | .spawn => true
  | .regGive => true
  | .regClaim => true
  | .barWait => true
  | .barSync => true
  | .ntfWait => true
  | .twWait => true
  | .licAcq => true
  | .recAlloc => modBits f 0 1 = 1
  | .anvMma => true
  | .gangSet => true
  | .banklock => true
  | _ => false

/-- Operations that end a bank-lock span before they issue (08 R232). -/
def endsSpan (s : State) (c : Ctx) (op : Op) (f : WarpWord) : Bool :=
  match op with
  | .barWait => true
  | .barSync => true
  | .tlwait => true
  | .ntfWait => true
  | .sleep => true
  | .yield => true
  | .modeLw => true
  | .licAcq => true
  | .anvMma => !holdsLic s c.g
  | .recAlloc => modBits f 0 1 = 1
  | .banklock => true
  | _ => false

/-- Do some registers of a fragment, vector and scalar, wait for loads, atomics or the limewash (04 R90, 07 R166)? -/
def regsPending (s : State) (c : Ctx) (vs ss : List Nat) : Bool :=
  let user (n : Nat) : Bool := !(c.warp.bank.isSome && 232 ≤ n)
  c.warp.washing ||
  s.loads.any (fun l => l.g = c.g && l.w = c.w && l.kind ≠ .lwld &&
    (l.vecs.any (fun v => vs.contains v.1) || (match l.scal with
      | some (n, _) => ss.contains n && n ≠ 0
      | none => false))) ||
  s.atoms.any (fun a => a.g = c.g && a.w = c.w && !a.done && (match a.dst with
    | some d => vs.contains d || (atomBytes a.type = 8 && vs.contains (d + 1))
    | none => false)) ||
  s.xpend.any (fun x => x.g = c.g && x.w = c.w && vs.contains (240 + x.key % 16)) ||
  (getLg s c.wg.core c.warp.lg).wash.any (fun h => h.1 = warpKey c.g c.w && vs.any (fun n => user n && n / 8 = h.2))

/-- Has a warp results under way to exchange registers, from loads and atomics too (11 R278)? -/
def exchanging (s : State) (g w : Nat) : Bool :=
  s.xpend.any (fun x => x.g = g && x.w = w) ||
  s.loads.any (fun l => l.g = g && l.w = w && l.vecs.any (fun v => 240 ≤ v.1)) ||
  s.atoms.any (fun a => a.g = g && a.w = w && !a.done && a.dst.any (fun d => 240 ≤ d))

/-- Has another warp of the workgroup with the same XLG a result under way to one of some exchange registers, which is to be written
before a write issued now (11 R278)? -/
def xBehind (s : State) (c : Ctx) (vs : List Nat) : Bool :=
  let beside (g w : Nat) : Bool := g = c.g && w ≠ c.w && (getWarp s g w).any (fun p => p.xlg = c.warp.xlg)
  let mine (n : Nat) : Bool := 240 ≤ n && vs.contains n
  s.xpend.any (fun x => beside x.g x.w && mine (240 + x.key % 16)) ||
  s.loads.any (fun l => beside l.g l.w && l.vecs.any (fun v => mine v.1)) ||
  s.atoms.any (fun a => beside a.g a.w && !a.done && a.dst.any (fun d => mine d || (atomBytes a.type = 8 && mine (d + 1))))

/-- Do an instruction's results in exchange registers wait: for the warp's own result still under way there, or for a warp beside it
(11 R278)? -/
def xWaits (s : State) (c : Ctx) (vs : List Nat) : Bool :=
  s.xpend.any (fun x => x.g = c.g && x.w = c.w && vs.contains (240 + x.key % 16)) || xBehind s c vs

/-- Do the registers of an instruction wait: what it reads or writes, and what a trap of it captures (04 R90, 07 R166, 14 R331)? -/
def interlocked (s : State) (c : Ctx) (op : Op) (f : WarpWord) : Bool :=
  regsPending s c (readVecs op f ++ writeVecs op f) (usedSregs op f) || xBehind s c (writeVecs op f)

/-- Loads and atomics with a return that a warp has in flight (14 R336). -/
def inFlight (s : State) (g w : Nat) : Nat :=
  (s.loads.filter (fun l => l.g = g && l.w = w)).length +
    (nub ((s.atoms.filter (fun a => a.g = g && a.w = w && !a.done)).filterMap (·.dst))).length

/-- Does an operation put a load or an atomic with a return in flight? -/
def takesFlight (op : Op) : Bool :=
  match op with
  | .ld => true
  | .sld => true
  | .atom => true
  | .atomCas => true
  | _ => false

/-- What an instruction reads of the vector registers: the lane in which it reads, the register, the register's lane (14 R337). -/
def laneReads (s : State) (c : Ctx) (op : Op) (f : WarpWord) : List (Nat × Nat × Nat) :=
  let own (ls : List Nat) : List (Nat × Nat × Nat) := ls.flatMap (fun i => (readVecs op f).map (fun n => (i, n, i)))
  match op with
  | .shfl =>
    let rev := modBits f 0 2 = 3
    let sel (i : Nat) : Word32 := if rev then 0 else (opB s c .shfl f 1 i).setWidth 32
    (lanesOf c.p).flatMap (fun i =>
      (i, f.a.toNat, shflLane (shflWidth f) (modBits f 0 2) (modBits f 5 1 = 1) i (sel i)) ::
        (if rev || immBit f || f.mod.getLsbD 13 then [] else [(i, f.b.toNat, i)]))
  | .bcast =>
    let j := if modBits f 0 1 = 1 then (lowest c.p).getD 0 else (sB c .bcast f).toNat % 32
    (lanesOf c.p).map (fun i => (i, f.a.toNat, j))
  | .v2s =>
    let first := f.mod.getLsbD 1
    if first && c.exec = 0 then [] else own [if first then (lowest c.exec).getD 0 else (sB c .v2s f).toNat % 32]
  | .ret => own (lanesOf c.frag)
  | .spawn => if c.p = 0 then [] else own (List.range 32)
  | .setsr => if f.a.toNat = 0x17 then own (lanesOf c.p) else own (lowest c.p).toList
  | _ => own (lanesOf c.p)

/-- Lanes in which an instruction reads a poisoned register (14 R337, R338); the banked registers of trap level 1 are none. -/
def poisonedReads (s : State) (c : Ctx) (op : Op) (f : WarpWord) : Lanes :=
  let bad (q : Nat × Nat × Nat) : Bool :=
    q.2.1 < 240 && !(c.warp.bank.isSome && 232 ≤ q.2.1) && c.warp.poisoned.contains (32 * q.2.1 + q.2.2)
  if c.warp.poisoned.isEmpty then 0 else maskOf (((laneReads s c op f).filter bad).map (·.1))

/-- Count the instruction in the span of its warp (08 R232). -/
def countSpan (s : State) (c : Ctx) (op : Op) (f : WarpWord) : State :=
  let k := warpKey c.g c.w
  if op = .banklock then s
  else if (getCore s c.wg.core).spans.all (fun sp => sp.warp ≠ k) then s
  else
    let next (l : List Span) : List Span :=
      if endsSpan s c op f then l.filter (fun sp => sp.warp ≠ k)
      else (l.map (fun sp => if sp.warp = k then { sp with left := sp.left - 1 } else sp)).filter
        (fun sp => !(sp.warp = k && sp.left = 0))
    modCore s c.wg.core (fun x => { x with spans := next x.spans })

/-- The state of the issuing fragment moved past its instruction (04 R96, R101). -/
def advance (s : State) (c : Ctx) (f : WarpWord) : State := setPc s c.g c.w c.e (c.pc + wordBytes f)

/-- Run an instruction of the warp word (02 R33, 14 R325): the interlocks, breakpoint, OPERAND, the double faults of trap level 1,
then its effect on the state before it (s) and on the state with the fragment moved past it. -/
def runWord (op : Op) (f : WarpWord) (s : State) (eff : Ctx → State → State → Res) : Out :=
  match s.issuer with
  | none => .fault .noIssuer
  | some i =>
  match ctxOf s i f.guard with
  | none => .fault .noIssuer
  | some c =>
    let site := siteOf s c (encodeWord op f) (some op) f true
    if interlocked s c op f then .next s
    else if f.d && s.obs.dbgen && c.warp.bank.isNone then takeTrap s { cause := 8, sub := 1 } site
    else if !legal c.regCtx op f then takeTrap s trapOperand site
    else if c.warp.bank.isSome && barredAtTrap op f then
      .next (clearIssuer (doubleFault s c.g c.w 3 trapOperand.word c.pc 0))
    else if takesFlight op && Config.maxLoads ≤ inFlight s c.g c.w then .next s
    else
      match eff c s (countSpan (advance s c f) c op f) with
      | .hold h => .next h
      | .trap t => takeTrap s t site
      | .trapOn h t => takeTrap h t site
      | .stop r => .fault r
      | .done t =>
        let bad := poisonedReads s c op f
        if bad = 0 then .next (clearIssuer t) else takeTrap s { cause := 0x0B, sub := 4, flanes := some bad } site

end Sys2Proof.Machine
end

