-- ==== Sys2Proof/Machine/Control.lean ====
section
/-!
DEFINITION. The control instructions (04 R101 to R107), SLEEP_EXPIRY, and the special registers (04 R114).
-/

namespace Sys2Proof.Machine

/-- MISALIGN for a target address (14 R323, R329). -/
def trapTarget (t : Word64) : Trap := { cause := 5, space := 0, faddr := t }

/-- Is an instruction address misaligned (02 R22)? -/
def badPc (t : Word64) : Bool := t.toNat % 8 ≠ 0

/-- A displacement of the extension word, sign-extended (02 R27). -/
def disp (f : WarpWord) (lo : Nat) : Word64 := sext64 (extBits f lo 32) 32

/-- The target of BRA and CALL (04 R102, R105). -/
def branchTarget (c : Ctx) (f : WarpWord) : Word64 :=
  (if modBits f 0 1 = 1 then sA c f else c.pc) + disp f 0

/-- NOP (04 R101). -/
def execNop (f : WarpWord) (s : State) : Out := runWord .nop f s (fun _ _ t => .done t)

/-- BRA (04 R102). -/
def execBra (f : WarpWord) (s : State) : Out :=
  runWord .bra f s (fun c _ t =>
    if f.guard = 0 ∨ c.p ≠ 0 then
      let tgt := branchTarget c f
      if badPc tgt then .trap (trapTarget tgt) else .done (setPc t c.g c.w c.e tgt)
    else .done t)

/-- Lanes that take a BRX (04 R103). -/
def brxTaken (s : State) (c : Ctx) (f : WarpWord) : Lanes :=
  maskOf ((lanesOf c.p).filter (fun i => modBits f 0 1 = 0 || vread s c.g c.w f.a.toNat i ≠ 0))

/-- Split a fragment: its lanes T go to an address in a new entry, both parts with the given RCA and DEPTH (04 R94). -/
def splitFrag (x : Warp) (e : Nat) (T : Lanes) (tgt rca : Word64) (depth age : Nat) : Warp :=
  match mget x.frags e with
  | none => x
  | some fr =>
    let n := freeEntry x.frags
    let stay := { fr with mask := fr.mask &&& ~~~T, rca := rca, depth := depth }
    let go := { fr with mask := T, pc := tgt, rca := rca, depth := depth, age := age }
    { x with frags := mset (mset x.frags e stay) n go }

/-- BRX (04 R94, R103). -/
def execBrx (f : WarpWord) (s : State) : Out :=
  runWord .brx f s (fun c s0 t =>
    match mget c.warp.frags c.e with
    | none => .done t
    | some fr =>
      let tgt := c.pc + disp f 0
      let J := c.pc + disp f 32
      let T := brxTaken s0 c f
      let N := fr.mask &&& ~~~T
      let split := T ≠ 0 && N ≠ 0
      if split && fr.rca ≠ J && fr.depth = 31 then .trap trapOperand
      else if badPc tgt then .trap (trapTarget tgt)
      else if badPc J || J = 0 then .trap (trapTarget J)
      else if T = 0 then .done t
      else if N = 0 then .done (setPc t c.g c.w c.e tgt)
      else if fr.rca = J then
        .done (refuse (modWarp t c.g c.w (fun x => splitFrag x c.e T tgt J fr.depth 0)) c.g c.w)
      else
        .done (refuse (modWarp t c.g c.w (fun x =>
          splitFrag (x.setSreg f.dst.toNat fr.rca) c.e T tgt J (fr.depth + 1) 0)) c.g c.w))

/-- JOIN (04 R95, R104): a fragment whose RCA is the JOIN's address waits there; its entry's PC is the address of its next
instruction, X + 8 (04 R92). -/
def execJoin (f : WarpWord) (s : State) : Out :=
  runWord .join f s (fun c _ t =>
    match mget c.warp.frags c.e with
    | none => .done t
    | some fr =>
      if fr.rca = c.pc then
        .done (refuse (modWarp t c.g c.w (fun x =>
          { x with frags := mset x.frags c.e { fr with pc := c.pc + 8, state := .joinWait f.a.toNat, age := 0 } })) c.g c.w)
      else .done t)

/-- CALL (04 R105). -/
def execCall (f : WarpWord) (s : State) : Out :=
  runWord .call f s (fun c _ t =>
    let tgt := branchTarget c f
    if badPc tgt then .trap (trapTarget tgt)
    else
      let t := vwrites t c.g c.w ((lanesOf c.frag).flatMap (fun i => regWrites f.dst.toNat i 2 (c.pc + 16)))
      .done (setPc t c.g c.w c.e tgt))

/-- Give each group of lanes with one return address its own fragment; the first group stays (04 R105). -/
def splitReturns (x : Warp) (e : Nat) : List (Word64 × Lanes) → Warp
  | [] => x
  | (tgt, m) :: rest =>
    match mget x.frags e with
    | none => x
    | some fr =>
      splitReturns (splitFrag x e (fr.mask &&& m) tgt fr.rca fr.depth fr.age) e rest

/-- RET (04 R105). The lanes of the lowest lane's address stay; the other groups take the lowest FREE entries in the order of their
lowest lanes: DESIGN CHOICE, log 51. -/
def execRet (f : WarpWord) (s : State) : Out :=
  runWord .ret f s (fun c s0 t =>
    let adr (i : Nat) : Word64 := vread64 s0 c.g c.w f.a.toNat i 2
    let ls := lanesOf c.frag
    match ls.filter (fun i => badPc (adr i)) with
    | b :: bs => .trap { cause := 5, space := 0, flanes := some (maskOf (b :: bs)), faddr := adr b }
    | [] =>
      match nub (ls.map adr) with
      | [] => .done t
      | first :: others =>
        if others.isEmpty then .done (setPc t c.g c.w c.e first)
        else if c.warp.bank.isSome then .trap trapOperand
        else
          let t := setPc t c.g c.w c.e first
          .done (refuse (modWarp t c.g c.w (fun x => splitReturns x c.e
            (others.map (fun a => (a, maskOf (ls.filter (fun i => adr i = a))))))) c.g c.w))

/-- EXIT (04 R106). -/
def execExit (f : WarpWord) (s : State) : Out :=
  runWord .exit f s (fun c s0 t =>
    match mget c.warp.frags c.e with
    | none => .done t
    | some fr =>
      let left := fr.mask &&& ~~~guardMask c.warp f.guard
      if left = 0 then
        let t := modWarp t c.g c.w (fun x => { x with frags := mdel x.frags c.e })
        if (c.warp.frags.filter (fun q => q.1 ≠ c.e)).isEmpty then
          -- the results of its last loads to exchange registers stand (11 R279); its withdrawals are barrier operations (08 R228)
          if exchanging s0 c.g c.w || (enrolled s0 c.g c.w && !barTurn s0 c.g c.w) then .hold s0 else .done (endWarp t c.g c.w)
        else .done (refuse t c.g c.w)
      else
        .done (refuse (modWarp t c.g c.w (fun x =>
          { x with frags := mmod x.frags c.e (fun q => { q with mask := left }) })) c.g c.w))

/-- A fragment is not eligible in the next issue slot (04 R107). -/
def yieldFrag (s : State) (c : Ctx) : State :=
  modLg s c.wg.core c.warp.lg (fun l => { l with yielded := some (warpKey c.g c.w, c.e) })

/-- YIELD (04 R107). -/
def execYield (f : WarpWord) (s : State) : Out := runWord .yield f s (fun c _ t => .done (yieldFrag t c))

/-- Cycles of a SLEEP, clamped (04 R107). -/
def sleepCycles (c : Ctx) (f : WarpWord) : Nat := min (sB c .sleep f).toNat 1048575

/-- SLEEP (04 R107). -/
def execSleep (f : WarpWord) (s : State) : Out :=
  runWord .sleep f s (fun c _ t =>
    let n := sleepCycles c f
    if n = 0 then .done (yieldFrag t c) else .done (blockFrag t c.g c.w c.e (.sleep (s.clock + n))))

/-- Make a fragment READY: the banked one at trap level 1 (04 R96). -/
def readyFrag (x : Warp) (e : Nat) : Warp :=
  match x.bank with
  | some b => { x with bank := some { b with wait := none } }
  | none => { x with frags := mmod x.frags e (fun fr => { fr with state := .ready }) }

/-- What a fragment waits for: the banked one at trap level 1; none may end its wait while a trap of the warp is due (14 R327). -/
def waitOf (x : Warp) (e : Nat) : Option Wait :=
  if x.due.isSome then none
  else match x.bank with
  | some b => b.wait
  | none => match mget x.frags e with
    | some fr => (match fr.state with
        | .blocked w => some w
        | _ => none)
    | none => none

/-- SLEEP_EXPIRY: a sleep whose cycles have passed ends, in a warp that is not held (04 R96, R107). -/
def execSleepExpiry (g w e : Nat) (s : State) : Out :=
  match getWarp s g w with
  | none => .next s
  | some x =>
    match waitOf x e with
    | some (.sleep wake) =>
      if wake ≤ s.clock ∧ !heldWarp s g w then .next (setWarp s g w (readyFrag x e)) else .next s
    | _ => .next s

/-! ### Special registers (04 R114) -/

/-- The value that GETSR reads in a lane. -/
def srValue (s : State) (c : Ctx) (code i : Nat) : Word64 :=
  let n (k : Nat) : Word64 := BitVec.ofNat 64 k
  match code with
  | 0x00 => n i
  | 0x01 => n c.w
  | 0x02 => n c.wg.wgid
  | 0x03 => n c.wg.core
  | 0x04 => n (clusterOf c.wg.core)
  | 0x05 => n (sideOf c.wg.core)
  | 0x06 => n c.warp.role
  | 0x07 => c.exec.setWidth 64
  | 0x08 => c.warp.mask.setWidth 64
  | 0x09 => c.frag.setWidth 64
  | 0x0C => n c.wg.phase
  | 0x0D => n ((getLg s c.wg.core c.warp.lg).plevel + (if inNear s c.wg.core c.warp.lg then 4 else 0))
  | 0x0E => n s.clock
  | 0x0F => n (2 ^ 24 * pairOf c.wg.core)
  | 0x10 => n (4096 * c.wg.padBase)
  | 0x11 => n c.wg.padSize
  | 0x12 => n (c.wg.rnum * 1024 + c.wg.node)
  | 0x13 => n c.wg.batch.length
  | 0x14 => n c.wg.depth
  | 0x15 => n (if c.warp.bank.isSome then 1 else 0)
  | 0x16 => c.warp.fpstat.setWidth 64
  | 0x17 => (c.warp.seed i).setWidth 64
  | _ => 0

/-- GETSR (04 R114). -/
def execGetsr (f : WarpWord) (s : State) : Out :=
  runWord .getsr f s (fun c s0 t =>
    let code := f.a.toNat
    if modBits f 0 1 = 1 then .done (swrite t c.g c.w f.dst.toNat (srValue s0 c code 0))
    else .done (vwrites t c.g c.w ((lanesOf c.p).flatMap (fun i =>
      regWrites f.dst.toNat i (if code = 0x0E then 2 else 1) (srValue s0 c code i)))))

/-- A SEED that SETSR writes (03 R75). -/
def seedValue (v : Word32) : Word32 := if v = 0 then 1 else v

/-- WMASK as MSK.WSET sets it: only the issuing fragment's bits change (04 R109). -/
def wsetMask (c : Ctx) (v : Lanes) : Lanes := (c.warp.mask &&& ~~~c.frag) ||| (v &&& c.frag)

/-- SETSR (04 R114). -/
def execSetsr (f : WarpWord) (s : State) : Out :=
  runWord .setsr f s (fun c s0 t =>
    match lowest c.p with
    | none => .done t
    | some low =>
      let v (i : Nat) : Word32 := (opB s0 c .setsr f 1 i).setWidth 32
      match f.a.toNat with
      | 0x08 => .done (modWarp t c.g c.w (fun x => x.setMask (wsetMask c (v low))))
      | 0x16 => .done (modWarp t c.g c.w (fun x => { x with fpstat := (v low).setWidth 5 }))
      | _ => .done (modWarp t c.g c.w (fun x => (lanesOf c.p).foldl (fun x i => x.setSeed i (seedValue (v i))) x)))

end Sys2Proof.Machine
end

