-- ==== Sys2Proof/Machine/Mask.lean ====
section
/-!
DEFINITION. The mask and cross-lane instructions (04 R108 to R113).
-/

namespace Sys2Proof.Machine

/-- Write bits of a mask register in the lanes of P; the other bits stay (05 R122). -/
def maskBits (old p : Lanes) (t : Nat → Bool) : Lanes :=
  (old &&& ~~~p) ||| maskOf ((lanesOf p).filter t)

/-- The low 32 bits of operand a in a lane. -/
def a32 (s : State) (c : Ctx) (f : WarpWord) (i : Nat) : Word32 := (opA s c f 1 i).setWidth 32

/-- BALLOT (04 R108). -/
def execBallot (f : WarpWord) (s : State) : Out :=
  runWord .ballot f s (fun c s0 t =>
    .done (mwrite t c.g c.w f.dst.toNat (maskOf ((lanesOf c.p).filter (fun i => a32 s0 c f i ≠ 0)))))

/-- The verdict of VOTE (04 R108). -/
def voteValue (kind : Nat) (vs : List Word32) : Bool :=
  let k := (vs.filter (· ≠ 0)).length
  match kind with
  | 0 => 0 < k
  | 1 => k = vs.length
  | 2 => match vs with
    | [] => true
    | v :: rest => rest.all (· = v)
  | _ => vs.length < 2 * k

/-- VOTE (04 R108). -/
def execVote (f : WarpWord) (s : State) : Out :=
  runWord .vote f s (fun c s0 t =>
    let verdict := voteValue (modBits f 0 2) ((lanesOf c.p).map (a32 s0 c f))
    .done (mwrite t c.g c.w f.dst.toNat (maskBits (c.warp.mreg f.dst.toNat) c.p (fun _ => verdict))))

/-- LEADER (04 R108). -/
def execLeader (f : WarpWord) (s : State) : Out :=
  runWord .leader f s (fun c _ t =>
    .done (mwrite t c.g c.w f.dst.toNat (match lowest c.p with
      | some i => laneBit i
      | none => 0)))

/-- The value of MSK.OP (04 R109). -/
def mskValue (op : Nat) (a b : Lanes) : Lanes :=
  match op with
  | 0 => a &&& b
  | 1 => a ||| b
  | 2 => a ^^^ b
  | 3 => a &&& ~~~b
  | _ => a

/-- MSK.OP (04 R109). -/
def execMskOp (f : WarpWord) (s : State) : Out :=
  runWord .mskOp f s (fun c _ t =>
    .done (mwrite t c.g c.w f.dst.toNat (mskValue (modBits f 0 3) (c.warp.mreg f.a.toNat) (c.warp.mreg f.b.toNat))))

/-- MSK.SAVE (04 R109). -/
def execMskSave (f : WarpWord) (s : State) : Out :=
  runWord .mskSave f s (fun c _ t =>
    .done (mwrite t c.g c.w f.dst.toNat (match modBits f 0 2 with
      | 0 => c.exec
      | 1 => c.warp.mask
      | _ => c.frag)))

/-- MSK.WSET (04 R109). -/
def execMskWset (f : WarpWord) (s : State) : Out :=
  runWord .mskWset f s (fun c _ t =>
    let m := c.warp.mreg f.a.toNat
    let v := if modBits f 0 1 = 1 then c.warp.mask &&& m else m
    .done (modWarp t c.g c.w (fun x => x.setMask (wsetMask c v))))

/-- POPC.M (04 R110). -/
def execPopcM (f : WarpWord) (s : State) : Out :=
  runWord .popcM f s (fun c _ t =>
    .done (swrite t c.g c.w f.dst.toNat (BitVec.ofNat 64 (lanesOf (c.warp.mreg f.a.toNat)).length)))

/-- FIRST.M (04 R110). -/
def execFirstM (f : WarpWord) (s : State) : Out :=
  runWord .firstM f s (fun c _ t =>
    .done (swrite t c.g c.w f.dst.toNat (BitVec.ofNat 64 ((lowest (c.warp.mreg f.a.toNat)).getD 32))))

/-- SHFL (04 R111). -/
def execShfl (f : WarpWord) (s : State) : Out :=
  runWord .shfl f s (fun c s0 t =>
    .done (vwrites t c.g c.w ((lanesOf c.p).map (fun i =>
      let b : Word32 := if modBits f 0 2 = 3 then 0 else (opB s0 c .shfl f 1 i).setWidth 32
      (f.dst.toNat, i, vread s0 c.g c.w f.a.toNat (shflLane (shflWidth f) (modBits f 0 2) (modBits f 5 1 = 1) i b))))))

/-- BCAST (04 R112). -/
def execBcast (f : WarpWord) (s : State) : Out :=
  runWord .bcast f s (fun c s0 t =>
    let j := if modBits f 0 1 = 1 then (lowest c.p).getD 0 else (sB c .bcast f).toNat % 32
    let v := vread s0 c.g c.w f.a.toNat j
    .done (vwrites t c.g c.w ((lanesOf c.p).map (fun i => (f.dst.toNat, i, v)))))

/-- Identity of a scan (04 R113). -/
def scanIdentity (op ty : Nat) : Word32 :=
  match op with
  | 1 => if ty = 8 then 0x7F800000 else if ty = 1 then 0x7FFFFFFF else 0xFFFFFFFF
  | 2 => if ty = 8 then 0xFF800000 else if ty = 1 then 0x80000000 else 0
  | 3 => 0xFFFFFFFF
  | _ => 0

/-- One combination of a scan, with its flags (04 R113). -/
def scanCombine (op ty : Nat) (x y : Word32) : Word32 × BitVec 5 :=
  let less : Bool := if ty = 1 then x.slt y else x.ult y
  match op with
  | 0 =>
    if ty = 8 then
      let r := fArith .add f32 0 false 0 x.toNat y.toNat 0
      (BitVec.ofNat 32 r.code, r.fl)
    else (x + y, 0)
  | 1 =>
    if ty = 8 then
      let r := fMinMax false f32 false x.toNat y.toNat
      (BitVec.ofNat 32 r.1, r.2)
    else (if less then x else y, 0)
  | 2 =>
    if ty = 8 then
      let r := fMinMax true f32 false x.toNat y.toNat
      (BitVec.ofNat 32 r.1, r.2)
    else (if less then y else x, 0)
  | 3 => (x &&& y, 0)
  | 4 => (x ||| y, 0)
  | _ => (x ^^^ y, 0)

/-- The exclusive and inclusive results of a scan in ascending lane order, the last value, and the flags (04 R113). -/
def scanRun (op ty : Nat) (vs : List (Nat × Word32)) : List (Nat × Word32 × Word32) × Word32 × BitVec 5 :=
  vs.foldl (fun acc v =>
    let r := scanCombine op ty acc.2.1 v.2
    (acc.1 ++ [(v.1, acc.2.1, r.1)], r.1, acc.2.2 ||| r.2)) ([], scanIdentity op ty, 0)

/-- LSCAN (04 R113). -/
def execLscan (f : WarpWord) (s : State) : Out :=
  runWord .lscan f s (fun c s0 t =>
    let r := scanRun (modBits f 6 3) (typeCode f) ((lanesOf c.p).map (fun i => (i, vread s0 c.g c.w f.a.toNat i)))
    let excl := modBits f 9 1 = 1
    .done (raiseFlags (vwrites t c.g c.w (r.1.map (fun x => (f.dst.toNat, x.1, if excl then x.2.1 else x.2.2))))
      c.g c.w r.2.2))

/-- LRED (04 R113). -/
def execLred (f : WarpWord) (s : State) : Out :=
  runWord .lred f s (fun c s0 t =>
    let r := scanRun (modBits f 6 3) (typeCode f) ((lanesOf c.p).map (fun i => (i, vread s0 c.g c.w f.a.toNat i)))
    .done (raiseFlags (vwrites t c.g c.w ((lanesOf c.p).map (fun i => (f.dst.toNat, i, r.2.1)))) c.g c.w r.2.2))

end Sys2Proof.Machine
end

