-- ==== Sys2Proof/Machine/IntVec.lean ====
section
/-!
DEFINITION. The integer-vector class (05 R117 to R123). Each operation is a function of the lane's operand values, which
the lane slots of long-word mode use too.
-/

namespace Sys2Proof.Machine

/-- A source read by an integer type (03 R58, R59). -/
def intOf (t : Nat) (v : Word64) : Int :=
  let w := typeBits t
  let n := v.toNat % 2 ^ w
  if t % 2 = 1 ∧ 2 ^ (w - 1) ≤ n then (n : Int) - (2 ^ w : Nat) else n

/-- "Wrap or sat" (05 R119), as the register holds it (03 R58). -/
def intRes (t : Nat) (sat : Bool) (r : Int) : Word64 :=
  convOutInt t (if sat then clampInt (t % 2 = 1) (typeBits t) r else r)

/-- IADD. -/
def iaddVal (t : Nat) (sat : Bool) (a b : Word64) : Word64 := intRes t sat (intOf t a + intOf t b)
/-- ISUB. -/
def isubVal (t : Nat) (sat : Bool) (a b : Word64) : Word64 := intRes t sat (intOf t a - intOf t b)
/-- IMUL. -/
def imulVal (t : Nat) (sat : Bool) (a b : Word64) : Word64 := intRes t sat (intOf t a * intOf t b)
/-- IMULH. -/
def imulhVal (t : Nat) (a b : Word64) : Word64 := intRes t false (intOf t a * intOf t b / (2 ^ typeBits t : Nat))
/-- IMAD. -/
def imadVal (t : Nat) (sat : Bool) (a b c : Word64) : Word64 := intRes t sat (intOf t a * intOf t b + intOf t c)
/-- IMIN. -/
def iminVal (t : Nat) (a b : Word64) : Word64 :=
  intRes t false (if intOf t a ≤ intOf t b then intOf t a else intOf t b)
/-- IMAX. -/
def imaxVal (t : Nat) (a b : Word64) : Word64 :=
  intRes t false (if intOf t a ≤ intOf t b then intOf t b else intOf t a)
/-- IABSD. -/
def iabsdVal (t : Nat) (sat : Bool) (a b : Word64) : Word64 := intRes t sat ((intOf t a - intOf t b).natAbs : Int)

/-- A shift count (05 R119). -/
def shiftCount (clamp : Bool) (w : Nat) (b : Word32) : Nat := if clamp then min b.toNat w else b.toNat % w
/-- ISHL of width w. -/
def ishlVal (w : Nat) (clamp : Bool) (a : Word64) (b : Word32) : Word64 :=
  BitVec.ofNat 64 (a.toNat % 2 ^ w * 2 ^ shiftCount clamp w b % 2 ^ w)
/-- ISHR of width w. -/
def ishrVal (w : Nat) (clamp : Bool) (a : Word64) (b : Word32) : Word64 :=
  BitVec.ofNat 64 (a.toNat % 2 ^ w / 2 ^ shiftCount clamp w b)
/-- ISHRA of a signed type. -/
def ishraVal (t : Nat) (clamp : Bool) (a : Word64) (b : Word32) : Word64 :=
  intRes t false (intOf t a / (2 ^ shiftCount clamp (typeBits t) b : Nat))
/-- FSHF. -/
def fshfVal (left clamp : Bool) (a b c : Word32) : Word64 :=
  let cat := c.toNat * 2 ^ 32 + a.toNat
  let n := shiftCount clamp 32 b
  BitVec.ofNat 64 (if left then cat * 2 ^ n % 2 ^ 64 / 2 ^ 32 else cat / 2 ^ n % 2 ^ 32)
/-- BOOL3 with truth table T. -/
def bool3Val (T : Nat) (a b c : Word64) : Word64 :=
  BitVec.ofNat 64 ((List.range 64).foldl (fun n i =>
    if T.testBit ((a.getLsbD i).toNat + 2 * (b.getLsbD i).toNat + 4 * (c.getLsbD i).toNat) then n + 2 ^ i else n) 0)

/-- Position and length of a bit field of width w (05 R119). -/
def fieldPos (w : Nat) (b : Word32) : Nat × Nat :=
  let lg := if w = 64 then 6 else 5
  let p := b.toNat % w
  (p, min (bits b.toNat lg lg) (w - p))
/-- BFX. -/
def bfxVal (t : Nat) (a : Word64) (b : Word32) : Word64 :=
  let w := typeBits t
  let (p, l) := fieldPos w b
  if l = 0 then 0
  else
    let n := bits a.toNat p l
    intRes t false (if t % 2 = 1 ∧ n.testBit (l - 1) then (n : Int) - (2 ^ l : Nat) else n)
/-- BFI of width w. -/
def bfiVal (w : Nat) (a : Word64) (b : Word32) (c : Word64) : Word64 :=
  let (p, l) := fieldPos w b
  let cv := c.toNat % 2 ^ w
  BitVec.ofNat 64 (cv - bits cv p l * 2 ^ p + a.toNat % 2 ^ l * 2 ^ p)
/-- CLZ of width w. -/
def clzVal (w : Nat) (a : Word64) : Word64 :=
  let n := a.toNat % 2 ^ w
  BitVec.ofNat 64 (if n = 0 then w else w - 1 - n.log2)
/-- POPC of width w. -/
def popcVal (w : Nat) (a : Word64) : Word64 := BitVec.ofNat 64 (popcount w a.toNat)
/-- BREV of width w. -/
def brevVal (w : Nat) (a : Word64) : Word64 :=
  BitVec.ofNat 64 ((List.range w).foldl (fun n i => if a.getLsbD (w - 1 - i) then n + 2 ^ i else n) 0)
/-- IDP4 (05 R120). -/
def idp4Val (sat sa sb : Bool) (a b c : Word64) : Word64 :=
  let e (sg : Bool) (v : Word64) (i : Nat) : Int := intOf (if sg then 7 else 6) (v >>> (8 * i))
  let sum := (List.range 4).foldl (fun (r : Int) i => r + e sa a i * e sb b i) (intOf 1 c)
  intRes 1 sat sum
/-- One byte of BYSEL (05 R123). -/
def byselByte (src : Nat) (fld : Nat) : Nat :=
  let e := bits src (8 * (fld % 8)) 8
  let y := match bits fld 3 2 with
    | 0 => e
    | 1 => 0
    | 2 => 0xFF
    | _ => if 128 ≤ e then 0xFF else 0
  if fld.testBit 5 then (brevVal 8 (BitVec.ofNat 64 y)).toNat else y
/-- BYSEL (05 R123). -/
def byselVal (a b c : Word32) : Word64 :=
  let src := a.toNat + c.toNat * 2 ^ 32
  BitVec.ofNat 64 ((List.range 4).foldl (fun n i => n + byselByte src (bits b.toNat (6 * i) 6) * 2 ^ (8 * i)) 0)

/-! ### The instructions -/

/-- Width of an instruction's type. -/
def tw (f : WarpWord) : Nat := typeBits (typeCode f)
/-- Registers of an instruction's type. -/
def tn (f : WarpWord) : Nat := typeRegs (typeCode f)
/-- .sat, mod[4]. -/
def satBit (f : WarpWord) : Bool := f.mod.getLsbD 4

/-- Write a value of k registers into dst in every lane of P (05 R117). -/
def vecWrite (t : State) (c : Ctx) (f : WarpWord) (k : Nat) (val : Nat → Word64) : State :=
  vwrites t c.g c.w ((lanesOf c.p).flatMap (fun i => regWrites f.dst.toNat i k (val i)))

/-- An integer-vector instruction whose destination has k registers. -/
def runInt (op : Op) (f : WarpWord) (s : State) (k : Nat) (val : Ctx → State → Nat → Word64) : Out :=
  runWord op f s (fun c s0 t => .done (vecWrite t c f k (val c s0)))

/-- Operand b read as 32 bits (05 R118). -/
def b32 (s : State) (c : Ctx) (op : Op) (f : WarpWord) (i : Nat) : Word32 := (opB s c op f 1 i).setWidth 32
/-- Operand c read as 32 bits. -/
def c32 (s : State) (c : Ctx) (f : WarpWord) (i : Nat) : Word32 := (opC s c f 1 i).setWidth 32

/-- A two-source operation of the type. -/
def runInt2 (op : Op) (f : WarpWord) (s : State) (val : Word64 → Word64 → Word64) : Out :=
  runInt op f s (tn f) (fun c s0 i => val (opA s0 c f (tn f) i) (opB s0 c op f (tn f) i))

/-- IADD (05 R119). -/
def execIadd (f : WarpWord) (s : State) : Out := runInt2 .iadd f s (iaddVal (typeCode f) (satBit f))
/-- ISUB (05 R119). -/
def execIsub (f : WarpWord) (s : State) : Out := runInt2 .isub f s (isubVal (typeCode f) (satBit f))
/-- IMUL (05 R119). -/
def execImul (f : WarpWord) (s : State) : Out := runInt2 .imul f s (imulVal (typeCode f) (satBit f))
/-- IMULH (05 R119). -/
def execImulh (f : WarpWord) (s : State) : Out := runInt2 .imulh f s (imulhVal (typeCode f))
/-- IMIN (05 R119). -/
def execImin (f : WarpWord) (s : State) : Out := runInt2 .imin f s (iminVal (typeCode f))
/-- IMAX (05 R119). -/
def execImax (f : WarpWord) (s : State) : Out := runInt2 .imax f s (imaxVal (typeCode f))
/-- IABSD (05 R119). -/
def execIabsd (f : WarpWord) (s : State) : Out := runInt2 .iabsd f s (iabsdVal (typeCode f) (satBit f))
/-- IMAD (05 R119). -/
def execImad (f : WarpWord) (s : State) : Out :=
  runInt .imad f s (tn f) (fun c s0 i =>
    imadVal (typeCode f) (satBit f) (opA s0 c f (tn f) i) (opB s0 c .imad f (tn f) i) (opC s0 c f (tn f) i))

/-- IADDC (05 R121): the carry chain of a mask register. -/
def execIaddc (f : WarpWord) (s : State) : Out :=
  runWord .iaddc f s (fun c s0 t =>
    let m := c.warp.mreg f.c.toNat
    let sum (i : Nat) : Word32 × Bool :=
      let b := b32 s0 c .iaddc f i
      addCarry (a32 s0 c f i) (if modBits f 5 1 = 1 then ~~~b else b) (m.getLsbD i)
    let t := vecWrite t c f 1 (fun i => (sum i).1.setWidth 64)
    .done (mwrite t c.g c.w f.c.toNat (maskBits m c.p (fun i => (sum i).2))))

/-- ISHL (05 R119). -/
def execIshl (f : WarpWord) (s : State) : Out :=
  runInt .ishl f s (tn f) (fun c s0 i => ishlVal (tw f) (f.mod.getLsbD 5) (opA s0 c f (tn f) i) (b32 s0 c .ishl f i))
/-- ISHR (05 R119). -/
def execIshr (f : WarpWord) (s : State) : Out :=
  runInt .ishr f s (tn f) (fun c s0 i => ishrVal (tw f) (f.mod.getLsbD 5) (opA s0 c f (tn f) i) (b32 s0 c .ishr f i))
/-- ISHRA (05 R119). -/
def execIshra (f : WarpWord) (s : State) : Out :=
  runInt .ishra f s (tn f) (fun c s0 i =>
    ishraVal (typeCode f) (f.mod.getLsbD 5) (opA s0 c f (tn f) i) (b32 s0 c .ishra f i))
/-- FSHF (05 R119). -/
def execFshf (f : WarpWord) (s : State) : Out :=
  runInt .fshf f s 1 (fun c s0 i =>
    fshfVal (f.mod.getLsbD 5) (f.mod.getLsbD 6) (a32 s0 c f i) (b32 s0 c .fshf f i) (c32 s0 c f i))
/-- BOOL3 (05 R119). -/
def execBool3 (f : WarpWord) (s : State) : Out :=
  runInt .bool3 f s (tn f) (fun c s0 i =>
    bool3Val (modBits f 4 8) (opA s0 c f (tn f) i) (opB s0 c .bool3 f (tn f) i) (opC s0 c f (tn f) i))
/-- BFX (05 R119). -/
def execBfx (f : WarpWord) (s : State) : Out :=
  runInt .bfx f s (tn f) (fun c s0 i => bfxVal (typeCode f) (opA s0 c f (tn f) i) (b32 s0 c .bfx f i))
/-- BFI (05 R119). -/
def execBfi (f : WarpWord) (s : State) : Out :=
  runInt .bfi f s (tn f) (fun c s0 i =>
    bfiVal (tw f) (opA s0 c f (tn f) i) (b32 s0 c .bfi f i) (opC s0 c f (tn f) i))
/-- CLZ (05 R119). -/
def execClz (f : WarpWord) (s : State) : Out := runInt .clz f s 1 (fun c s0 i => clzVal (tw f) (opA s0 c f (tn f) i))
/-- POPC (05 R119). -/
def execPopc (f : WarpWord) (s : State) : Out := runInt .popc f s 1 (fun c s0 i => popcVal (tw f) (opA s0 c f (tn f) i))
/-- BREV (05 R119). -/
def execBrev (f : WarpWord) (s : State) : Out :=
  runInt .brev f s (tn f) (fun c s0 i => brevVal (tw f) (opA s0 c f (tn f) i))
/-- MOV (05 R119). -/
def execMov (f : WarpWord) (s : State) : Out := runInt .mov f s (tn f) (fun c s0 i => opA s0 c f (tn f) i)
/-- MOVI (05 R119). -/
def execMovi (f : WarpWord) (s : State) : Out := runInt .movi f s (tn f) (fun _ _ _ => immOf .movi f)
/-- IDP4 (05 R120). -/
def execIdp4 (f : WarpWord) (s : State) : Out :=
  runInt .idp4 f s 1 (fun c s0 i =>
    idp4Val (satBit f) (f.mod.getLsbD 5) (f.mod.getLsbD 6) (opA s0 c f 1 i) (opB s0 c .idp4 f 1 i) (opC s0 c f 1 i))
/-- BYSEL (05 R123). -/
def execBysel (f : WarpWord) (s : State) : Out :=
  runInt .bysel f s 1 (fun c s0 i => byselVal (a32 s0 c f i) (b32 s0 c .bysel f i) (c32 s0 c f i))

/-- Write a comparison's outcome: all ones or 0 into vd, or under .m the bits of P into a mask register (05 R122). -/
def writeCompare (t : State) (c : Ctx) (f : WarpWord) (toMask : Bool) (out : Nat → Bool) : State :=
  if toMask then mwrite t c.g c.w f.dst.toNat (maskBits (c.warp.mreg f.dst.toNat) c.p out)
  else vecWrite t c f 1 (fun i => if out i then 0xFFFFFFFF else 0)

/-- ICMP (05 R122). -/
def execIcmp (f : WarpWord) (s : State) : Out :=
  runWord .icmp f s (fun c s0 t =>
    let ty := typeCode f
    .done (writeCompare t c f (f.mod.getLsbD 8) (fun i =>
      intCond (modBits f 5 3) (intOf ty (opA s0 c f (tn f) i)) (intOf ty (opB s0 c .icmp f (tn f) i)))))

/-- SEL (05 R122). -/
def execSel (f : WarpWord) (s : State) : Out :=
  runInt .sel f s (tn f) (fun c s0 i =>
    let k : Bool := if f.mod.getLsbD 5 then (c.warp.mreg f.c.toNat).getLsbD i else c32 s0 c f i ≠ 0
    if k then opA s0 c f (tn f) i else opB s0 c .sel f (tn f) i)

end Sys2Proof.Machine
end

