-- ==== Sys2Proof/Machine/FloatVec.lean ====
section
/-!
DEFINITION. The floating-point-vector class (05 R124 to R134).
-/

namespace Sys2Proof.Machine

/-- .ftz, mod[7]. -/
def ftzBit (f : WarpWord) : Bool := f.mod.getLsbD 7

/-- Does a type name a packed pair in this class (05 R124)? -/
def isPair (t : Nat) : Bool := t = 10 || t = 11

/-- Element j of a value of a type (05 R124). -/
def elemOf (t j : Nat) (v : Word64) : Nat :=
  if isPair t then bits v.toNat (16 * j) 16 else v.toNat % 2 ^ (fmtOf t).width

/-- Every element of a lane in ascending order, the stochastic register threaded through (05 R126). -/
def eachElem (t : Nat) (st : Word32) (fn : Nat → Word32 → Rounded) : Rounded :=
  let r0 := fn 0 st
  if isPair t then
    let r1 := fn 1 r0.st
    ⟨r0.code + r1.code * 2 ^ 16, r0.fl ||| r1.fl, r1.st⟩
  else r0

/-- What a lane's computation leaves: lane, register writes, flags and stochastic register. -/
structure LaneRes where
  lane : Nat
  writes : List (Nat × Nat × Word32)
  fl : BitVec 5
  st : Word32
  deriving DecidableEq, Repr

/-- Write what lanes left (03 R75, R78). -/
def applyLanes (t : State) (c : Ctx) (rs : List LaneRes) : State :=
  let t := vwrites t c.g c.w (rs.flatMap (·.writes))
  modWarp t c.g c.w (fun x => rs.foldl (fun x r => (x.setSeed r.lane r.st).raise r.fl) x)

/-- A floating instruction whose destination has the registers of its type. -/
def runFlt (op : Op) (f : WarpWord) (s : State) (fn : Ctx → State → Nat → Word32 → Rounded) : Out :=
  runWord op f s (fun c s0 t =>
    .done (applyLanes t c ((lanesOf c.p).map (fun i =>
      let r := fn c s0 i (c.warp.seed i)
      ⟨i, regWrites f.dst.toNat i (tn f) (BitVec.ofNat 64 r.code), r.fl, r.st⟩))))

/-- FADD, FSUB, FMUL or FFMA on a lane's values of a type (05 R126). -/
def arithVal (o : FOp) (t mode : Nat) (ftz : Bool) (st : Word32) (a b c : Word64) : Rounded :=
  eachElem t st (fun j st => fArith o (fmtOf t) mode ftz st (elemOf t j a) (elemOf t j b) (elemOf t j c))

/-- FMIN or FMAX on a lane's values of a type (05 R127). -/
def minMaxVal (max : Bool) (t : Nat) (ftz : Bool) (st : Word32) (a b : Word64) : Rounded :=
  eachElem t st (fun j st =>
    let r := fMinMax max (fmtOf t) ftz (elemOf t j a) (elemOf t j b)
    ⟨r.1, r.2, st⟩)

/-- A two-source arithmetic instruction. -/
def runArith (o : FOp) (op : Op) (f : WarpWord) (s : State) : Out :=
  runFlt op f s (fun c s0 i st =>
    arithVal o (typeCode f) (rndCode f) (ftzBit f) st (opA s0 c f (tn f) i) (opB s0 c op f (tn f) i) 0)

/-- FADD (05 R126). -/
def execFadd (f : WarpWord) (s : State) : Out := runArith .add .fadd f s
/-- FSUB (05 R126). -/
def execFsub (f : WarpWord) (s : State) : Out := runArith .sub .fsub f s
/-- FMUL (05 R126). -/
def execFmul (f : WarpWord) (s : State) : Out := runArith .mul .fmul f s
/-- FFMA (05 R126). -/
def execFfma (f : WarpWord) (s : State) : Out :=
  runFlt .ffma f s (fun c s0 i st =>
    arithVal .fma (typeCode f) (rndCode f) (ftzBit f) st (opA s0 c f (tn f) i) (opB s0 c .ffma f (tn f) i)
      (opC s0 c f (tn f) i))

/-- FMIN (05 R127). -/
def execFmin (f : WarpWord) (s : State) : Out :=
  runFlt .fmin f s (fun c s0 i st =>
    minMaxVal false (typeCode f) (ftzBit f) st (opA s0 c f (tn f) i) (opB s0 c .fmin f (tn f) i))
/-- FMAX (05 R127). -/
def execFmax (f : WarpWord) (s : State) : Out :=
  runFlt .fmax f s (fun c s0 i st =>
    minMaxVal true (typeCode f) (ftzBit f) st (opA s0 c f (tn f) i) (opB s0 c .fmax f (tn f) i))

/-- FCMP (05 R128). -/
def execFcmp (f : WarpWord) (s : State) : Out :=
  runWord .fcmp f s (fun c s0 t =>
    let out (i : Nat) : Bool × BitVec 5 :=
      fCompare (modBits f 8 3) (fmtOf (typeCode f)) (ftzBit f) (opA s0 c f (tn f) i).toNat (opB s0 c .fcmp f (tn f) i).toNat
    let t := writeCompare t c f (f.mod.getLsbD 11) (fun i => (out i).1)
    .done (raiseFlags t c.g c.w ((lanesOf c.p).foldl (fun fl i => fl ||| (out i).2) 0)))

/-- A function of one or two values that leaves the stochastic register alone. -/
def plainRes (r : Nat × BitVec 5) (st : Word32) : Rounded := ⟨r.1, r.2, st⟩

/-- Operand a of a floating instruction as a code. -/
def aCode (s : State) (c : Ctx) (f : WarpWord) (i : Nat) : Nat := elemOf (typeCode f) 0 (opA s c f (tn f) i)

/-- FRCP (05 R129, R131). -/
def execFrcp (f : WarpWord) (s : State) : Out :=
  runFlt .frcp f s (fun c s0 i st => plainRes (fRcp (fmtOf (typeCode f)) (rndCode f) (ftzBit f) (aCode s0 c f i)) st)
/-- FSQRT (05 R129, R131). -/
def execFsqrt (f : WarpWord) (s : State) : Out :=
  runFlt .fsqrt f s (fun c s0 i st => plainRes (fSqrt (fmtOf (typeCode f)) (rndCode f) (ftzBit f) (aCode s0 c f i)) st)
/-- FDIV (05 R129). -/
def execFdiv (f : WarpWord) (s : State) : Out :=
  runFlt .fdiv f s (fun c s0 i st => plainRes (fDiv (fmtOf (typeCode f)) (rndCode f) (ftzBit f) (aCode s0 c f i)
    (elemOf (typeCode f) 0 (opB s0 c .fdiv f (tn f) i))) st)
/-- FRND (05 R133). -/
def execFrnd (f : WarpWord) (s : State) : Out :=
  runFlt .frnd f s (fun c s0 i st => plainRes (fRnd (fmtOf (typeCode f)) (rndCode f) (ftzBit f) (aCode s0 c f i)) st)
/-- FSCALE (05 R134). -/
def execFscale (f : WarpWord) (s : State) : Out :=
  runFlt .fscale f s (fun c s0 i st =>
    plainRes (fScale (fmtOf (typeCode f)) (rndCode f) (ftzBit f) (aCode s0 c f i) (b32 s0 c .fscale f i).toInt) st)
/-- FCLASS (05 R132). -/
def execFclass (f : WarpWord) (s : State) : Out :=
  runInt .fclass f s 1 (fun c s0 i =>
    let F := fmtOf (typeCode f)
    BitVec.ofNat 64 (fClass F ((opA s0 c f (tn f) i).toNat % 2 ^ F.width)))

/-- An approximated function (05 R130): each lane takes its own free value (logs 4 and 7). -/
def runApprox (op : Op) (f : WarpWord) (s : State) (fn : Fmt → Bool → Nat → Nat → Nat × BitVec 5) : Out :=
  runWord op f s (fun c s0 t =>
    let t := { t with freeCtr := t.freeCtr + 32 }
    .done (applyLanes t c ((lanesOf c.p).map (fun i =>
      let r := fn (fmtOf (typeCode f)) (ftzBit f) (Config.freeValue (s0.freeCtr + i)).toNat (aCode s0 c f i)
      ⟨i, regWrites f.dst.toNat i (tn f) (BitVec.ofNat 64 r.1), r.2, c.warp.seed i⟩))))

/-- FRSQ (05 R130, R131). -/
def execFrsq (f : WarpWord) (s : State) : Out := runApprox .frsq f s fRsq
/-- FEXP2 (05 R130, R131). -/
def execFexp2 (f : WarpWord) (s : State) : Out := runApprox .fexp2 f s fExp2
/-- FLOG2 (05 R130, R131). -/
def execFlog2 (f : WarpWord) (s : State) : Out := runApprox .flog2 f s fLog2
/-- FSINPI (05 R130, R131). -/
def execFsinpi (f : WarpWord) (s : State) : Out := runApprox .fsinpi f s (fSinCos false)
/-- FCOSPI (05 R130, R131). -/
def execFcospi (f : WarpWord) (s : State) : Out := runApprox .fcospi f s (fSinCos true)
/-- FTANH (05 R130, R131). -/
def execFtanh (f : WarpWord) (s : State) : Out := runApprox .ftanh f s fTanh

end Sys2Proof.Machine
end

