-- ==== Sys2Proof/Machine/Convert.lean ====
section
/-!
DEFINITION. The conversion instructions (03 R79 to R85).
-/

namespace Sys2Proof.Machine

/-- The source type of a conversion, mod[11:8]. -/
def srcType (f : WarpWord) : Nat := modBits f 8 4

/-- CVT (03 R81). -/
def execCvt (f : WarpWord) (s : State) : Out :=
  runFlt .cvt f s (fun c s0 i st =>
    let r := convert (typeCode f) (srcType f) (rndCode f) (ftzBit f) st (opA s0 c f (typeRegs (srcType f)) i)
    ⟨r.1.toNat, r.2.1, r.2.2⟩)

/-- Convert a list of sources in ascending order: codes, flags, stochastic register. -/
def convertAll (dt sty mode : Nat) (ftz : Bool) (st : Word32) (vs : List Word64) : List Nat × BitVec 5 × Word32 :=
  vs.foldl (fun acc v =>
    let r := convert dt sty mode ftz acc.2.2 v
    (acc.1 ++ [r.1.toNat], acc.2.1 ||| r.2.1, r.2.2)) ([], 0, st)

/-- Elements of w bits packed in ascending order (03 R82). -/
def packBits (w : Nat) (es : List Nat) : Nat := es.foldr (fun e n => e % 2 ^ w + 2 ^ w * n) 0

/-- PACK (03 R82). -/
def execPack (f : WarpWord) (s : State) : Out :=
  runWord .pack f s (fun c s0 t =>
    let k := packRegs (typeCode f) (srcType f)
    .done (applyLanes t c ((lanesOf c.p).map (fun i =>
      let src (v : BitVec 8) : List Word64 := (List.range k).map (fun j => vread64 s0 c.g c.w (v.toNat + j) i 1)
      let r := convertAll (typeCode f) (srcType f) (rndCode f) (ftzBit f) (c.warp.seed i) (src f.a ++ src f.b)
      ⟨i, [(f.dst.toNat, i, BitVec.ofNat 32 (packBits (16 / k) r.1))], r.2.1, r.2.2⟩))))

/-- One element of UNPACK (03 R83): value and flags. -/
def unpackElem (dt sty : Nat) (v : Word64) : Word64 × BitVec 5 :=
  if dt ≤ 7 then (convOutInt dt (intOf sty v), 0)
  else
    let r := convert dt sty 0 false 0 v
    (r.1, r.2.1 &&& flNV)

/-- UNPACK (03 R83). -/
def execUnpack (f : WarpWord) (s : State) : Out :=
  runWord .unpack f s (fun c s0 t =>
    let n := unpackRegs (typeCode f) (srcType f)
    let w := 32 / n
    .done (applyLanes t c ((lanesOf c.p).map (fun i =>
      let src := vread s0 c.g c.w f.a.toNat i
      let es := (List.range n).map (fun j => (j, unpackElem (typeCode f) (srcType f) (BitVec.ofNat 64 (bits src.toNat (w * j) w))))
      ⟨i, es.map (fun e => (f.dst.toNat + e.1, i, e.2.1.setWidth 32)), es.foldl (fun fl e => fl ||| e.2.2) 0, c.warp.seed i⟩))))

/-- The elements of a block quantised with scale code c, in ascending order: codes, flags, stochastic register
(03 R76, R84). -/
def quantise (F : Fmt) (mode : Nat) (st : Word32) (c : Nat) (xs : List FVal) : List Nat × BitVec 5 × Word32 :=
  xs.foldl (fun acc x =>
    let r := blockElem F mode acc.2.2 x c
    (acc.1 ++ [r.code], acc.2.1 ||| r.fl ||| flagIf x.isSnan flNV, r.st)) ([], 0, st)

/-- The binary32 values of k registers of a lane. -/
def f32Regs (s : State) (c : Ctx) (v : BitVec 8) (k i : Nat) : List FVal :=
  (List.range k).map (fun j => f32.decode (vread s c.g c.w (v.toNat + j) i).toNat)

/-- QBLK (03 R84): blocks of one lane for E2M1, of the participating lanes of each eight for the FP8 formats. -/
def execQblk (f : WarpWord) (s : State) : Out :=
  runWord .qblk f s (fun c s0 t =>
    let F := fmtOf (typeCode f)
    let one := typeCode f = 14
    let k := if one then 8 else 4
    let xs (i : Nat) : List FVal := f32Regs s0 c f.a k i
    let block (i : Nat) : List Nat := if one then [i] else (lanesOf c.p).filter (fun j => j / 8 = i / 8)
    .done (applyLanes t c ((lanesOf c.p).map (fun i =>
      let code := blockScale F ((block i).flatMap xs)
      let r := quantise F (rndCode f) (c.warp.seed i) code (xs i)
      ⟨i, [(f.dst.toNat, i, BitVec.ofNat 32 (packBits (32 / k) r.1)), (f.dst.toNat + 1, i, BitVec.ofNat 32 code)],
        r.2.1, r.2.2⟩))))

/-- DQBLK (03 R85). -/
def execDqblk (f : WarpWord) (s : State) : Out :=
  runWord .dqblk f s (fun c s0 t =>
    let F := fmtOf (srcType f)
    let n := if srcType f = 14 then 8 else 4
    .done (vwrites t c.g c.w ((lanesOf c.p).flatMap (fun i =>
      let p := (vread s0 c.g c.w f.a.toNat i).toNat
      let sc := e3m5 (vread s0 c.g c.w (f.a.toNat + 1) i).toNat
      (List.range n).map (fun j =>
        (f.dst.toNat + j, i,
          BitVec.ofNat 32 (roundTo f32 0 0 (fvMul (F.decode (bits p (32 / n * j) (32 / n))) sc)).code))))))

end Sys2Proof.Machine
end

