-- ==== Sys2Proof/Machine/Scalar.lean ====
section
/-!
DEFINITION. The scalar class (05 R135 to R137, R139); SLD and SST stand with the memory instructions. Each operation is a
function of its operand values, which the scalar slot of long-word mode uses too.
-/

namespace Sys2Proof.Machine

/-- SMULH (05 R136). -/
def smulhVal (unsigned : Bool) (a b : Word64) : Word64 :=
  if unsigned then BitVec.ofNat 64 (a.toNat * b.toNat / 2 ^ 64) else BitVec.ofInt 64 (a.toInt * b.toInt / (2 ^ 64 : Nat))
/-- SMIN, SMAX (05 R136). -/
def sminmaxVal (max unsigned : Bool) (a b : Word64) : Word64 :=
  let less : Bool := if unsigned then a.ult b else a.slt b
  if less != max then a else b
/-- SBFX (05 R136). -/
def sbfxVal (sx : Bool) (a b : Word64) : Word64 := bfxVal (if sx then 3 else 2) a (b.setWidth 32)
/-- SLI (05 R136): the old value of its register and the immediate. -/
def sliVal (hi : Bool) (old imm : Word64) : Word64 := if hi then imm <<< 32 ||| (old &&& 0xFFFFFFFF) else imm

/-- A scalar instruction that writes one s-register. -/
def runSca (op : Op) (f : WarpWord) (s : State) (val : Ctx → Word64 → Word64 → Word64) : Out :=
  runWord op f s (fun c _ t => .done (swrite t c.g c.w f.dst.toNat (val c (sA c f) (sB c op f))))

/-- SADD (05 R136). -/
def execSadd (f : WarpWord) (s : State) : Out := runSca .sadd f s (fun _ a b => a + b)
/-- SSUB (05 R136). -/
def execSsub (f : WarpWord) (s : State) : Out := runSca .ssub f s (fun _ a b => a - b)
/-- SMUL (05 R136). -/
def execSmul (f : WarpWord) (s : State) : Out := runSca .smul f s (fun _ a b => a * b)
/-- SMULH (05 R136). -/
def execSmulh (f : WarpWord) (s : State) : Out := runSca .smulh f s (fun _ => smulhVal (f.mod.getLsbD 0))
/-- SAND (05 R136). -/
def execSand (f : WarpWord) (s : State) : Out := runSca .sand f s (fun _ a b => a &&& b)
/-- SOR (05 R136). -/
def execSor (f : WarpWord) (s : State) : Out := runSca .sor f s (fun _ a b => a ||| b)
/-- SXOR (05 R136). -/
def execSxor (f : WarpWord) (s : State) : Out := runSca .sxor f s (fun _ a b => a ^^^ b)
/-- SSHL (05 R136). -/
def execSshl (f : WarpWord) (s : State) : Out := runSca .sshl f s (fun _ a b => a <<< (b.toNat % 64))
/-- SSHR (05 R136). -/
def execSshr (f : WarpWord) (s : State) : Out := runSca .sshr f s (fun _ a b => a >>> (b.toNat % 64))
/-- SSHRA (05 R136). -/
def execSshra (f : WarpWord) (s : State) : Out := runSca .sshra f s (fun _ a b => a.sshiftRight (b.toNat % 64))
/-- SMIN (05 R136). -/
def execSmin (f : WarpWord) (s : State) : Out := runSca .smin f s (fun _ => sminmaxVal false (f.mod.getLsbD 0))
/-- SMAX (05 R136). -/
def execSmax (f : WarpWord) (s : State) : Out := runSca .smax f s (fun _ => sminmaxVal true (f.mod.getLsbD 0))
/-- SCMP (05 R137). -/
def execScmp (f : WarpWord) (s : State) : Out :=
  runWord .scmp f s (fun c _ t =>
    let out := scmpCond (modBits f 0 4) (sA c f) (sB c .scmp f)
    .done (modWarp (swrite t c.g c.w f.dst.toNat (if out then 1 else 0)) c.g c.w (fun x => { x with sf := out })))
/-- SSEL (05 R137). -/
def execSsel (f : WarpWord) (s : State) : Out := runSca .ssel f s (fun c a b => if c.warp.sf then a else b)
/-- SMOV (05 R136). -/
def execSmov (f : WarpWord) (s : State) : Out := runSca .smov f s (fun _ a _ => a)
/-- SLI (05 R136). -/
def execSli (f : WarpWord) (s : State) : Out :=
  runSca .sli f s (fun c _ b => sliVal (f.mod.getLsbD 0) (c.warp.sreg f.dst.toNat) b)
/-- SBFX (05 R136). -/
def execSbfx (f : WarpWord) (s : State) : Out := runSca .sbfx f s (fun _ => sbfxVal (f.mod.getLsbD 0))
/-- SCLZ (05 R136). -/
def execSclz (f : WarpWord) (s : State) : Out := runSca .sclz f s (fun _ a _ => clzVal 64 a)
/-- SPOPC (05 R136). -/
def execSpopc (f : WarpWord) (s : State) : Out := runSca .spopc f s (fun _ a _ => popcVal 64 a)

/-- V2S (05 R139). -/
def execV2s (f : WarpWord) (s : State) : Out :=
  runWord .v2s f s (fun c s0 t =>
    let first := f.mod.getLsbD 1
    let k := if f.mod.getLsbD 0 then 2 else 1
    let v : Word64 :=
      if first && c.exec = 0 then 0
      else vread64 s0 c.g c.w f.a.toNat (if first then (lowest c.exec).getD 0 else (sB c .v2s f).toNat % 32) k
    .done (swrite t c.g c.w f.dst.toNat v))

end Sys2Proof.Machine
end

