-- ==== Sys2Proof/Machine/Mem.lean ====
section
/-!
DEFINITION. The memory-access class (07 R190 to R200), SLD and SST (05 R138), and the events of accesses in flight:
LOAD_LANDS, STORE_PERFORMED, HINV_COMPLETE.
-/

namespace Sys2Proof.Machine

/-- Space code of LD, ST, PREF (07 R190). -/
def spaceCode (f : WarpWord) : Nat := modBits f 4 2
/-- Cache policy of an address operand (07 R191). -/
def policyOf (f : WarpWord) : Nat := if f.l then extBits f 35 2 else 0

/-- Lanes of P with their addresses. -/
def laneAddrs (s : State) (c : Ctx) (f : WarpWord) (space : Nat) : List (Nat × Word64) :=
  (lanesOf c.p).map (fun i => (i, laneAddr s c f space i))

/-- How a load meets the caches: under .str, under .nl1, or as an acquire, which like .nl1 reads at the point of coherence
(07 R168, R170, 08 R211). -/
structure LoadAs where
  policy : Nat := 0
  acq : Bool := false

/-- Is a load of a key served from L1: it holds the line, and neither .nl1 nor an acquire asks past it (07 R168, 08 R211)? -/
def l1Serves (s : State) (core : Nat) (how : LoadAs) (k : Nat) : Bool := l1Holds s core k && how.policy ≠ 1 && !how.acq

/-- Bring in what a load of a place reads: the L1 line, which .nl1 and an acquire replace where it is held, the line of the
memory-side slice, the constant line (07 R168, R170, R174, R175). A load under .str that misses L1 fills it as one with the
default policy does: DESIGN CHOICE, log 63. -/
def loadFill (s : State) (a : Agent) (space : Nat) (how : LoadAs) (p : Place) : State :=
  match p.key with
  | none => s
  | some k =>
    if isKc k then s
    else if space = 3 then fillK s a.core (kAddr a.asid (nd (agentNode s a) 64 64 + p.addr.toNat)) k
    else if space ≠ 0 || l1Serves s a.core how k then s
    else if l1Able k && (how.policy ≠ 1 || l1Holds s a.core k) then fillL1 s a.core (how.policy = 2) k
    else useLine s (how.policy = 2) k

/-- The first of the places on each line. -/
def linePlaces (ps : List Place) : List Place :=
  ps.foldl (fun acc p => if acc.any (fun q => q.key.map (· / 128) = p.key.map (· / 128)) then acc else acc ++ [p]) []

/-- A load accesses its places, and each line that it reads is brought in, once (07 R168, R170, R180). -/
def loadFills (s : State) (a : Agent) (space : Nat) (how : LoadAs) (ps : List Place) : State :=
  (linePlaces ps).foldl (fun s p => loadFill s a space how p) (touchPlaces s a ps)

/-- The places of a load that L1 does not serve: what it asks of memory-side slices and of peers. A constant line asks its slice as it
is brought in (fillK). -/
def askedPlaces (s : State) (a : Agent) (space : Nat) (how : LoadAs) (ps : List Place) : List Place :=
  if space = 0 then ps.filter (fun p => p.key.any (fun k => !l1Serves s a.core how k))
  else if space = 3 then ps.filter (fun p => p.key.any onPeer) else []

/-- What a load reads at a place of a space, its lines brought in (s); bytes that do not exist read zero (07 R173). A constant
is read from the constant cache as it was before (s0), or, where that does not hold it, as the fill reads it, at the point of
coherence (07 R175). -/
def loadNat (s0 s : State) (core g w space : Nat) (p : Place) : Nat :=
  match p.key with
  | none => 0
  | some k =>
    if isKc k then readNat s0.mem k p.bytes
    else if space = 3 then pocNat s0 k p.bytes
    else seenNat s core g w k p.bytes

/-- May a load that acquires sample its bytes: no marked access of its threads is pending, and no store of its core to the bytes
is still on its way to the point of coherence, where it reads (08 R208, R211)? -/
def acqReady (s : State) (c : Ctx) (ls : Lanes) (ps : List Place) : Bool :=
  !markedPending s c.g c.w ls && !s.stores.any (fun e => e.core = c.wg.core &&
    e.cells.any (fun x => ps.any (fun p => p.key.any (fun k => k ≤ x.1 && x.1 < k + p.bytes))))

/-- A warp that waits for a read in the middle of an instruction asks for admission of its requests to peers (15 R362, R363). -/
def askNow (s : State) (c : Ctx) (space : Nat) (ps : List Place) : State :=
  askPeers s (syncAcc (warpKey c.g c.w) false) (syncAgent (warpKey c.g c.w)) false (askedPlaces s c.agent space {} ps)

/-- Have its requests left? -/
def nowGone (s : State) (c : Ctx) (space : Nat) (ps : List Place) : Bool :=
  (askedPlaces s c.agent space {} ps).all (fun p => p.key.all (reqGone s (syncAcc (warpKey c.g c.w) false)))

/-- Its read is made: the lines that it asks of memory-side slices are counted, and brought in as a load's. -/
def readNow (s : State) (c : Ctx) (space : Nat) (ps : List Place) : State :=
  let ks := (linePlaces (askedPlaces s c.agent space {} ps)).filterMap (·.key)
  endAccess (loadFills (ks.foldl (fun s k => countAsk s s.clock k) s) c.agent space {} ps) (syncAcc (warpKey c.g c.w) false)

/-- The registers that a loaded value of n bytes fills (07 R193). -/
def loadWrites (d n t i v : Nat) : List (Nat × Nat × Word32) :=
  if n < 4 then [(d, i, (convOutInt t v).setWidth 32)]
  else (List.range (n / 4)).map (fun j => (d + j, i, BitVec.ofNat 32 (v / 2 ^ (32 * j))))

/-- Width code of a late-fault entry for k registers (14 R332). -/
def widthCode (k : Nat) : Nat := if k = 4 then 3 else k

/-- The pending stores of other threads that a lane thread of warp (g, w) sees in n bytes from a key on: those of its core in .g
memory, else those of its warp (08 R210, R211). -/
def readStores (s : State) (core g w lane k n : Nat) : List Nat :=
  (s.stores.filter (fun e => e.core = core && (isGlobal k || (e.g = g && e.w = w)) && !(e.g = g && e.w = w && e.lane = lane) &&
    e.cells.any (fun c => k ≤ c.1 && c.1 < k + n))).map (·.id)

/-- Put a load of an agent's places in flight, of which it has asked some of slices and peers; the pending stores that it has read
are noted (08 R210). -/
def addLoad (s : State) (a : Agent) (ps asked : List Place) (l : Load) : State :=
  let reads := ps.filterMap (fun p => p.key.map (fun k => (p.lane, p.addr.toNat, k, p.bytes)))
  let l := { l with id := s.nextId, since := s.clock, reads := reads
                    slices := (((linePlaces asked).filterMap (·.key)).filter inSlice).map (fun k => k / 128 * 128) }
  let seen := reads.flatMap (fun r => (readStores s a.core l.g l.w r.1 r.2.2.1 r.2.2.2).map (fun id => (warpKey l.g l.w, r.1, id)))
  askPeers { s with loads := s.loads ++ [l], nextId := s.nextId + 1, saw := nub (s.saw ++ seen) } l.id
    (threadNum l.g l.w ((asked.map (·.lane)).headD 0)) false asked

/-- LD (07 R193). -/
def execLd (f : WarpWord) (s : State) : Out :=
  runWord .ld f s (fun c s0 t =>
    let sp := spaceCode f
    let n := accessBytes f
    let core := c.wg.core
    if c.p = 0 then .done t
    else match checkLanes s0 c.agent sp n .read false (laneAddrs s0 c f sp) with
      | .trap tr => .trap tr
      | .hold h => .hold h
      | .stop => .stop .physicalHole
      | .ok ps =>
        let acq := modBits f 6 2 = 1
        if acq && !acqReady s0 c c.p ps then .hold s0
        else
          let how : LoadAs := ⟨policyOf f, acq && modBits f 8 3 ≠ 0⟩
          let u := loadFills t c.agent sp how ps
          let vals := ps.map (fun p => (p.lane, loadNat t u core c.g c.w sp p))
          let t := addLoad u c.agent ps (askedPlaces t c.agent sp how ps)
            { id := 0, since := 0, slices := [], reads := [], g := c.g, w := c.w, kind := .ld, space := sp, scal := none
              token := none, dst := f.dst.toNat, width := widthCode (bytesRegs n)
              vecs := vals.flatMap (fun v => loadWrites f.dst.toNat n (typeCode f) v.1 v.2) }
          .done (if acq ∧ modBits f 8 3 ≠ 0 then acquire t core else t))

/-- The data of ST in a lane: n low bytes of c; a scalar has 64 bits, and what a 16-byte store of one puts above them is a
free value (log 11). -/
def storeData (s : State) (c : Ctx) (f : WarpWord) (n i : Nat) : Nat :=
  if f.mod.getLsbD 12 then
    (sC c f).toNat % 2 ^ (8 * n) + (if n = 16 then (Config.freeValue s.freeCtr).toNat * 2 ^ 64 else 0)
  else
    ((List.range (bytesRegs n)).foldr (fun j v => (vread s c.g c.w (f.c.toNat + j) i).toNat + 2 ^ 32 * v) 0) % 2 ^ (8 * n)

/-- ST (07 R194). -/
def execSt (f : WarpWord) (s : State) : Out :=
  runWord .st f s (fun c s0 t =>
    let sp := spaceCode f
    let n := accessBytes f
    if c.p = 0 then .done t
    else if modBits f 6 2 = 2 ∧ !laneRelease s0 c.g c.w (modBits f 8 3) c.p then .hold s0
    else match checkLanes s0 c.agent sp n .write false (laneAddrs s0 c f sp) with
      | .trap tr => .trap tr
      | .hold h => .hold h
      | .stop => .stop .physicalHole
      | .ok ps =>
        let t := issueStores (touchPlaces t c.agent ps) c.wg.core c.g c.w n { marked := modBits f 6 2 = 2, policy := policyOf f } ps
          (storeData s0 c f n)
        let t := lampFlush s0 c.agent (spanFlush t c.wg.core c.g c.w)
        .done (if n = 16 ∧ f.mod.getLsbD 12 then { t with freeCtr := t.freeCtr + 1 } else t))

/-- The keys of some .g addresses for a hint, with LINKS of the window that each lies in, each translated with its walk made at
once; one that faults is left out. None while the host's answer for one is awaited (07 R195, R196; log 26). -/
def hintKeys (s : State) (c : Ctx) (vas : List Word64) : Option (List (Nat × Nat)) × State :=
  vas.foldl (fun acc va =>
    match xlateNow acc.2 c.wg (warpKey c.g c.w) va.toNat .read with
    | (.ok k _, s') => (acc.1.map (· ++ [(k, linksAt s' c.wg.core c.wg.asid va.toNat)]), s')
    | (.miss, s') => (none, s')
    | (_, s') => (acc.1, s')) (some [], s)

/-- An instruction of hints: what it does at each key, once all addresses are translated. -/
def runHints (c : Ctx) (s0 t : State) (vas : List Word64) (act : State → Nat × Nat → State) : Res :=
  match hintKeys s0 c vas with
  | (none, h) => .hold h
  | (some _, _) =>
    let (ks, t) := hintKeys t c vas
    .done (dropFailed ((ks.getD []).foldl act t) (warpKey c.g c.w))

/-- PREF at a key of .g (07 R195): target 0 .l1, 1 .msc, 2 .lit. A line of a peer is asked for over its link (15 R363), and not waited
for. -/
def prefLine (c : Ctx) (target : Nat) (str : Bool) (s : State) (q : Nat × Nat) : State :=
  let k := q.1
  let s := touchAll s ((unitOf k).toList)
  if target = 2 then s
  else if target = 0 && !l1Holds s c.wg.core k then
    let s := askPeer { s with nextId := s.nextId + 1 } s.nextId (syncAgent (warpKey c.g c.w)) q.2 k 0 128
    fillL1 (countAsk s s.clock k) c.wg.core str k
  else askLine s s.clock str k

/-- PREF at an address of .v (07 R195). Nothing of the vaults is cached (R165), so that .msc has no effect there. -/
def prefVault (target : Nat) (c : Ctx) (s : State) (a : Word64) : State :=
  match chkLane s c.agent 1 4 .read false 0 a with
  | .ok p => if target = 2 then touchAll s ((p.key.bind unitOf).toList) else s
  | _ => s

/-- PREF (07 R195). -/
def execPref (f : WarpWord) (s : State) : Out :=
  runWord .pref f s (fun c s0 t =>
    let target := modBits f 6 2
    let vas := ((laneAddrs s0 c f (spaceCode f)).map (·.2)).filter (fun a => a.toNat % 4 = 0)
    if spaceCode f = 1 then .done (vas.foldl (prefVault target c) t)
    else runHints c s0 t vas (prefLine c target (policyOf f = 2)))

/-- CCTL (07 R196). -/
def execCctl (f : WarpWord) (s : State) : Out :=
  runWord .cctl f s (fun c s0 t =>
    let core := c.wg.core
    match modBits f 0 2 with
    | 0 => runHints c s0 t ((laneAddrs s0 c f 0).map (·.2)) (fun t q => dropL1 t core (fun l => l = q.1 / 128))
    | 1 => .done (dropL1 t core (fun _ => true))
    | _ => .done (dropK t core))

/-! ### Host cache maintenance (07 R197, R198) -/

/-- The range of HFLUSH and HINV: none for .all. -/
def hostRange (c : Ctx) (f : WarpWord) : Option (Nat × Nat) :=
  if modBits f 0 1 = 1 ∨ 2 ^ 40 ≤ (sB c .hflush f).toNat then none else some ((sA c f).toNat, (sB c .hflush f).toNat)

/-- The bus pages that ATS has granted a context for cacheable host pages, each with its virtual page: those cached, and those
granted since the last reset, the last grant of a page first (log 12). -/
def hostPages (s : State) (asid : Nat) : List (Nat × Nat) :=
  (s.tlb.filter (fun e => e.asid = asid && e.mtype = 5)).map (fun e => (e.vpn, e.pa / 4096)) ++
    (s.atsPages.filter (fun p => p.1 = asid)).map (fun p => p.2)

/-- Is a page of a context cacheable host memory, by the translation that its core holds or by the tables as they stand? -/
def isHostPage (s : State) (core asid va : Nat) : Bool :=
  match tlbFind s core asid va false with
  | some e => e.mtype = 1
  | none => match walkContext s asid va with
    | .leaf _ _ mtype _ _ _ => mtype = 1
    | _ => false

/-- Is a host line in a range of a context: on a host page there that the context's last ATS translation of it maps, or, for .all, on
any page of the context (log 12)? -/
def lineInRange (s : State) (core asid : Nat) (range : Option (Nat × Nat)) (line : Nat) : Bool :=
  let ps := hostPages s asid
  let bus := 128 * line / 4096
  match range with
  | none => ps.any (fun p => p.2 = bus)
  | some (base, len) => ps.any (fun p => p.2 = bus && (ps.find? (fun q => q.1 = p.1)).any (fun q => q.2 = bus) &&
      (let va := p.1 * 4096 + 128 * line % 4096
       base / 128 * 128 ≤ va && va < (base + len + 127) / 128 * 128 && isHostPage s core asid va))

/-- Host lines that pending stores and atomics of a warp write. -/
def pendingLines (s : State) (g w : Nat) : List Nat :=
  (s.stores.filter (fun e => e.g = g && e.w = w)).flatMap (fun e => (e.cells.filter (fun c => isHostDev c.1)).map (fun c => hostLine c.1)) ++
    (s.atoms.filter (fun a => a.g = g && a.w = w && !a.done && isHostDev a.key)).map (fun a => hostLine a.key)

/-- HFLUSH (07 R197): the write-backs join the store queue. -/
def execHflush (f : WarpWord) (s : State) : Out :=
  runWord .hflush f s (fun c s0 t =>
    let r := hostRange c f
    if r.any (fun p => p.2 = 0) then .done t
    else
      let dirty := (s0.hostLines.filter (·.2)).map (·.1)
      let ls := (nub (dirty ++ pendingLines s0 c.g c.w)).filter (lineInRange s0 c.wg.core c.wg.asid r)
      .done (ls.foldl (fun t l =>
        { t with stores := t.stores ++ [{ id := t.nextId, core := c.wg.core, g := c.g, w := c.w, kind := .flush l, cells := []
                                          token := none, since := t.clock, lane := 0, marked := false, str := false
                                          inst := t.nextId, whole := [], joined := [] }]
                 nextId := t.nextId + 1 }) t))

/-- HINV (07 R197, R198): the fragment waits until the copies are gone. -/
def execHinv (f : WarpWord) (s : State) : Out :=
  runWord .hinv f s (fun c _ t =>
    match hostRange c f with
    | none => .done (blockFrag t c.g c.w c.e (.hinv true 0 0))
    | some (base, len) => .done (if len = 0 then t else blockFrag t c.g c.w c.e (.hinv false base len)))

/-- Discard the device copies of host lines, in every L1 and every memory-side slice. -/
def discardLines (s : State) (p : Nat → Bool) : State :=
  let ls := (s.hostLines.map (·.1)).filter p
  let s := ls.foldl (fun s l => zeroRange s (hostDevKey (128 * l)) 128) s
  let s := { s with hostLines := s.hostLines.filter (fun h => !p h.1), hostLow := s.hostLow.filter (fun l => !p l) }
  let base := hostDevKey 0 / 128
  s.cores.foldl (fun s k => dropL1 s k.1 (fun l => base ≤ l && l < 2 * base && p (l - base))) s

/-- HINV_COMPLETE: every device copy in the range is gone, and the fragment goes on (07 R198). -/
def execHinvComplete (g w e : Nat) (s : State) : Out :=
  match getWg s g, getWarp s g w with
  | some x, some p =>
    match waitOf p e with
    | some (.hinv all base len) =>
      if heldWarp s g w then .next s
      else
        let s := setWarp s g w (readyFrag p e)
        .next (discardLines s (lineInRange s x.core x.asid (if all then none else some (base, len))))
    | _ => .next s
  | _, _ => .next s

/-! ### PHASE and PADQ -/

/-- PHASE (07 R185, R187, R199). -/
def execPhase (f : WarpWord) (s : State) : Out :=
  runWord .phase f s (fun c s0 t =>
    let x' := { c.wg with phase := modBits f 0 3, nearMask := (sA c f).setWidth 48 }
    let old := protects s0 c.wg
    let new := protects s0 x'
    let fresh := new.filter (fun u => !old.contains u)
    let t := modWg t c.g (fun x => { x with phase := x'.phase, nearMask := x'.nearMask })
    -- a newly protected unit that is DIM wakes; one no longer protected starts its idle count afresh
    let t := fresh.foldl (fun t u => if lampOf t u = .dim then touch t u else t) t
    let t := (old.filter (fun u => !new.contains u)).foldl (fun t u => if isLit t u then touch t u else t) t
    if !inOrder s0 (clsPhase c.g) c.w then .hold s0
    else
      let lit := fresh.all (isLit t)
      let t := takePlace t (clsPhase c.g) c.w
      if lit then .done t else .done (blockFrag t c.g c.w c.e (.lit fresh c.pc)))

/-- State code of a lamp unit (07 R179). -/
def lampCode (s : State) (u : Nat) : Nat :=
  match lampOf s u with
  | .lit _ => 0
  | .dim => 1
  | .dark => 2
  | .waking _ _ => 3

/-- State code and protected bit of a unit (07 R200). -/
def lampInfo (s : State) (u : Nat) : Nat := lampCode s u + (if isProtected s u then 4 else 0)

/-- The result of PADQ (07 R200). -/
def padqValue (s : State) (x : Wg) (kind : Nat) (a : Word64) : Nat :=
  let lo := a.toNat % 2 ^ 32
  match kind with
  | 0 =>
    let o := if x.wrapped && 0 < x.padSize then lo % x.padSize else lo
    if o < x.padSize then lampInfo s (padUnit x.core (4096 * x.padBase + o)) else 8
  | 1 =>
    if 240 ≤ lo / 2 ^ 24 ∨ 0xC00000 ≤ lo % 2 ^ 24 then 8
    else if mget s.vaultOwner (bankOf lo) = some x.asid then lampInfo s (bankUnit (bankOf lo)) else 8
  | _ => x.padSize + (if x.wrapped then 2 ^ 32 else 0) + x.phase * 2 ^ 33

/-- PADQ (07 R200). -/
def execPadq (f : WarpWord) (s : State) : Out :=
  runWord .padq f s (fun c s0 t =>
    .done (swrite t c.g c.w f.dst.toNat (BitVec.ofNat 64 (padqValue s0 c.wg (modBits f 0 2) (sA c f)))))

/-! ### SLD and SST (05 R138) -/

/-- The one access of SLD or SST: the fragment's lowest lane and its address. -/
def scaAddr (c : Ctx) (f : WarpWord) (op : Op) : List (Nat × Word64) :=
  [((lowest c.frag).getD 0, spaceAddr (spaceCode f) (sA c f + sB c op f))]

/-- Bytes of an SLD or SST (05 R135). -/
def scaBytes (f : WarpWord) : Nat := 2 ^ modBits f 0 2

/-- A value of n bytes as SLD extends it (05 R138). -/
def sldValue (n : Nat) (sx : Bool) (v : Nat) : Word64 := if sx then sext64 v (8 * n) else BitVec.ofNat 64 v

/-- Has a warp an atomic on these bytes that is still to be performed? Its scalar accesses follow it: the warp's program order holds for
each location (05 R138). -/
def warpAtomMeets (s : State) (g w key n : Nat) : Bool :=
  s.atoms.any (fun a => a.g = g && a.w = w && !a.done && key < a.key + atomBytes a.type && a.key < key + n)

/-- SLD (05 R138). -/
def execSld (f : WarpWord) (s : State) : Out :=
  runWord .sld f s (fun c s0 t =>
    let sp := spaceCode f
    let n := scaBytes f
    let core := c.wg.core
    match checkLanes s0 c.agent sp n .read false (scaAddr c f .sld) with
    | .trap tr => .trap tr
    | .hold h => .hold h
    | .stop => .stop .physicalHole
    | .ok ps =>
      if ps.any (fun p => p.key.any (fun k => warpAtomMeets s0 c.g c.w k p.bytes)) then .hold s0
      else
      let u := loadFills t c.agent sp {} ps
      .done (ps.foldl (fun v p => addLoad v c.agent [p] (askedPlaces t c.agent sp {} [p])
        { id := 0, since := 0, slices := [], reads := [], g := c.g, w := c.w, kind := .sld, space := sp, vecs := [], token := none
          dst := 255, width := 0
          scal := some (f.dst.toNat, sldValue n (f.mod.getLsbD 2) (loadNat t u core c.g c.w sp p)) }) u))

/-- SST (05 R138). -/
def execSst (f : WarpWord) (s : State) : Out :=
  runWord .sst f s (fun c s0 t =>
    let sp := spaceCode f
    let n := scaBytes f
    match checkLanes s0 c.agent sp n .write false (scaAddr c f .sst) with
    | .trap tr => .trap tr
    | .hold h => .hold h
    | .stop => .stop .physicalHole
    | .ok ps =>
      let t := issueStores (touchPlaces t c.agent ps) c.wg.core c.g c.w n {} ps (fun _ => (c.warp.sreg f.dst.toNat).toNat)
      .done (lampFlush s0 c.agent (spanFlush t c.wg.core c.g c.w)))

/-! ### Events -/

/-- LOAD_LANDS (07 R166): a load whose pseudo-channels are LIT lands. -/
def execLoadLands (id : Nat) (s : State) : Out :=
  match s.loads.find? (fun l => l.id = id && l.kind ≠ .lwld) with
  | none => .next s
  | some l => if (darkHbm s (l.reads.map (fun r => r.2.2.1))).isEmpty && loadGone s l then .next (landLoad s l) else .next s

/-- May an entry of the store queue be performed: nothing of its core that comes before it is pending (08 R210), its
pseudo-channels are LIT (07 R180), and no bank-lock span holds its banks (08 R233)? -/
def storeReady (s : State) (e : Store) : Bool := Access.ready s (.store e)

/-- STORE_PERFORMED (08 R211, 07 R197). -/
def execStorePerformed (id : Nat) (s : State) : Out :=
  match s.stores.find? (fun e => e.id = id && e.token.isNone) with
  | none => .next s
  | some e => if storeReady s e then .next (reapAll (performStore s e)) else .next s

end Sys2Proof.Machine
end

