-- ==== Sys2Proof/Machine/Sync.lean ====
section
/-!
DEFINITION. Atomics (08 R221 to R225), FENCE (08 R226), barriers (08 R227 to R230), BANKLOCK (08 R232, R233), timelines
(08 R234), with their events.
-/

namespace Sys2Proof.Machine

/-! ### Atomics -/

/-- The unit that executes an atomic at a key (08 R223): 0 to 7 hub dies, 8 + p vault controllers, 253 a peer's, 254 the
host, 255 the scratchpad. -/
def atomUnit (k : Nat) : Nat :=
  if isHbm k then hubOf k
  else if k < 2 ^ 57 then 8 + (k - 2 ^ 56) / 2 ^ 24
  else if k < 2 ^ 58 then 255
  else if isHostDev k then hubOf (k - 2 ^ 66)
  else if k < 2 ^ 80 then 254
  else 253

/-- May a group execute at its unit: nothing of its core that comes before it is pending (08 R208, R210), the table has room, and
its pseudo-channel is LIT? -/
def atomReady (s : State) (a : Atom) : Bool := Access.ready s (.atom a)

/-- Put a group in the list of requests; its handle is the next one. -/
def addAtom (s : State) (a : Atom) : State :=
  askPeer { s with atoms := s.atoms ++ [{ a with id := s.nextId, since := s.clock }], nextId := s.nextId + 1 }
    s.nextId (threadNum a.g a.w ((a.lanes.head?.map (·.1)).getD 0)) a.links a.key (atomBytes a.type)
    (if a.dst.isSome then atomBytes a.type else 0)

/-- Run groups at their units one after another, in the order of their lowest lanes; none when one may not run yet. The spec leaves the
order to the device: DESIGN CHOICE, log 69. -/
def runGroups : List Atom → State → Option State
  | [], s => some s
  | a :: rest, s =>
    let a' := { a with id := s.nextId, since := s.clock }
    if atomReady s a' then runGroups rest (applyAtom (addAtom s a) a') else none

/-- The groups of an atomic instruction (08 R222): one for each distinct address that is accessed. -/
def groupsOf (ps : List Place) (g w core op t : Nat) (dst : Option Nat) (data : Nat → Word64 × Word64) : List Atom :=
  (nub (ps.filterMap (fun p => p.key.map (fun k => (p.addr, k, p.links))))).map (fun q =>
    { id := 0, since := 0, core := core, g := g, w := w, op := op, type := t, key := q.2.1, va := q.1.toNat, dst := dst
      unit := atomUnit q.2.1, done := false, acq := none, links := q.2.2
      lanes := (ps.filter (fun p => p.key.isSome && p.addr = q.1)).map (fun p => (p.lane, data p.lane)) })

/-- Semantics field of an atomic: 0 relaxed, 1 .acq, 2 .rel, 3 .ar (08 R221). -/
def atomSem (f : WarpWord) : Nat := if f.l then extBits f 39 2 else 0

/-- An atomic instruction (08 R222): operation code (9 compare-and-swap), destination, data of a lane. A group of .p and the groups of
an instruction that acquires run as it issues, but for those of a peer's memory; the others are requests on their way, and where
the instruction acquires, its lanes' later accesses wait for them. -/
def runAtomic (op : Op) (f : WarpWord) (s : State) (k : Nat) (dst : Option Nat)
    (data : State → Ctx → Nat → Word64 × Word64) : Out :=
  runWord op f s (fun c s0 t =>
    let sp := if f.l then extBits f 37 2 else 0
    let ty := typeCode f
    let n := atomBytes ty
    let acq := atomSem f % 2 = 1
    if c.p = 0 then .done t
    else if 2 ≤ atomSem f ∧ !laneRelease s0 c.g c.w (modBits f 8 3) c.p then .hold s0
    else match checkLanes s0 c.agent sp n .atomic ((k = 0 || k = 6 || k = 9) && ty ≤ 3) (laneAddrs s0 c f sp) with
      | .trap tr => .trap tr
      | .hold h => .hold h
      | .stop => .stop .physicalHole
      | .ok ps =>
        -- a discarded lane of wrapped mode returns 0
        let t := match dst with
          | some d => vwrites t c.g c.w ((ps.filter (fun p => p.key.isNone)).flatMap (fun p => regWrites d p.lane (n / 4) 0))
          | none => t
        let t := touchPlaces t c.agent ps
        let gs := groupsOf ps c.g c.w c.wg.core k ty dst (data s0 c)
        if sp = 2 ∨ (acq ∧ !gs.any (fun a => onPeer a.key)) then
          match runGroups gs t with
          | some t => .done (if acq ∧ modBits f 8 3 ≠ 0 then acquire t c.wg.core else t)
          | none => .hold (touchPlaces s0 c.agent ps)
        else
          let gs := gs.map (fun a => { a with acq := if acq then some (modBits f 8 3) else none })
          .done (lampFlush s0 c.agent (gs.foldl addAtom t)))

/-- A value cut to an atomic's type. -/
def atomCut (f : WarpWord) (v : Word64) : Word64 := if atomBytes (typeCode f) = 8 then v else (v.setWidth 32).setWidth 64

/-- Data of ATOM and RED. -/
def atomData (f : WarpWord) (s : State) (c : Ctx) (i : Nat) : Word64 × Word64 := (atomCut f (opC s c f (tn f) i), 0)

/-- ATOM (08 R221, R222). -/
def execAtom (f : WarpWord) (s : State) : Out := runAtomic .atom f s (modBits f 4 4) (some f.dst.toNat) (atomData f)
/-- ATOM.CAS (08 R221, R222). -/
def execAtomCas (f : WarpWord) (s : State) : Out :=
  runAtomic .atomCas f s 9 (some f.dst.toNat) (fun s0 c i =>
    (vread64 s0 c.g c.w f.c.toNat i (tn f), vread64 s0 c.g c.w (f.c.toNat + tn f) i (tn f)))
/-- RED (08 R221, R222). -/
def execRed (f : WarpWord) (s : State) : Out := runAtomic .red f s (modBits f 4 4) none (atomData f)

/-- ATOMIC_REQUEST: a request reaches its unit and executes, once (08 R224). -/
def execAtomicRequest (id : Nat) (s : State) : Out :=
  match s.atoms.find? (fun a => a.id = id && !a.done) with
  | none => .next s
  | some a => if atomReady s a then .next (reapAll (applyAtom s a)) else .next s

/-- DEDUP_ACK: the source has the response, and the entry leaves the table (08 R224, R225). -/
def execDedupAck (id : Nat) (s : State) : Out :=
  .next { s with atoms := s.atoms.filter (fun a => !(a.id = id && a.done)), dedup := s.dedup.filter (fun d => d.id ≠ id) }

/-! ### FENCE -/

/-- FENCE (08 R212, R226): kind 0 .ar, 1 .acq, 2 .rel, 3 .sc. -/
def execFence (f : WarpWord) (s : State) : Out :=
  runWord .fence f s (fun c s0 t =>
    let kind := modBits f 0 2
    let scope := if kind = 3 then 4 else modBits f 8 3
    if kind ≠ 1 ∧ !laneRelease s0 c.g c.w scope c.frag then .hold s0
    else if kind ≠ 2 ∧ s0.atoms.any (fun a => !a.done && a.ofLanes c.g c.w c.frag) then .hold s0
    else .done (if kind ≠ 2 ∧ scope ≠ 0 then acquire t c.wg.core else t))

/-! ### Barriers -/

/-- The barrier that field a names. -/
def barOf (c : Ctx) (f : WarpWord) : Bar := getBar c.wg f.a.toNat

/-- Store the barrier that field a names. -/
def putBar (t : State) (c : Ctx) (f : WarpWord) (b : Bar) : State := modWg t c.g (fun x => setBar x f.a.toNat b)

/-- An instruction of the barrier class waits for its turn (08 R228), and then has its effect. -/
def runBar (op : Op) (f : WarpWord) (s : State) (eff : Ctx → State → State → Res) : Out :=
  runWord op f s (fun c s0 t => if barTurn s0 c.g c.w then eff c s0 (barPlace t c.g c.w) else .hold s0)

/-- BAR.INIT (08 R229). -/
def execBarInit (f : WarpWord) (s : State) : Out :=
  runBar .barInit f s (fun c s0 t =>
    let b := barOf c f
    let m := if modBits f 0 1 = 1 then liveSet s0 c.g else (sB c .barInit f).setWidth 16 &&& liveSet s0 c.g
    let e := modBits f 4 6
    if b.warr ≠ 0 ∨ b.ecnt ≠ 0 then .trap trapOperand
    else if m = 0 ∧ e = 0 then .trap trapOperand
    else .done (putBar t c f { b with enrol := m, eexp := e, leaving := 0, lastph := [], esat := false }))

/-- May a warp arrive at a barrier (08 R229)? -/
def mayArrive (b : Bar) (w : Nat) : Bool := b.init && b.enrol.getLsbD w && !b.warr.getLsbD w

/-- A warp's arrival (08 R229). -/
def Bar.arrive (b : Bar) (w : Nat) : Bar := { b with lastph := mset b.lastph w b.phase, warr := b.warr ||| warpBit w }

/-- BAR.ARRIVE (08 R229). -/
def execBarArrive (f : WarpWord) (s : State) : Out :=
  runBar .barArrive f s (fun c s0 t =>
    let b := barOf c f
    if !mayArrive b c.w then .trap trapOperand
    else if !releaseReady s0 c.g c.w 0 then .hold s0
    else .done (putBar (swrite t c.g c.w f.dst.toNat (BitVec.ofNat 64 b.phase)) c f (b.arrive c.w)))

/-- BAR.WAIT (08 R229). -/
def execBarWait (f : WarpWord) (s : State) : Out :=
  runBar .barWait f s (fun c _ t =>
    let p : Option Nat := if modBits f 0 1 = 1 then some (bits (sB c .barWait f).toNat 0 20) else mget (barOf c f).lastph c.w
    match p with
    | none => .trap trapOperand
    | some p => .done (waitOn t c.g c.w c.e (.bar f.a.toNat p)))

/-- BAR.SYNC (08 R229). -/
def execBarSync (f : WarpWord) (s : State) : Out :=
  runBar .barSync f s (fun c s0 t =>
    let b := barOf c f
    if !mayArrive b c.w then .trap trapOperand
    else if !releaseReady s0 c.g c.w 0 then .hold s0
    else
      let t := putBar (swrite t c.g c.w f.dst.toNat (BitVec.ofNat 64 b.phase)) c f (b.arrive c.w)
      .done (waitOn t c.g c.w c.e (.bar f.a.toNat b.phase)))

/-- The state of a barrier as BAR.QUERY returns it (08 R227). -/
def Bar.word (b : Bar) : Word64 :=
  BitVec.ofNat 64 (b.phase * 2 ^ 44 + b.eexp * 2 ^ 38 + min b.ecnt 63 * 2 ^ 32 + b.warr.toNat * 2 ^ 16 + b.enrol.toNat)

/-- BAR.QUERY (08 R229). -/
def execBarQuery (f : WarpWord) (s : State) : Out :=
  runBar .barQuery f s (fun c _ t => .done (swrite t c.g c.w f.dst.toNat (barOf c f).word))

/-- Do the conditions of a barrier's phase hold (08 R228)? -/
def phaseMet (s : State) (g b : Nat) : Bool := (getWg s g).any (fun x => (getBar x b).complete)

/-- Does a phase of a barrier complete in this cycle: its conditions hold, and none of its phases has completed in it (08 R228)? -/
def phaseDue (s : State) (g b : Nat) : Bool := phaseMet s g b && (mget s.marks (clsDone g b)).isNone

/-- A phase of a barrier completes (08 R228). -/
def completePhase (s : State) (g b : Nat) : State :=
  match getWg s g with
  | none => s
  | some x => wakeWg (takePlace (setWg s g (setBar x b (getBar x b).finish)) (clsDone g b) 0) g

/-- BARRIER_PHASE_COMPLETE: a phase whose conditions hold completes, at most one of a barrier in a cycle (08 R228). What is left of
the cycle brings no further operation of the workgroup's barriers. A phase that no such step has completed completes when the
cycle ends (Machine.tick). -/
def execBarrierPhaseComplete (g b : Nat) (s : State) : Out :=
  if phaseDue s g b then .next (takePlace (completePhase s g b) (clsBar g) 17) else .next s

/-- The barriers whose conditions hold. -/
def phasesMet (s : State) : List (Nat × Nat) :=
  (s.wgs.flatMap (fun p => p.2.bars.map (fun b => (p.1, b.1)))).filter (fun p => phaseMet s p.1 p.2)

/-- The barriers that have a phase to complete in this cycle. -/
def phasesDue (s : State) : List (Nat × Nat) := (phasesMet s).filter (fun p => phaseDue s p.1 p.2)

/-! ### BANKLOCK -/

/-- Is an access of another warp of a core to a bank of a mask issued and not performed (08 R233)? -/
def bankPending (s : State) (core who : Nat) (banks : BitVec 32) : Bool :=
  s.stores.any (fun e => e.core = core && warpKey e.g e.w ≠ who && e.cells.any (fun c => onBanks banks c.1 1)) ||
    s.atoms.any (fun a => !a.done && a.core = core && warpKey a.g a.w ≠ who && onBanks banks a.key (atomBytes a.type))

/-- BANKLOCK (08 R232, R233): the accesses of other warps to its banks that are under way are performed before it issues, where none
must be left to the span's end. -/
def execBanklock (f : WarpWord) (s : State) : Out :=
  runWord .banklock f s (fun c s0 t =>
    let banks : BitVec 32 := (sB c .banklock f).setWidth 32
    let k := warpKey c.g c.w
    if (getCore s0 c.wg.core).spans.any (fun sp => sp.open s0.clock && sp.warp ≠ k && sp.banks &&& banks ≠ 0) then .hold s0
    else if bankPending s0 c.wg.core k banks then .hold s0
    else if !inOrder s0 (clsBank c.wg.core) c.warp.lg then .hold s0
    else .done (modCore (takePlace t (clsBank c.wg.core) c.warp.lg) c.wg.core (fun x =>
      { x with spans := x.spans.filter (fun sp => sp.warp ≠ k) ++ [⟨k, banks, modBits f 0 4, s0.clock⟩] })))

/-- BANKLOCK_SPAN_END: a span that has ended 256 cycles after its BANKLOCK issued holds nothing any more (Span.open), and is
forgotten (08 R232). -/
def execBanklockSpanEnd (core g w : Nat) (s : State) : Out :=
  .next (modCore s core (fun x =>
    { x with spans := x.spans.filter (fun sp => !(sp.warp = warpKey g w && !sp.open s.clock)) }))

/-! ### Timelines -/

/-- A timeline of a workgroup: false tlc, true tla (08 R214). -/
def timelineOf (x : Wg) (anvil : Bool) : Timeline := if anvil then x.tla else x.tlc

/-- TLWAIT (08 R234). -/
def execTlwait (f : WarpWord) (s : State) : Out :=
  runWord .tlwait f s (fun c _ t =>
    let n := (sB c .tlwait f).toNat
    let anv := modBits f 0 1 = 1
    if (timelineOf c.wg anv).issued < n then .trap trapOperand
    else if n = 0 then .done t
    else .done (waitOn t c.g c.w c.e (.timeline anv n)))

/-- TLREAD (08 R234). -/
def execTlread (f : WarpWord) (s : State) : Out :=
  runWord .tlread f s (fun c _ t =>
    let tl := timelineOf c.wg (modBits f 0 1 = 1)
    .done (swrite t c.g c.w f.dst.toNat (BitVec.ofNat 64 (if modBits f 1 1 = 1 then tl.issued else tl.done))))

end Sys2Proof.Machine
end

