-- ==== Sys2Proof/Machine/Fetch.lean ====
section
/-!
DEFINITION. Fetching (02 R22, R23, 14 R323, R347): the bytes at a program counter, through the instruction cache.
-/

namespace Sys2Proof.Machine

/-- How a fetch ends. -/
inductive Fetched where
  /-- The bytes as a little-endian number, and the state with their line in the instruction cache. -/
  | ok (v : Nat) (s : State)
  /-- The first word has been fetched, and the fetch of its extension word traps. -/
  | part (w : Nat) (t : Trap) (s : State)
  | trap (t : Trap) (s : State)
  | hold (s : State)
  | stop

/-- A trap of the fetch at an address: ORIGIN 1. -/
def fetchTrap (cause sub pc : Nat) : Trap :=
  { cause := cause, sub := sub, origin := 1, space := 0, faddr := BitVec.ofNat 64 pc }

/-- Is a granule of the line of a key poisoned? Such a line is not kept in the instruction cache, so that a later fetch of its
poisoned bytes meets them (14 R338). -/
def linePoisoned (s : State) (key : Nat) : Bool :=
  let base := key / 128 * 128
  poisonedAt s base 64 || poisonedAt s (base + 64) 64

/-- n bytes, all in one line, at a program counter of a warp of workgroup x; an uncached host page is read as it is (07
R174). A fetch waits in the queue of its pseudo-channel (07 R180), and from a peer page for its line over the window's link (15 R362,
R363). -/
def fetchAt (s : State) (x : Wg) (who pc n : Nat) : Fetched :=
  if !canonical pc then .trap (fetchTrap 2 2 pc) s
  else match xlate s x.core x.asid who pc .fetch false with
    | .fault c sub => .trap (fetchTrap c sub pc) s
    | .miss => .hold (requestWalk s x.core x.asid who pc)
    | .hole => .stop
    | .ok key _ =>
      if (getCore s x.core).icache.contains (key / 128) then .ok (readNat s.mem (icKey x.core key) n) s
      else
        let q := fetchWho ((s.issuer.map (fun i => fragWho i.g i.w i.e)).getD (32 * who))
        let us := (unitOf key).toList
        let acc := syncAcc who false
        if lampHeld s q us then .hold (lampJoin s q us)
        else if !reqGone s acc key then .hold (askPeer s acc (syncAgent who) (linksAt s x.core x.asid pc) key 0 128)
        else
          let s := touchAll (lampLeave (endAccess s acc) q) us
          if poisonedAt s key n then .trap (fetchTrap 0x0B 3 pc) (askAll s [key])
          else if !l1Able key || linePoisoned s key then .ok (pocNat s key n) (askAll s [key])
          else
            let s := fillI s x.core key
            .ok (readNat s.mem (icKey x.core key) n) s

/-- The warp word at a program counter and, where it has one, its extension word. -/
def fetchWord (s : State) (x : Wg) (who pc : Nat) : Fetched :=
  match fetchAt s x who pc 8 with
  | .ok w s =>
    if w.testBit 62 then
      match fetchAt s x who ((pc + 8) % 2 ^ 64) 8 with
      | .ok e s => .ok (w + e * 2 ^ 64) s
      | .trap t s => .part w t s
      | r => r
    else .ok w s
  | r => r

/-- The bundle at a program counter. -/
def fetchBundle (s : State) (x : Wg) (who pc : Nat) : Fetched := fetchAt s x who pc 128

end Sys2Proof.Machine
end

