-- ==== Sys2Proof/Machine/Traps.lean ====
section
/-!
DEFINITION. TRAP, BRK, TRAP.RET (14 R333 to R335), VARY (16 R375), the traps of an instruction boundary (14 R325), and the
events TRAP_ENTRY and LATE_FAULT (14 R327, R336).
-/

namespace Sys2Proof.Machine

/-- TRAP (14 R334). -/
def execTrap (f : WarpWord) (s : State) : Out :=
  runWord .trap f s (fun c _ t =>
    if f.guard = 0 ∨ c.p ≠ 0 then .trap { cause := 9, sub := imm16 f, aux := imm16 f } else .done t)

/-- BRK (14 R334). -/
def execBrk (f : WarpWord) (s : State) : Out :=
  runWord .brk f s (fun _ _ _ => .trap { cause := 8, sub := 2, aux := imm16 f })

/-- What TRAP.RET reads in the frame: offset and bytes; for a commit of RESULT, the lanes and their bytes; for a kill, what its record
names (14 R335, R341). -/
def retReads (mode width : Nat) (lanes : Lanes) : List (Nat × Nat) :=
  if mode = 2 then [(0x000, 16), (0x038, 8)]
  else [(if mode = 0 then 0x008 else 0x010, 8), (0x028, 8), (0x040, 8), (0x080, 60)] ++
    (if width = 0 then [] else (lanesOf lanes).map (fun i => (0x500 + 16 * i, 4 * retRegs width)))

/-- The words of a frame that are read, as a lane's accesses. -/
def retWords (fr : Nat) (rs : List (Nat × Nat)) : List (Nat × Word64) :=
  rs.flatMap (fun r => (List.range (r.2 / 4)).map (fun j => (0, BitVec.ofNat 64 (fr + r.1 + 4 * j))))

/-- The key of a frame, whose words lie at places (14 R322). -/
def frameKey (fr : Nat) (ps : List Place) : Nat :=
  ((ps.head?).bind (fun p => p.key.map (fun k => k - (p.addr.toNat - fr)))).getD 0

/-- The vector registers that a commit writes: from INFO.DST on (14 R329, R335). -/
def retVecs (s : State) (c : Ctx) (key width : Nat) : List Nat :=
  let d := bits (frameNat s c.wg.core c.g c.w key 0x040 8) 0 8
  (List.range (retRegs width)).map (fun j => d + j)

/-- Is a word among places poisoned (14 R338)? -/
def wordsBad (s : State) (ps : List Place) : Bool := ps.any (fun p => p.key.any (fun k => poisonedAt s k 4))

/-- TRAP.RET.kill: the workgroup ends, with the frame's cause word, PC and faulting address in its record, read at its key; free values
where the frame cannot be read (14 R335, R341; log 55). -/
def killByRet (t : State) (c : Ctx) (frame : Option Nat) : State :=
  match frame with
  | some key =>
    let rd (off : Nat) : Nat := frameNat t c.wg.core c.g c.w key off 8
    killWg t c.g c.w 2 0 (rd 0) (BitVec.ofNat 64 (rd 8)) (BitVec.ofNat 64 (rd 0x38))
  | none =>
    let (a, t) := freshFree t
    let (b, t) := freshFree t
    let (d, t) := freshFree t
    killWg t c.g c.w 2 0 a.toNat b d

/-- TRAP.RET (14 R335): it reads the frame's words as loads of its warp, after the warp's earlier stores and atomics. -/
def execTrapRet (f : WarpWord) (s : State) : Out :=
  runWord .trapRet f s (fun c s0 t =>
    let mode := modBits f 0 2
    let width := modBits f 2 2
    let commit : Lanes := (sB c .trapRet f).setWidth 32
    if c.warp.bank.isNone then .trap trapOperand
    else if returning s0 c.g c.w then .hold s0
    else
      let fr := frameAddr s0 c.wg c.w
      match checkLanes s0 c.agent 0 4 .read false (retWords fr (retReads mode width (commit &&& trappedMask c.warp))) with
      | .trap tr => if mode = 2 then .done (killByRet (if tr.cause = 2 then freeze t 3 else t) c none) else .trap tr
      | .hold h => .hold h
      | .stop => if mode = 2 then .done (killByRet t c none) else .stop .physicalHole
      | .ok ps =>
        if ps.any (fun p => p.key.any (fun k => warpAtomMeets s0 c.g c.w k 4)) then .hold s0
        else if !nowGone s0 c 0 ps then .hold (askNow s0 c 0 ps)
        else
          let u := readNow t c 0 ps
          if mode = 2 then .done (killByRet u c (if wordsBad s0 ps then none else some (frameKey fr ps)))
          else if wordsBad s0 ps then .trapOn (readNow s0 c 0 ps) { cause := 0x0B, sub := 1, origin := 2, space := 0, faddr := BitVec.ofNat 64 fr }
          else if width ≠ 0 && xWaits s0 c (retVecs u c (frameKey fr ps) width) then .hold s0
          else .done (returnTrap u c (frameKey fr ps) mode width commit))

/-- VARY (16 R375). -/
def execVary (f : WarpWord) (s : State) : Out :=
  runWord .vary f s (fun c s0 t =>
    let o := (sA c f).toNat % 2 ^ 32
    let i := (getLg s0 c.wg.core c.warp.lg).plevel % 4
    let nb := nodeBits s0 c.wg
    if nd nb 288 17 < o + 8 * i + 8 then .trap trapOperand
    else if o % 8 ≠ 0 then .trap { cause := 5, space := 3, faddr := BitVec.ofNat 64 o }
    else
      let lane := (lowest c.frag).getD 0
      match checkLanes s0 c.agent 3 8 .read false [(lane, BitVec.ofNat 64 (o + 8 * i))] with
      | .trap tr => .trap tr
      | .hold h => .hold h
      | .stop => .stop .physicalHole
      | .ok ps =>
        let e := nd nb 64 64 + o + 8 * i
        if !nowGone s0 c 3 ps then .hold (askNow s0 c 3 ps)
        else if ps.any (fun p => p.key.any (fun k => poisonedAt s0 k 8)) then
          .hold (addLate s0 c.g c.w { addr := BitVec.ofNat 64 e, lanes := laneBit lane, dst := 255, width := 0,
                                      cause := 0x0B, sub := 1, space := 0, token := none })
        else
          let u := readNow t c 3 ps
          let v := (ps.map (loadNat t u c.wg.core c.g c.w 3)).foldl (· + ·) 0
          let tgt : Word64 := BitVec.ofNat 64 (e + v)
          if badPc tgt then .trap (trapTarget tgt) else .done (setPc u c.g c.w c.e tgt))

/-! ### The traps of a boundary (14 R325) -/

/-- The trap of a late fault (14 R336). -/
def Late.trap (l : Late) : Trap :=
  { cause := l.cause, sub := l.sub, origin := 2, space := l.space, flanes := some l.lanes, faddr := l.addr }

/-- The first late fault that a boundary meets: one of an LW.LD only where the bundle waits for its token (14 R336). -/
def pendingLate (x : Warp) (waits : Nat → Bool) : Option Late := x.late.find? (fun l => l.token.all waits)

/-- The trap that waits at the next boundary of a warp: a late fault, then an engine fault (14 R336, R339). The late fault
of an LW.LD waits for a bundle that waits on its token: `waits` says which tokens the bundle names. One whose token only the drain of
MODE.SIMT awaits (06 R160) is met at no later boundary: DESIGN CHOICE, log 56. -/
def pendingTrap (x : Warp) (waits : Nat → Bool) : Option Trap :=
  match pendingLate x waits with
  | some l => some l.trap
  | none =>
    match x.engine with
    | (anvil, f) :: _ =>
      some { cause := 0x0C, sub := bits f.word.toNat 4 4, origin := if anvil then 4 else 3, space := f.space,
             flanes := some 0, faddr := f.faddr, aux := f.word.toNat }
    | [] => none

/-- The site of a boundary trap of a fragment, with the warp word at PC and its extension word (14 R329). -/
def fragSite (g w e : Nat) (x : Warp) (fr : Frag) (v : Nat) : Site :=
  let word : Word64 := BitVec.ofNat 64 v
  let ext : Word64 := BitVec.ofNat 64 (v / 2 ^ 64)
  { boundarySite g w (some e) fr.pc (fr.mask &&& x.wmask) x.wmask (fr.mask &&& x.wmask) 0 with
    word := word, extw := ext, dst := (wordFields word ext).dst.toNat }

/-- The trap that a READY fragment of a warp takes instead of its next instruction; none when there is none. The word at PC
is fetched for the frame; where it cannot be, the frame holds 0. A late fault of the handler's own is a double fault (14 R328,
R340), and one of translation freezes the recorders (16 R380). -/
def boundaryTrap (s : State) (g w e : Nat) : Option Out :=
  match getWg s g, getWarp s g w with
  | some y, some x =>
    match x.bank with
    | some b => ((pendingLate x (fun _ => false)).map (fun l =>
        .next (clearIssuer (doubleFault (if l.cause = 2 then freeze s 3 else s) g w 3 l.trap.word b.pc l.addr))))
    | none =>
    match x.due with
    | some (t, a) => some (takeTrap s t a)
    | none =>
    match mget x.frags e, pendingTrap x (fun _ => false) with
      | some fr, some t =>
        if fr.state = .ready then
          match fetchWord s y (warpKey g w) fr.pc.toNat with
          | .ok v s => some (takeTrap s t (fragSite g w e x fr v))
          | .part v _ s => some (takeTrap s t (fragSite g w e x fr v))
          | .hold h => some (.next h)
          | _ => some (takeTrap s t (fragSite g w e x fr 0))
        else none
      | _, _ => none
  | _, _ => none

/-- TRAP_ENTRY: the lowest READY fragment of a warp takes the trap that is due (14 R325, R327). -/
def execTrapEntry (g w : Nat) (s : State) : Out :=
  match getWarp s g w with
  | none => .next s
  | some x =>
    if x.lw.isSome || !((getWg s g).any (fun y => y.mayIssue && !lwOn s y.core x.lg)) then .next s
    else match x.frags.find? (fun q => q.2.state = .ready) with
      | none => .next s
      | some q => (boundaryTrap s g w q.1).getD (.next s)

/-- Mark the granule of a key poisoned (14 R337). -/
def markPoison (s : State) (k : Nat) : State :=
  if s.poison.contains (granule k) then s else { s with poison := s.poison ++ [granule k] }

/-- PC of the frame in which a warp takes a fault that becomes known now: the handler's or the thread's next instruction, else that of
the READY fragment of the lowest entry (14 R329, R342). -/
def warpPc (s : State) (g w : Nat) : Word64 :=
  match getWarp s g w with
  | none => 0
  | some x => match x.bank, x.lw with
    | some b, _ => b.pc
    | none, some l => l.pc
    | none, none => ((((x.frags.find? (fun q => q.2.state = .ready)) <|> x.frags.head?).map (·.2.pc))).getD 0

/-- A lasting error of a warp's access (14 R337, R342). -/
def lastingError (s : State) (g w k : Nat) (sub : Nat) (addr space : Nat) : State :=
  match getWg s g with
  | some x =>
    storeFault (markPoison s k) x 3 0 (0x0B + sub * 2 ^ 8 + space * 2 ^ 16 + 2 * 2 ^ 20) (warpPc s g w) (BitVec.ofNat 64 addr) w
  | none => markPoison s k

/-- An atomic that is refused after its issue: a late fault, the location unchanged (14 R336, 15 R360). -/
def refuseAtom (s : State) (a : Atom) (cause sub : Nat) : State :=
  let s := { s with atoms := s.atoms.filter (fun x => x.id ≠ a.id) }
  addLate s a.g a.w
    { addr := BitVec.ofNat 64 a.va, lanes := maskOf (a.lanes.map (·.1)), dst := a.dst.getD 255,
      width := if a.dst.isNone then 0 else atomBytes a.type / 4, cause := cause, sub := sub, space := 0, token := none }

/-- LATE_FAULT: a lasting error (POISON), or a refused PRI request (TRANSLATION PRI), of a load or an atomic in flight
becomes known (14 R336, R337). -/
def execLateFault (id cause sub : Nat) (s : State) : Out :=
  match s.loads.find? (fun l => l.id = id), s.atoms.find? (fun a => a.id = id && !a.done) with
  | some l, _ =>
    if cause = 0x0B ∧ sub = 1 then
      match l.reads with
      | r :: _ => .next (landLoad (lastingError s l.g l.w r.2.2.1 1 r.2.1 l.space) l)
      | [] => .next s
    else if cause = 2 ∧ sub = 6 then
      match (l.reads.filter (fun r => 2 ^ 65 ≤ r.2.2.1 && r.2.2.1 < 2 ^ 67)).map (fun r => (r.1, r.2.1)) with
      | [] => .next s
      | bad => .next (faultLoad s l bad 2 6)
    else .next s
  | none, some a =>
    if cause = 0x0B ∧ sub = 2 then .next (reapAll (applyAtom (lastingError s a.g a.w a.key 2 a.va (keySpace a.key)) a))
    else if cause = 2 ∧ sub = 6 ∧ 2 ^ 65 ≤ a.key ∧ a.key < 2 ^ 67 then
      .next (reapAll (refuseAtom s a 2 6))
    else .next s
  | none, none => .next s

end Sys2Proof.Machine
end

