-- ==== Sys2Proof/Machine/Records.lean ====
section
/-!
DEFINITION. The work-creation class (13 R308 to R318): records, SPAWN, register pools, notify registers; and
PENDING_SPAWN_START and LIMEWASH_GRANULE_CLEAR.
-/

namespace Sys2Proof.Machine

/-! ### Records -/

/-- How an allocation of n records of a node ends (13 R295, R298, R306): the state and the address of the first header. -/
def allocate (s : State) (g rnum node n : Nat) (spill mayRing : Bool) : Option (State × Nat) :=
  match mget s.regions rnum, getNode s rnum node with
  | some r, some d =>
    let resv (s : State) (a : Nat) : State := modWg s g (fun x => { x with resv := x.resv ++ [⟨a, node, n⟩] })
    if mayRing && ringTakes d n then
      let (d', a) := ringTake d n
      some (resv (modNode s rnum node (fun _ => freeSlots d')) a, a)
    else if spill then
      match spillFind r (recSize d.bits) n with
      | some a =>
        let recs := (List.range n).map (fun i => Rec.fresh (a + i * recSize d.bits) none .reserved)
        some (resv (modNode s rnum node (fun d => { d with recs := d.recs ++ recs })) a, a)
      | none => none
    else none
  | _, _ => none

/-- The ticket of a fragment that waits in REC.ALLOC.w. -/
def allocTicket (x : Warp) (e : Nat) : Option Nat :=
  match mget x.frags e with
  | some fr => (match fr.state with
      | .blocked (.alloc t _ _ _ _) => some t
      | _ => none)
  | none => none

/-- Is a waiter the fragment's own? -/
def isWaiter (k t : Nat) (v : Waiter) : Bool :=
  match v with
  | .frag w u => w = k && u = t
  | .bell _ => false

/-- Does a fragment stand first in the order of waiting of a node's queue (13 R306)? -/
def firstWaiter (d : Node) (g w ticket : Nat) : Bool := d.waiters.head?.any (isWaiter (warpKey g w) ticket)

/-- A fragment BLOCKED in REC.ALLOC.w goes round its loop again (13 R309): first in the order of waiting, it takes its records once
they fit, and goes on past its word; the state keeps the issuer where it does not. -/
def serveAlloc (s : State) (g w e : Nat) : Out :=
  match getWg s g, getWarp s g w with
  | some x, some p =>
    match (mget p.frags e).map (·.pc), waitOf p e with
    | some pc, some (.alloc k node n spill dst) =>
      match getNode s x.rnum node with
      | none => .next s
      | some d =>
        if !firstWaiter d g w k || !inOrder s clsAlloc (1 + 4 * x.core + p.lg) then .next s
        else
          let t := modNode (setPc (modWarp s g w (fun q => readyFrag q e)) g w e (pc + 16)) x.rnum node
            (fun d => { d with waiters := d.waiters.filter (fun v => !isWaiter (warpKey g w) k v) })
          match allocate t g x.rnum node n spill true with
          | some (t, a) => .next (clearIssuer (swrite (takePlace t clsAlloc (1 + 4 * x.core + p.lg)) g w dst (BitVec.ofNat 64 a)))
          | none => .next s
    | _, _ => .next s
  | _, _ => .next s

/-- The node index of REC.ALLOC, none where s<a> holds more (13 R309). -/
def allocNode (c : Ctx) (f : WarpWord) : Option Nat :=
  if modBits f 2 1 = 1 then (if (sA c f).toNat < 1024 then some (sA c f).toNat else none) else some (extBits f 32 10)

/-- The place of a fragment's allocation among those of one cycle: after the doorbells, by core and lane group (13 R306). -/
def allocPlace (c : Ctx) : Nat := 1 + 4 * c.wg.core + c.warp.lg

/-- REC.ALLOC (13 R306, R309): a request that waits is served by serveAlloc. -/
def execRecAlloc (f : WarpWord) (s : State) : Out :=
  runWord .recAlloc f s (fun c s0 t =>
    let ret (t : State) (v : Nat) : Res := .done (swrite t c.g c.w f.dst.toNat (BitVec.ofNat 64 v))
    let n := if immBit f then imm32 f else (sB c .recAlloc f).toNat
    if c.p = 0 then ret t 0
    else match allocNode c f with
      | none => .trap trapOperand
      | some N =>
        match getNode s0 c.wg.rnum N with
        | none => .trap trapOperand
        | some d =>
          let spill := modBits f 1 1 = 1
          if n = 0 ∨ 256 < n then .trap trapOperand
          else if nd d.bits 368 6 < c.wg.depth + 1 then ret t 2
          else if 8 ≤ c.wg.resv.length then ret t 3
          else if !inOrder s0 clsAlloc (allocPlace c) then .hold s0
          else
            match allocate t c.g c.wg.rnum N n spill d.waiters.isEmpty with
            | some (t, a) => ret (takePlace t clsAlloc (allocPlace c)) a
            | none =>
              if modBits f 0 1 = 0 then ret (takePlace t clsAlloc (allocPlace c)) 1
              else
                let k := s0.nextId
                let h := takePlace (countSpan { s0 with nextId := k + 1 } c .recAlloc f) clsAlloc (allocPlace c)
                .done (modNode (blockFrag h c.g c.w c.e (.alloc k N n spill f.dst.toNat)) c.wg.rnum N
                  (fun d => { d with waiters := d.waiters ++ [.frag (warpKey c.g c.w) k] })))

/-- The reservation of a workgroup at an address. -/
def resvAt (x : Wg) (a : Nat) : Option Resv := x.resv.find? (fun r => r.addr = a)

/-- The header that a commit leaves (13 R294): the 16 bytes there with the RO fields written. -/
def commitHeader (old src seq depth node : Nat) (spill : Bool) : Nat :=
  let keep := bits old 24 1 * 2 ^ 24 + bits old 32 32 * 2 ^ 32
  node % 1024 + depth % 64 * 2 ^ 16 + (if spill then 2 ^ 25 else 0) + keep + seq % 2 ^ 48 * 2 ^ 64 + src * 2 ^ 112

/-- The next sequence number of a producer (13 R294). -/
def seqOf (s : State) (src : Nat) : Nat := mgetD s.recSeq src 0

/-- Commit the record at an address (13 R294, R296). -/
def commitRec (s : State) (asid src depth rnum node a : Nat) : State :=
  let s := askAll s (contextKey s asid a).toList
  let old := contextNat s asid a 16
  let spill := match getNode s rnum node with
    | some d => d.recs.any (fun r => r.addr = a && !r.finished && r.pos.isNone)
    | none => false
  let range := bits old 24 1 = 1
  let count := bits old 32 32
  let s' := contextWrite s asid a (natBytes 16 (commitHeader old src (seqOf s src) depth node spill))
  let s' := { s' with recSeq := mput s'.recSeq src (seqOf s src + 1) 0, nextId := s'.nextId + 1 }
  modNode s' rnum node (fun d => refill (freeSlots { d with recs := d.recs.map (fun r =>
    if r.addr = a && !r.finished then
      { r with state := if range && count = 0 then .consumed else .waiting, commit := s.clock, order := s.nextId,
               range := range, count := if range then count else 0, depth := depth }
    else r) }) s.clock)

/-- Commit the first k of n records from an address, all of them for k = 0, and abort the rest (13 R310). -/
def commitAll (s : State) (asid src depth rnum node a n k : Nat) : State :=
  match getNode s rnum node with
  | none => s
  | some d =>
    let rs := recSize d.bits
    let m := if k = 0 then n else k
    let s := (List.range m).foldl (fun s i => commitRec s asid src depth rnum node (a + i * rs)) s
    abortRecs s asid rnum node (a + m * rs) (n - m)

/-- End a reservation. -/
def dropResv (s : State) (g a : Nat) : State := modWg s g (fun x => { x with resv := x.resv.filter (fun r => r.addr ≠ a) })

/-- The effect of a commit by a workgroup, with the L1 copies of the headers gone (13 R310). -/
def commitResv (s : State) (g : Nat) (x : Wg) (r : Resv) (k : Nat) : State :=
  dropResv (dropL1 (commitAll s x.asid x.core (x.depth + 1) x.rnum r.node r.addr r.n k) x.core (fun _ => true)) g r.addr

/-- Scope of a commit: the suffix, or the node's CSCOPE (13 R310). -/
def commitScope (s : State) (x : Wg) (r : Resv) (explicit : Bool) (scope : Nat) : Nat :=
  if explicit then scope else ((getNode s x.rnum r.node).map (fun d => nd d.bits 355 3)).getD 4

/-- The leader of a mask: its lowest lane (02 R28). -/
def leaderOf (m : Lanes) : Lanes := laneBit ((lowest m).getD 0)

/-- REC.COMMIT (13 R310). -/
def execRecCommit (f : WarpWord) (s : State) : Out :=
  runWord .recCommit f s (fun c s0 t =>
    let k := extBits f 32 9
    if c.p = 0 then .done t
    else match resvAt c.wg (sA c f).toNat with
      | none => .trap trapOperand
      | some r =>
        let pages := resvMiss s0 (warpKey c.g c.w) c.wg r
        if r.n < k then .trap trapOperand
        else if !laneRelease s0 c.g c.w (commitScope s0 c.wg r (modBits f 11 1 = 1) (modBits f 8 3)) (leaderOf c.p) then .hold s0
        else if !pages.isEmpty then .hold (askPieces s0 c.wg.core c.wg.asid (warpKey c.g c.w) pages)
        else .done (commitResv (pieceDone t (warpKey c.g c.w)) c.g c.wg r k))

/-- REC.ABORT (13 R311). -/
def execRecAbort (f : WarpWord) (s : State) : Out :=
  runWord .recAbort f s (fun c s0 t =>
    if c.p = 0 then .done t
    else match resvAt c.wg (sA c f).toNat with
      | none => .trap trapOperand
      | some r =>
        let pages := resvMiss s0 (warpKey c.g c.w) c.wg r
        if !pages.isEmpty then .hold (askPieces s0 c.wg.core c.wg.asid (warpKey c.g c.w) pages)
        else .done (dropResv (abortRecs (pieceDone t (warpKey c.g c.w)) c.wg.asid c.wg.rnum r.node r.addr r.n) c.g r.addr))

/-- REC.INFO.q (13 R312). -/
def queueInfo (d : Node) (x : Wg) : Nat :=
  (d.tail - d.head) + (d.recs.filter (fun r => r.state = .waiting)).length * 2 ^ 25 + x.resv.length * 2 ^ 50

/-- REC.INFO (13 R312). -/
def execRecInfo (f : WarpWord) (s : State) : Out :=
  runWord .recInfo f s (fun c s0 t =>
    let ret (v : Nat) : Res := .done (swrite t c.g c.w f.dst.toNat (BitVec.ofNat 64 v))
    let i := (sB c .recInfo f).toNat
    match modBits f 0 2 with
    | 0 => ret (c.wg.batch.getD i 0)
    | 1 => match getNode s0 c.wg.rnum i with
      | none => .trap trapOperand
      | some d => ret (queueInfo d c.wg)
    | _ => match mget s0.regions c.wg.rnum with
      | none => ret 0
      | some r => ret (((spilled r).map (·.2)).foldl (· + ·) 0 + rcb r.bits 192 32 * 2 ^ 32))

/-! ### Warps (04 R89 to R91, 13 R313, R314) -/

/-- Does a workgroup occupy its core? -/
def Wg.onCore (x : Wg) : Bool :=
  match x.status with
  | .saved _ _ _ => false
  | _ => true

/-- Workgroups that occupy a core. -/
def wgsOn (s : State) (core : Nat) : List (Nat × Wg) := s.wgs.filter (fun p => p.2.core = core && p.2.onCore)

/-- Warps that occupy a lane group. -/
def warpsOn (s : State) (core lg : Nat) : List (Nat × Warp) :=
  s.warps.filter (fun p => p.2.lg = lg && (match getWg s (p.1 / 16) with
    | some x => x.core = core && x.onCore
    | none => false))

/-- Free granules of a lane group (04 R89, 13 R315). -/
def freeGranules (s : State) (core lg : Nat) : Nat :=
  64 - ((warpsOn s core lg).map (fun p => p.2.alloc / 8)).foldl (· + ·) 0 -
    ((wgsOn s core).map (fun p => mgetD p.2.pools lg 0)).foldl (· + ·) 0

/-- The free warp slots of a lane group. -/
def freeWarpSlots (s : State) (core lg : Nat) : List Nat :=
  (List.range 16).filter (fun k => !(warpsOn s core lg).any (fun p => p.2.slot = k))

/-- A free choice among the elements of a list (log 13). -/
def pickFree {α : Type} (l : List α) (d : α) (s : State) : α × State :=
  (l.getD ((Config.freeValue s.freeCtr).toNat % l.length) d, { s with freeCtr := s.freeCtr + 1 })

/-- Lane groups of a core with a free warp slot and room for a number of granules. -/
def fittingLgs (s : State) (core ag : Nat) : List Nat :=
  (List.range 4).filter (fun lg => !(freeWarpSlots s core lg).isEmpty && ag ≤ freeGranules s core lg)

/-- A warp in the state of 04 R91, with its stochastic registers (03 R75). -/
def newWarp (w lg slot alloc role : Nat) (pc : Word64) : Warp where
  lg := lg
  slot := slot
  alloc := alloc
  role := role
  xlg := lg
  frags := [(0, ⟨pc, 0, 0xFFFFFFFF, 0, 0, .ready, 0, false⟩)]
  wmask := 0xFFFFFFFF
  vregs := []
  sregs := []
  mregs := []
  fpstat := 0
  sf := false
  seeds := (List.range 32).map (fun i => (i, BitVec.ofNat 32 (0x5EED0000 + 32 * w + i)))
  poisoned := []
  bank := none
  tcount := 0
  late := []
  lw := none
  vals := []
  washing := true
  engine := []
  due := none
  issued := 0

/-- Start a warp on a lane group: its granules are queued for clearing (04 R90). -/
def startWarp (s : State) (g w core lg : Nat) (x : Warp) : State :=
  modLg (setWarp s g w x) core lg (fun l =>
    { l with wash := l.wash ++ (List.range (x.alloc / 8)).map (fun i => (warpKey g w, i)) })

/-- Start a child on one of the lane groups that fit it, a free choice (log 13); none when none fits. -/
def startChild (s : State) (core : Nat) (p : Pending) : Option State :=
  match fittingLgs s core p.ag with
  | [] => none
  | ls =>
    let (lg, s) := pickFree ls 0 s
    let (slot, s) := pickFree (freeWarpSlots s core lg) 0 s
    let x := newWarp p.w lg slot (8 * p.ag) p.role p.pc
    some (startWarp s p.g p.w core lg { x with vals := p.vals })

/-- WARPIDs of a workgroup that are live or pending. -/
def takenIds (s : State) (g : Nat) : List Nat :=
  liveWarps s g ++ ((getCore s (coreOf s g)).spawns.filter (fun p => p.g = g)).map (·.w)

/-- The values of eight registers of every lane, by the keys of v0 to v7 (13 R313). -/
def spawnVals (s : State) (c : Ctx) (f : WarpWord) : SMap Word32 :=
  ((List.range 8).flatMap (fun j => (List.range 32).map (fun i => (32 * j + i, vread s c.g c.w (f.a.toNat + j) i)))).foldl
    (fun m p => mput m p.1 p.2 0) []

/-- SPAWN (13 R313). -/
def execSpawn (f : WarpWord) (s : State) : Out :=
  runWord .spawn f s (fun c s0 t =>
    let ret (t : State) (v : Nat) : Res := .done (swrite t c.g c.w f.dst.toNat (BitVec.ofNat 64 v))
    let tgt := c.pc + disp f 0
    let taken := takenIds s0 c.g
    if c.p = 0 then ret t 0
    else if badPc tgt then .trap (trapTarget tgt)
    else match (List.range 16).find? (fun w => !taken.contains w) with
      | none => ret t 4
      | some w =>
        if !laneRelease s0 c.g c.w 0 (leaderOf c.p) then .hold s0
        else
          let p : Pending := ⟨c.g, w, tgt, extBits f 32 8, extBits f 40 5, spawnVals s0 c f⟩
          match startChild t c.wg.core p with
          | some t => ret t (1 + w * 2 ^ 8)
          | none =>
            if (getCore s0 c.wg.core).spawns.length < Config.spawnStore then
              ret (modCore t c.wg.core (fun k => { k with spawns := k.spawns ++ [p] })) (2 + w * 2 ^ 8)
            else ret t 3)

/-- PENDING_SPAWN_START: the oldest entry that fits is served (13 R314). -/
def execPendingSpawnStart (core : Nat) (s : State) : Out :=
  let fits (p : Pending) : Bool :=
    !(fittingLgs s core p.ag).isEmpty && ((getWg s p.g).map Wg.isResident).getD false
  match (getCore s core).spawns.find? fits with
  | none => .next s
  | some p =>
    match startChild s core p with
    | none => .next s
    | some t => .next (modCore t core (fun k => { k with spawns := k.spawns.erase p }))

/-- LIMEWASH_GRANULE_CLEAR: the granule granted first is clear; a starting warp whose last granule is clear receives its
values and may issue (04 R90, 13 R313). -/
def execLimewashGranuleClear (core lg : Nat) (s : State) : Out :=
  match (getLg s core lg).wash with
  | [] => .next s
  | h :: rest =>
    if (mget s.marks (clsWash core lg)).isSome then .next s
    else
      let s := takePlace (modLg s core lg (fun l => { l with wash := rest })) (clsWash core lg) 0
      match mget s.warps h.1 with
      | some x =>
        if x.washing && !rest.any (fun q => q.1 = h.1) then
          .next (takePlace { s with warps := mset s.warps h.1 { x with washing := false, vregs := x.vals, vals := [] } } (clsWash core lg)
            (h.1 + 1))
        else .next s
      | none => .next s

/-! ### Register pools (13 R315) -/

/-- REG.GIVE (13 R315). -/
def execRegGive (f : WarpWord) (s : State) : Out :=
  runWord .regGive f s (fun c s0 t =>
    let g := (sB c .regGive f).toNat
    let A := c.warp.alloc
    if g = 0 ∨ A < 8 * g + 8 then .trap trapOperand
    else
      let a := A - 8 * g
      let busy := s0.loads.any (fun l => l.g = c.g && l.w = c.w && l.vecs.any (fun v => a ≤ v.1 && v.1 < 240)) ||
        s0.atoms.any (fun o => o.g = c.g && o.w = c.w && !o.done && o.dst.any (fun d => a ≤ d + 1 && d < 240))
      if busy then .hold s0
      else
        let t := modWarp t c.g c.w (fun x =>
          { x with alloc := a, vregs := x.vregs.filter (fun p => p.1 < 32 * a), poisoned := x.poisoned.filter (· < 32 * a) })
        let t := modLg t c.wg.core c.warp.lg (fun l =>
          { l with wash := l.wash.filter (fun h => !(h.1 = warpKey c.g c.w && a / 8 ≤ h.2)) })
        .done (wakeWg (modWg t c.g (fun x =>
          { x with pools := mput x.pools c.warp.lg (mgetD x.pools c.warp.lg 0 + g) 0 })) c.g))

/-- REG.CLAIM (13 R315). -/
def execRegClaim (f : WarpWord) (s : State) : Out :=
  runWord .regClaim f s (fun c s0 t =>
    let g := (sB c .regClaim f).toNat
    let try' := modBits f 0 1 = 1
    if g = 0 ∨ 240 < c.warp.alloc + 8 * g then .trap trapOperand
    else if try' then
      if mgetD c.wg.pools c.warp.lg 0 < g then .done (swrite t c.g c.w f.dst.toNat 0)
      else .done (swrite (takeGranules t c.g c.w g) c.g c.w f.dst.toNat 1)
    else .done (waitOn { t with nextId := s0.nextId + 1 } c.g c.w c.e (.claim s0.nextId g)))

/-! ### Notify registers (13 R316 to R318) -/

/-- PERMISSION NOTIFY when a register is not set in the region's NTFMASK (13 R316, 14 R329). -/
def notifyTrap (s : State) (c : Ctx) (j : Nat) : Option Trap :=
  if (ntfMaskOf s c.wg.rnum).testBit j then none else some { cause := 3, sub := 5, aux := j }

/-- NTF.POST (13 R317). -/
def execNtfPost (f : WarpWord) (s : State) : Out :=
  runWord .ntfPost f s (fun c s0 t =>
    match notifyTrap s0 c f.a.toNat with
    | some tr => .trap tr
    | none =>
      if !laneRelease s0 c.g c.w 3 (leaderOf c.frag) then .hold s0
      else .done (postNotify t f.a.toNat (sB c .ntfPost f) (modBits f 0 1 = 1)))

/-- NTF.WAIT (13 R318). -/
def execNtfWait (f : WarpWord) (s : State) : Out :=
  runWord .ntfWait f s (fun c s0 t =>
    match notifyTrap s0 c f.a.toNat with
    | some tr => .trap tr
    | none => .done (waitOn t c.g c.w c.e (.notify f.a.toNat (sB c .ntfWait f) f.dst.toNat (modBits f 1 1 = 1))))

end Sys2Proof.Machine
end

