-- ==== Sys2Proof/Machine/Copy.lean ====
section
/-!
DEFINITION. The copy unit (10 R238 to R252): what an engine command reads and writes, the four copy commands as a warp or
a bundle issues them, COPY.STAT, and the events COPY_COMPLETE and COPY_FAULT. The anvil's drains and loads use the same
accesses.
-/

namespace Sys2Proof.Machine

/-! ### Accesses of an engine command -/

/-- The agent number of an engine command, above every warp's. -/
def engWho (id : Nat) : Nat := 2 ^ 64 + id

/-- Where an engine command writes: an agent, the range record that an .ob address means on its core, and the image where the
operand-buffer bytes of a saved workgroup lie (14 R344). -/
structure Target where
  agent : Agent
  ob : BitVec 128
  image : Option Nat
  deriving DecidableEq, Repr

/-- What an engine access waits for: a walk, lamp units, something of the device, or a request over a link of a window, for the key of n
bytes that it writes or reads at an address of a space. -/
inductive Block where
  | walk (core asid va : Nat)
  | lamp (us : List Nat)
  | span
  | link (links k : Nat) (write : Bool) (space : Nat) (ad : Word64) (n : Nat)
  deriving DecidableEq, Repr

/-- Why an engine command cannot go on: a fault with its CAUSE of 10 R248, its space and its address, a wait, or an address
beyond HBM. -/
inductive Bad where
  | fault (cause space : Nat) (ad : Word64)
  | block (b : Block)
  | hole
  deriving DecidableEq, Repr

/-- CAUSE of a summary for a trap cause (10 R248, 11 R268). -/
def engCode (cause : Nat) : Nat :=
  match cause with
  | 2 => 1
  | 3 => 2
  | 4 => 3
  | _ => 4

/-- Operand-buffer byte of an .ob address (10 R247): a record's BASE with an offset, modulo the buffer. -/
def obByte (ob : BitVec 128) (ad : Word64) : Nat := (256 * bits ob.toNat 0 10 + ad.toNat % 2 ^ 32) % 262144

/-- The key of an .ob address of a target: in its core's operand buffer, or in the image of a saved workgroup (10 R247, 14 R344). -/
def Target.obAt (t : Target) (ad : Word64) : Nat :=
  match t.image with
  | some base => hbmKey (base + 0xC2000 + obByte t.ob ad)
  | none => obKey t.agent.core (obByte t.ob ad)

/-- What a move reads; nothing where it has been made already, or where what it writes has been read. -/
inductive Src where
  | lit (v : Nat)
  | mem (space : Nat) (ad : Word64)
  | held (cs : List Host.Cell)
  | made
  deriving DecidableEq, Repr

/-- One word, element or row part moved. -/
structure Move where
  src : Src
  space : Nat
  dst : Word64
  n : Nat
  deriving DecidableEq, Repr

/-- A unit of an engine command's progress: the place of the index it reads first, and its moves, given the index. -/
structure CUnit where
  idx : Option Word64
  moves : Nat → List Move

/-- Space code of a buffer kind: 3 names .ob, whose code is 4 (14 R324). -/
def bufSpace (kind : Nat) : Nat := if kind = 3 then 4 else kind

/-! ### The units of a command (10 R241 to R243, R247) -/

/-- CTL fields (10 R245). -/
def Copy.mc (c : Copy) : Bool := c.ctl.getLsbD 5
/-- CTL ST. -/
def Copy.st (c : Copy) : Bool := c.ctl.getLsbD 19
/-- CTL EDGE. -/
def Copy.edge (c : Copy) : Bool := c.ctl.getLsbD 18
/-- CTL BAR. -/
def Copy.bar (c : Copy) : Bool := c.ctl.getLsbD 4
/-- CTL BARNUM. -/
def Copy.barNum (c : Copy) : Nat := bits c.ctl.toNat 0 4

/-- A tensor layout record with a box at a position (10 R241, R243). -/
structure Box where
  base : Nat
  space : Nat
  esize : Nat
  ndim : Nat
  size : Nat → Nat
  stride : Nat → Nat
  extent : Nat → Nat
  pos : Nat → Int

/-- The fields of a record (10 R241), with the command's coordinates. -/
def boxOf (c : Copy) (r : Nat) : Box where
  base := bits r 0 64
  space := bits r 429 2
  esize := 2 ^ bits r 427 2
  ndim := bits r 424 3
  size := fun d => bits r (64 + 32 * d) 32
  stride := fun d => if d = 0 then 2 ^ bits r 427 2 else bits r (224 + 40 * (d - 1)) 40
  extent := fun d => if d < bits r 424 3 then bits r (384 + 8 * d) 8 + 1 else 1
  pos := fun d =>
    let w : Word64 := if d < 2 then c.b0 else if d < 4 then c.b1 else c.b2
    (w.extractLsb' (32 * (d % 2)) 32).toInt

/-- Elements of a box. -/
def Box.count (b : Box) : Nat := (List.range 5).foldl (fun n d => n * b.extent d) 1

/-- Is a record one that 10 R242 refuses? -/
def layoutBad (c : Copy) (r : Nat) : Bool :=
  let b := boxOf c r
  b.ndim = 0 || 5 < b.ndim || b.space = 3 || bits r 431 81 ≠ 0 || b.base % b.esize ≠ 0 ||
  (List.range b.ndim).any (fun d => b.stride d % b.esize ≠ 0) || 16777216 < b.esize * b.count ||
  c.dst.toNat % b.esize ≠ 0

/-- Box index of dimension d of the element at a place of the order. -/
def Box.index (b : Box) (lin d : Nat) : Nat := lin / (List.range d).foldl (fun n e => n * b.extent e) 1 % b.extent d

/-- The unit of a box element (10 R243, R247). -/
def boxUnit (c : Copy) (b : Box) (lin : Nat) : CUnit :=
  let at' (d : Nat) : Int := b.pos d + b.index lin d
  let ta := spaceAddr b.space (BitVec.ofInt 64 ((List.range b.ndim).foldl (fun n d => n + at' d * b.stride d) (b.base : Int)))
  let ba := spaceAddr (bufSpace c.buf) (c.dst + BitVec.ofNat 64 (b.esize * lin))
  let inside := (List.range b.ndim).all (fun d => 0 ≤ at' d && at' d < b.size d)
  let m : Move := if c.st then ⟨.mem (bufSpace c.buf) ba, b.space, ta, b.esize⟩
    else ⟨.mem b.space ta, bufSpace c.buf, ba, b.esize⟩
  ⟨none, fun _ => if c.edge && !inside then [] else [m]⟩

/-- The unit of a row of COPY.G (10 R247). -/
def rowUnit (c : Copy) (r : Nat) : CUnit :=
  let W := bits c.b1.toNat 0 32
  let Q := bits c.b1.toNat 32 32
  ⟨some (BitVec.ofNat 64 (bits c.b0.toNat 0 32 + 4 * r)), fun x => (List.range (W / 4)).map (fun j =>
    ⟨.mem c.src (c.a + BitVec.ofNat 64 (x * Q + 4 * j)), bufSpace c.buf, c.dst + BitVec.ofNat 64 (r * W + 4 * j), 4⟩)⟩

/-- The unit of a word of COPY.L or COPY.FILL (10 R247). -/
def wordUnit (c : Copy) (j : Nat) : CUnit :=
  let off : Word64 := BitVec.ofNat 64 (4 * j)
  let src : Src := if c.kind = .fill then .lit (bits c.a.toNat 0 32) else .mem c.src (c.a + off)
  ⟨none, fun _ => [⟨src, bufSpace c.buf, c.dst + off, 4⟩]⟩

/-- The issuing workgroup's own place in a command. -/
def copySelf (c : Copy) (x : Wg) : Target := ⟨⟨c.core, x.asid, engWho c.id, c.g, engWho c.id⟩, c.obBits, none⟩

/-- The units of a command in its order (10 R247). -/
def copyUnits (c : Copy) : List CUnit :=
  match c.kind with
  | .linear => (List.range (bits c.b0.toNat 0 32 / 4)).map (wordUnit c)
  | .fill => (List.range (bits c.b0.toNat 0 32 / 4)).map (wordUnit c)
  | .gather => (List.range (bits c.b0.toNat 32 32)).map (rowUnit c)
  | .tensor =>
    let b := boxOf c ((c.layout.map (·.toNat)).getD 0)
    (List.range b.count).map (boxUnit c b)

/-- Words of a unit: those of a row, else one. -/
def wordsOf (c : Copy) : Nat := if c.kind = .gather then bits c.b1.toNat 0 32 / 4 else 1

/-- Bytes of a unit. -/
def unitBytes (c : Copy) : Nat :=
  match c.kind with
  | .gather => bits c.b1.toNat 0 32
  | .tensor => (boxOf c ((c.layout.map (·.toNat)).getD 0)).esize
  | _ => 4

/-- What is left of unit i: the index that has been read stands, and the moves that have been made are made (10 R240, R247). -/
def unitLeft (c : Copy) (i : Nat) (u : CUnit) : CUnit :=
  let left (x : Nat) : List Move := ((List.range (u.moves x).length).zip (u.moves x)).map (fun p =>
    if c.ahead.contains (wordsOf c * i + p.1) then { p.2 with src := .made }
    else match mget c.late (wordsOf c * i + p.1) with
      | some cs => { p.2 with src := .held cs }
      | none => p.2)
  match mget c.rows i with
  | some x => ⟨none, fun _ => left x⟩
  | none => ⟨u.idx, left⟩

/-- The units of a command that are left, in its order. -/
def unitsLeft (c : Copy) : List CUnit :=
  (((List.range (copyUnits c).length).zip (copyUnits c)).drop c.moved).map (fun p => unitLeft c p.1 p.2)

/-- The image of a saved workgroup. -/
def imageOf (x : Wg) : Option Nat :=
  match x.status with
  | .saved _ image _ => some image
  | _ => none

/-- Where a command writes (10 R249): for a receiver that has been saved meanwhile, the operand-buffer bytes of its image (log 52). -/
def copyTargets (s : State) (c : Copy) (x : Wg) : List Target :=
  if c.mc then
    c.recv.filterMap (fun r => match getWg s r.1 with
      | some y =>
        let a : Agent := ⟨y.core, y.asid, engWho c.id, r.1, engWho c.id⟩
        if c.buf = 3 then r.2.map (fun b => ⟨a, b, imageOf y⟩) else some ⟨a, 0, none⟩
      | none => none)
  else [copySelf c x]

/-- Runs of n bytes from an offset on around a ring of some size, at a key. -/
def ringRuns (base size off n : Nat) : List (Nat × Nat) :=
  if size = 0 then []
  else if size ≤ n then [(base, size)]
  else
    let lo := off % size
    if lo + n ≤ size then [(base + lo, n)] else [(base + lo, size - lo), (base, lo + n - size)]

/-- The keys of the runs of bytes within 4 KiB pages that lie under an interval of a context's addresses, with their lengths. -/
def keyRuns (s : State) (asid a b : Nat) : List (Nat × Nat) :=
  ((List.range ((b + 4095) / 4096 - a / 4096)).map (fun i => a / 4096 * 4096 + 4096 * i)).filterMap (fun p =>
    (contextKey s asid (max a p)).map (fun k => (k, min b (p + 4096) - max a p)))

/-- The keys of a run of bytes at a target (07 R173, 10 R247). -/
def targetRuns (s : State) (t : Target) (q : Nat × Word64 × Nat) : List (Nat × Nat) :=
  let a := (spaceAddr q.1 q.2.1).toNat
  let n := q.2.2
  match q.1 with
  | 0 => keyRuns s t.agent.asid a (a + n)
  | 1 => [(vaultKey a, n)]
  | 2 =>
    match getWg s t.agent.g with
    | some x =>
      let base := padKey x.core (4096 * x.padBase)
      if x.wrapped then ringRuns base x.padSize a n else if a < x.padSize then [(base + a, min n (x.padSize - a))] else []
    | none => []
  | _ => ringRuns (t.obAt q.2.1 - obByte t.ob q.2.1) 262144 (obByte t.ob q.2.1) n

/-- Where a command has still to write, as runs of bytes at its targets; none while its record has not been read (10 R242). -/
def leftRuns (s : State) (c : Copy) : Option (List (Nat × Nat)) :=
  match getWg s c.g with
  | some x =>
    if c.kind = .tensor && c.layout.isNone then none
    else some ((copyTargets s c x).flatMap (fun t =>
      ((unitsLeft c).flatMap (fun u => (u.moves 0).filter (fun m => m.src ≠ .made))).flatMap (fun m => targetRuns s t (m.space, m.dst, m.n))))
  | none => some []

/-- Has a command that its core's unit accepted before a copy command still to write one of n bytes from a key on, or is it unknown
where it writes (10 R240)? -/
def earlierWrites (s : State) (id k n : Nat) : Bool :=
  match s.copies.find? (fun c => c.id = id) with
  | none => false
  | some c => s.copies.any (fun d => d.core = c.core && d.id < id && (match leftRuns s d with
      | some rs => rs.any (fun r => r.1 < k + n && k < r.1 + r.2)
      | none => true))

/-! ### One access of a command -/

/-- One access of n bytes in a space (4 .ob), of a command: the key, none where nothing is accessed, with the bytes that exist. Every
bank-lock span holds it (08 R233, 10 R252), a write of a copy command waits for the earlier ones of its core on its bytes (10 R240),
and at a peer it needs the request for the 4 KiB block to have left (15 R362). -/
def engAccess (s : State) (t : Target) (space : Nat) (ad : Word64) (n : Nat) (need : Need) :
    Except Bad (Option (Nat × Nat)) :=
  let chk : Chk :=
    if space = 4 then .ok ⟨0, ad, some (t.obAt ad), n, 0, 0⟩
    else chkLane s t.agent space n need false 0 (spaceAddr space ad)
  match chk with
  | .bad _ cs _ sp a => .error (.fault (engCode cs) sp a)
  | .walk va => .error (.block (.walk t.agent.core t.agent.asid va))
  | .hole => .error .hole
  | .ok p =>
    match p.key with
    | none => .ok none
    | some k =>
      if spanHolds s t.agent.core t.agent.q k n then .error (.block .span)
      else if need = .write && earlierWrites s (t.agent.q - engWho 0) k n then .error (.block .span)
      else if !reqGone s (t.agent.q - engWho 0) k then .error (.block (.link p.links k (need = .write) space (spaceAddr space ad) n))
      else if lampHeld s t.agent.q (unitOf k).toList then .error (.block (.lamp (unitOf k).toList))
      else .ok (some (k, p.bytes))

/-- Read n bytes; what does not exist reads zero. -/
def engRead (s : State) (t : Target) (space : Nat) (ad : Word64) (n : Nat) : Except Bad Nat :=
  match engAccess s t space ad n .read with
  | .error e => .error e
  | .ok none => .ok 0
  | .ok (some (k, m)) =>
    if poisonedAt s k m then .error (.fault 4 space (spaceAddr space ad)) else .ok (pocNat s k m)

/-- The cells that a move writes at its targets; one whose source has been read waits for them again (10 R252), and faults no more. -/
def evalMove (s : State) (src : Target) (dsts : List Target) (m : Move) : Except Bad (List Host.Cell) :=
  let put (v : Nat) : Except Bad (List Host.Cell) := dsts.foldlM (fun acc t =>
    match engAccess s t m.space m.dst m.n .write with
    | .error e => .error e
    | .ok none => .ok acc
    | .ok (some (k, _)) => .ok (acc ++ cellsOf k m.n v)) []
  match m.src with
  | .lit v => put v
  | .mem sp ad => (engRead s src sp ad m.n).bind put
  | .held cs =>
    match put 0 with
    | .error (.block b) => .error (.block b)
    | _ => .ok cs
  | .made => .ok []

/-- A line of .g memory that an engine has read at the point of coherence leaves the L1 of its core: what the command has observed
no later load of the core goes behind (07 R169, 08 R210); and the line is in its memory-side slice (07 R170). -/
def engSeen (s : State) (t : Target) (space : Nat) (ad : Word64) (n : Nat) : State :=
  match engAccess s t space ad n .read with
  | .ok (some (k, _)) =>
    let s := touchAll s (unitOf k).toList
    if space = 3 && !isKc k then
      fillK s t.agent.core (kAddr t.agent.asid (nd (agentNode s t.agent) 64 64 + (spaceAddr space ad).toNat)) k
    else if space = 0 then dropL1 (askLine s s.clock false k) t.agent.core (fun l => l = k / 128)
    else s
  | _ => s

/-- Write cells for an engine command: performed at the point of coherence, the lines gone from the issuing core's L1
(08 R211). -/
def engStore (s : State) (core : Nat) (cs : List Host.Cell) : State :=
  let s := touchAll s (nub (cs.filterMap (fun c => unitOf c.1)))
  dropL1 (pocWrite s cs) core (fun l => cs.any (fun c => c.1 / 128 = l))

/-- The source of a move has been read. -/
def moveSeen (s : State) (src : Target) (m : Move) : State :=
  lampLeave (match m.src with
    | .mem sp ad => engSeen s src sp ad m.n
    | _ => s) src.agent.q

/-- Make a move: its source is read, and its targets written. -/
def makeMove (s : State) (src : Target) (dsts : List Target) (m : Move) : Except Bad State :=
  (evalMove s src dsts m).map (engStore (moveSeen s src m) src.agent.core)

/-- The index that a unit reads. -/
def unitIndex (s : State) (src : Target) (u : CUnit) : Except Bad Nat :=
  match u.idx with
  | none => .ok 0
  | some ad => engRead s src 2 ad 4

/-- The moves of a unit, as far as its index can be read. -/
def unitMoves (s : State) (src : Target) (u : CUnit) : List Move :=
  match unitIndex s src u with
  | .ok x => u.moves x
  | .error _ => []

/-- Does a move write, or read, at an address of a space that lies in one 4 KiB block with another? -/
def Move.inBlock (m : Move) (write : Bool) (space : Nat) (ad : Word64) : Bool :=
  if write then m.space = space && m.src ≠ .made && (spaceAddr m.space m.dst).toNat / 4096 = ad.toNat / 4096
  else match m.src with
    | .mem sp a => sp = space && (spaceAddr sp a).toNat / 4096 = ad.toNat / 4096
    | _ => false

/-- Begin what a wait of a command needs. A request over a link names the bytes that its moves, as far as they are known, write or
read in the 4 KiB block (15 R362, R363). -/
def applyBlock (s : State) (id : Nat) (ms : List Move) (b : Block) : State :=
  match b with
  | .walk core asid va => requestWalk s core asid (engWho id) va
  | .lamp us => lampJoin s (engWho id) us
  | .span => s
  | .link links k write space ad n =>
    let bytes := max n (((ms.filter (fun m => m.inBlock write space ad)).map (·.n)).foldl (· + ·) 0)
    askPeer s id (engWho id) links k (if write then bytes else 0) (if write then 0 else bytes)

/-- Run a unit, its moves in order. -/
def evalUnit (s : State) (src : Target) (dsts : List Target) (u : CUnit) : Except Bad State :=
  match unitIndex s src u with
  | .error e => .error e
  | .ok x => (u.moves x).foldlM (fun s m => makeMove s src dsts m) s

/-- How the run of a list of units ends. -/
inductive Run where
  | finished (s : State) (done : Nat)
  /-- A fault at a unit: the state before it, the units before it, what the fault says, the units left. -/
  | faulted (s : State) (done cause space : Nat) (ad : Word64) (rest : List CUnit)
  | blocked (b : Block)
  | hole

/-- Run units in order, counting them. -/
def runUnits (src : Target) (dsts : List Target) : List CUnit → Nat → State → Run
  | [], d, s => .finished s d
  | u :: us, d, s =>
    match evalUnit s src dsts u with
    | .ok t => runUnits src dsts us (d + 1) t
    | .error (.fault c sp ad) => .faulted s d c sp ad (u :: us)
    | .error (.block b) => .blocked b
    | .error .hole => .hole

/-- The cells of a list of units, as many moves as can be evaluated within a number of bytes. -/
def tailCells (s : State) (src : Target) (dsts : List Target) : List CUnit → Nat → List Host.Cell
  | [], _ => []
  | u :: us, left =>
    let ms := match unitIndex s src u with
      | .ok x => u.moves x
      | .error _ => []
    let (cs, left) := ms.foldl (fun acc m =>
      if acc.2 < m.n then (acc.1, 0)
      else (acc.1 ++ (evalMove s src dsts m).toOption.getD [], acc.2 - m.n)) (([] : List Host.Cell), left)
    if left = 0 then cs else cs ++ tailCells s src dsts us left

/-- Write each of a list of cells or not, as free values say: each byte holds its previous or its new value (log 4). -/
def scatter (s : State) (core : Nat) (cs : List Host.Cell) : State :=
  let kept := ((List.range cs.length).zip cs).filter (fun p => (Config.freeValue (s.freeCtr + p.1 / 64)).getLsbD (p.1 % 64))
  engStore { s with freeCtr := s.freeCtr + cs.length / 64 + 1 } core (kept.map (·.2))

/-! ### Issue (10 R238, R239, R244 to R246) -/

/-- The operands of a copy command, whoever issues it (10 R244). -/
structure CopyReq where
  kind : CopyKind
  dst : Word64
  a : Word64
  b0 : Word64
  b1 : Word64
  b2 : Word64
  src : Nat
  buf : Nat
  ctl : Nat

/-- A range record of a workgroup (11 R253); none where the workgroup does not own it. -/
def ownRec (s : State) (g core n : Nat) : Option ObRec := (mget (getCore s core).obs n).filter (fun r => r.owner = g)

/-- The .ob record number of an address (10 R247). -/
def obNum (ad : Word64) : Nat := bits ad.toNat 32 5

/-- The OPERAND conditions of execution (10 R246). -/
def copyOperand (s : State) (g core : Nat) (q : CopyReq) : Bool :=
  let len := bits q.b0.toNat 0 32
  let W := bits q.b1.toNat 0 32
  (match q.kind with
   | .linear => 16777216 < len
   | .fill => 16777216 < len
   | .gather => W = 0 || 65536 < W || 65536 < bits q.b0.toNat 32 32 || 16777216 < bits q.b0.toNat 32 32 * W
   | .tensor => false) || (q.buf = 3 && (ownRec s g core (obNum q.dst)).isNone)

/-- MISALIGN of an engine operand: its space, and its value; 15 and no address for what is no address (14 R329). -/
def alignTrap (space : Nat) (v : Word64) : Trap := { cause := 5, space := space, faddr := if space = 15 then 0 else v }

/-- The misalignment conditions (10 R246): the first that holds. -/
def copyMisalign (q : CopyReq) : Option Trap :=
  let bad (space : Nat) (v : Word64) (n : Nat) : List Trap := if v.toNat % n ≠ 0 then [alignTrap space v] else []
  let dst := bad (bufSpace q.buf) q.dst 4
  (match q.kind with
   | .tensor => bad q.src q.a 64
   | .linear => bad q.src q.a 4 ++ dst ++ bad 15 (q.b0.extractLsb' 0 32 |>.setWidth 64) 4
   | .fill => dst ++ bad 15 (q.b0.extractLsb' 0 32 |>.setWidth 64) 4
   | .gather => bad q.src q.a 4 ++ dst ++ bad 2 (q.b0.extractLsb' 0 32 |>.setWidth 64) 4 ++
       bad 15 (q.b1.extractLsb' 0 32 |>.setWidth 64) 4 ++ bad 15 (q.b1.extractLsb' 32 32 |>.setWidth 64) 4).head?

/-- Copy commands of a core. -/
def copiesOf (s : State) (core : Nat) : List Copy := s.copies.filter (fun c => c.core = core)

/-- Free shared entries of a core's copy queue (10 R239). -/
def sharedFree (s : State) (core : Nat) : Nat :=
  Config.copyQueue - 2 * (wgsOn s core).length - ((copiesOf s core).filter (·.shared)).length

/-- Does a queue take a command of a workgroup: shared, reserved, or not at all (10 R239)? -/
def copyRoom (s : State) (core g : Nat) : Option Bool :=
  if 0 < sharedFree s core then some true
  else if (copiesOf s core).length < Config.copyQueue &&
      ((copiesOf s core).filter (fun c => c.g = g && !c.shared)).length < 2 then some false
  else none

/-- CTL bit j of MCMASK (10 R245). -/
def mcBit (ctl j : Nat) : Bool := ctl.testBit (6 + j)

/-- The workgroups that a multicast of a workgroup of a core reaches: those of its node resident on the named cores (10 R249), each
with the range record that an .ob destination names there. They are fixed as the command is accepted: DESIGN CHOICE, log 52. -/
def mcReceivers (s : State) (core : Nat) (x : Wg) (q : CopyReq) : List (Nat × Option (BitVec 128)) :=
  if q.ctl.testBit 5 then
    (s.wgs.filter (fun p => p.2.isResident && p.2.core / 12 = core / 12 && mcBit q.ctl (p.2.core % 12) &&
      p.2.rnum = x.rnum && p.2.node = x.node)).map (fun p => (p.1, (ownRec s p.1 p.2.core (obNum q.dst)).map (·.bits)))
  else []

/-- Has a named core no receiver, or a receiver not the record of an .ob destination (10 R249)? -/
def mcAbsent (s : State) (q : CopyReq) (rs : List (Nat × Option (BitVec 128))) : Bool :=
  q.ctl.testBit 5 && ((List.range 12).any (fun j => mcBit q.ctl j && !rs.any (fun r => coreOf s r.1 % 12 = j)) ||
    (q.buf = 3 && rs.any (fun r => r.2.isNone)))

/-- A copy command is issued by some lanes of warp (g, w): with a full queue nothing issues (10 R239); the checks are made on the state
before it (s0), and its acceptance on t, in the order of the lane groups within a cycle. -/
def copyIssue (s0 t : State) (g w : Nat) (lanes : Lanes) (core : Nat) (pc : Word64) (token : Option Nat) (q : CopyReq) : Res :=
  let lg := ((getWarp s0 g w).map (·.lg)).getD 0
  match copyRoom s0 core g, getWg s0 g with
  | some shared, some x =>
    if copyOperand s0 g core q then .trap trapOperand
    else match copyMisalign q with
      | some tr => .trap tr
      | none =>
        if !inOrder s0 (clsCopy core) lg then .hold s0
        else
          let rs := mcReceivers s0 core x q
          let c : Copy := { id := t.nextId, core := core, g := g, w := w, lanes := lanes, kind := q.kind, dst := q.dst, a := q.a,
                            b0 := q.b0, b1 := q.b1, b2 := q.b2, src := q.src, buf := q.buf, ctl := BitVec.ofNat 32 q.ctl,
                            num := x.tlc.issued + 1, token := token, shared := shared, pc := pc, accepted := s0.clock,
                            obBits := if q.buf = 3 then ((ownRec s0 g core (obNum q.dst)).map (·.bits)).getD 0 else 0,
                            recv := rs, absent := mcAbsent s0 q rs, layout := none, moved := 0, ahead := [], rows := [], late := [] }
          .done (takePlace (modWg { t with copies := t.copies ++ [c], nextId := t.nextId + 1 } g
            (fun x => { x with tlc := x.tlc.accept })) (clsCopy core) lg)
  | _, _ => .hold s0

/-- A copy command of the warp word (10 R238, R244). -/
def runCopy (op : Op) (f : WarpWord) (s : State) (kind : CopyKind) (blk : Bool) : Out :=
  runWord op f s (fun c s0 t =>
    if c.p = 0 then .done t
    else
      let sb (i : Nat) : Word64 := c.warp.sreg (f.b.toNat + i)
      copyIssue s0 t c.g c.w (leaderOf c.p) c.wg.core c.pc none
        { kind := kind, dst := c.warp.sreg f.dst.toNat, a := sA c f, b0 := sb 0, b1 := if blk then sb 1 else 0
          b2 := if blk then sb 2 else 0, src := modBits f 2 2, buf := modBits f 0 2, ctl := extBits f 32 32 })

/-- COPY.T (10 R247). -/
def execCopyT (f : WarpWord) (s : State) : Out := runCopy .copyT f s .tensor true
/-- COPY.L (10 R247). -/
def execCopyL (f : WarpWord) (s : State) : Out := runCopy .copyL f s .linear false
/-- COPY.G (10 R247). -/
def execCopyG (f : WarpWord) (s : State) : Out := runCopy .copyG f s .gather true
/-- COPY.FILL (10 R247). -/
def execCopyFill (f : WarpWord) (s : State) : Out := runCopy .copyFill f s .fill false

/-- The word of a summary, 0 for none. -/
def summaryWord (f : Option Summary) : Word64 := (f.map (·.word)).getD 0

/-- COPY.STAT (10 R250). -/
def execCopyStat (f : WarpWord) (s : State) : Out :=
  runWord .copyStat f s (fun c s0 t =>
    let ret (t : State) (v : Word64) : Res := .done (swrite t c.g c.w f.dst.toNat v)
    match modBits f 0 2 with
    | 0 => ret t (BitVec.ofNat 64 (((copiesOf s0 c.wg.core).filter (fun x => x.g = c.g)).length +
        sharedFree s0 c.wg.core * 2 ^ 8))
    | 1 => ret t (summaryWord c.wg.copyFault)
    | _ => ret (modWg t c.g (fun x => { x with copyFault := none })) (summaryWord c.wg.copyFault))

/-- Change a command that holds a queue entry. -/
def modCopy (s : State) (id : Nat) (f : Copy → Copy) : State :=
  { s with copies := s.copies.map (fun c => if c.id = id then f c else c) }

/-- A command starts: COPY.T reads its record, once, and ends in a LAYOUT fault where it is refused (10 R242); the fault's address
is the record's (DESIGN CHOICE, log 52). -/
def startCopy (s : State) (c : Copy) (x : Wg) : Except Bad (State × Copy) :=
  if c.kind = .tensor && c.layout.isNone then
    match engRead s (copySelf c x) c.src c.a 64 with
    | .error e => .error e
    | .ok r =>
      if layoutBad c r then .error (.fault 5 c.src (spaceAddr c.src c.a))
      else
        let c := { c with layout := some (BitVec.ofNat 512 r) }
        .ok (modCopy (engSeen s (copySelf c x) c.src c.a 64) c.id (fun d => { d with layout := c.layout }), c)
  else .ok (s, c)

/-- Bytes, rows or elements of n units, as DONE counts them (10 R248). -/
def doneOf (c : Copy) (n : Nat) : Nat :=
  match c.kind with
  | .linear => 4 * n
  | .fill => 4 * n
  | _ => n

/-! ### Receivers (10 R249) -/

/-- Does a command write scratchpad, as far as it is known: an accepted COPY.T with ST counts until its record has shown another
space (07 R184, 08 R231)? -/
def Copy.intoPad (c : Copy) : Bool :=
  if c.st then (match c.layout with
    | some r => (boxOf c r.toNat).space = 2
    | none => true)
  else c.buf = 2

/-- Does a command write to a workgroup's place: its own, or one of a multicast's receivers? -/
def Copy.reaches (c : Copy) (g : Nat) : Bool := if c.mc then c.recv.any (fun r => r.1 = g) else c.g = g

/-! ### What a command waits for before it moves data -/

/-- Have the stores and atomics that the lane thread or long-word thread issued before a command been performed, and the stores of
others that it has read (08 R210, R213, 10 R238)? -/
def issuerDone (s : State) (g w : Nat) (lanes : Lanes) (id : Nat) : Bool :=
  !sawPending s g w lanes (some id) &&
  s.stores.all (fun e => !(e.g = g && e.w = w && lanes.getLsbD e.lane && e.id < id && e.kind = .st)) &&
  s.atoms.all (fun a => !(a.ofLanes g w lanes && a.id < id && !a.done))

/-- Does an OB.RES accepted before a handle still have to zero record n of workgroup g (11 R256)? -/
def zeroPending (s : State) (g n id : Nat) : Bool :=
  s.anvs.any (fun a => a.kind = .res && a.g = g && a.id < id && bits a.word.toNat 0 5 = n)

/-- May a command start: its issuer's earlier accesses are performed? -/
def copyReady (s : State) (c : Copy) : Bool := issuerDone s c.g c.w c.lanes c.id

/-- Does a command wait for the zeroing of a record that it names? -/
def zeroWaits (s : State) (c : Copy) (ts : List Target) : Bool := c.buf = 3 && ts.any (fun t => zeroPending s t.agent.g (obNum c.dst) c.id)

/-! ### The end of a command (10 R247, R248) -/

/-- What a command's progress comes to: the units left run, or a fault, from the start where a receiver is absent, whose address is
the destination's. A fault of the layout record or its LAYOUT comes before an absent receiver, and that before every other fault:
DESIGN CHOICE, log 52. -/
def copyRun (s : State) (c : Copy) (x : Wg) : Run :=
  let ts := copyTargets s c x
  let self := copySelf c x
  if !copyReady s c then .blocked .span
  else match startCopy s c x with
    | .error (.fault cs sp ad) => .faulted s 0 cs sp ad []
    | .error (.block b) => .blocked b
    | .error .hole => .hole
    | .ok (s, c) =>
      if zeroWaits s c ts then .blocked .span
      else match runUnits self ts (unitsLeft c) c.moved s with
        | .finished t n => if c.absent then .faulted t 0 6 (bufSpace c.buf) c.dst [] else .finished t n
        | .faulted t n cs sp ad rest => if c.absent then .faulted t 0 6 (bufSpace c.buf) c.dst rest else .faulted t n cs sp ad rest
        | r => r

/-- The moves that a command has left. -/
def movesLeft (s : State) (c : Copy) (x : Wg) : List Move :=
  if c.kind = .tensor && c.layout.isNone then [⟨.mem c.src c.a, 15, 0, 64⟩] else (unitsLeft c).flatMap (unitMoves s (copySelf c x))

/-! ### The words of a command one by one (10 R240, R252, R393) -/

/-- The units that are moved whole are counted, as many as k. -/
def countMoved : Nat → Copy → Copy
  | 0, c => c
  | k + 1, c =>
    let n := wordsOf c
    if (List.range n).all (fun j => c.ahead.contains (n * c.moved + j)) then
      countMoved k { c with
        moved := c.moved + 1, ahead := c.ahead.filter (fun a => n * (c.moved + 1) ≤ a), rows := mdel c.rows c.moved, late := [] }
    else c

/-- Has every word of the row after those moved whole been read? -/
def Copy.rowRead (c : Copy) : Bool :=
  let n := wordsOf c
  (List.range n).all (fun j => c.ahead.contains (n * c.moved + j) || (mget c.late (n * c.moved + j)).isSome)

/-- Move one word of a started command, in the order that the units leave open: one of the 4,096 bytes after the units moved whole
(10 R248). A word further on in a longer row is read, and written once the whole row has been read, when nothing of it can fault
any more. -/
def moveWord (s : State) (c : Copy) (x : Wg) (k : Nat) : Except Bad State :=
  let n := wordsOf c
  let i := k / n
  let self := copySelf c x
  let ts := copyTargets s c x
  match (copyUnits c)[i]? with
  | none => .ok s
  | some u =>
    if i < c.moved || c.ahead.contains k then .ok s
    else match unitIndex s self (unitLeft c i u) with
      | .error e => .error e
      | .ok v =>
        let v := (mget c.rows i).getD v
        let rows := if c.kind = .gather then mset c.rows i v else c.rows
        let moved (s : State) : State := modCopy s c.id (fun c =>
          countMoved (c.ahead.length + 1) { c with ahead := c.ahead ++ [k], rows := rows, late := mdel c.late k })
        match (u.moves v)[k % n]? with
        | none => .ok (moved s)
        | some m =>
          if unitBytes c * (i - c.moved) + 4 * (k % n) + 4 ≤ 4096 then (makeMove s self ts m).map moved
          else if i ≠ c.moved then .ok s
          else match mget c.late k with
            | some cs => if c.rowRead then (evalMove s self ts { m with src := .held cs }).map (fun cs => moved (engStore s self.agent.core cs)) else .ok s
            | none => (evalMove s self ts m).map (fun cs =>
                modCopy (moveSeen s self m) c.id (fun c => { c with rows := rows, late := mset c.late k cs }))

/-- The keys that a move still reads or writes. -/
def moveKeys (s : State) (src : Target) (dsts : List Target) (m : Move) : List Nat :=
  let key (t : Target) (need : Need) (sp : Nat) (ad : Word64) : Option Nat :=
    if sp = 4 then none
    else match chkLane s t.agent sp m.n need false 0 (spaceAddr sp ad) with
      | .ok p => p.key
      | _ => none
  (match m.src with
   | .mem sp ad => (key src .read sp ad).toList
   | _ => []) ++ (if m.src = .made then [] else dsts.filterMap (fun t => key t .write m.space m.dst))

/-- The requests of a command for blocks in which it has nothing left to move have been served (15 R362). -/
def endSpent (s : State) (id : Nat) : State :=
  match s.copies.find? (fun c => c.id = id) with
  | none => s
  | some c =>
    match getWg s c.g with
    | none => s
    | some x =>
      if s.outs.any (fun r => r.acc = id) then
        let ks := (movesLeft s c x).flatMap (moveKeys s (copySelf c x) (copyTargets s c x))
        let spent (r : PeerReq) : Bool := r.acc = id && !ks.any (fun k => k / 4096 = r.key / 4096)
        (s.outs.filter spent).foldl endReq { s with outs := s.outs.filter (fun r => !spent r) }
      else s

/-- The move of word k of a started command, where it can be made now; with `queues`, what it waits for begins. -/
def wordTurn (s : State) (c : Copy) (x : Wg) (queues : Bool) (k : Nat) : State :=
  match moveWord s c x k with
  | .ok u => u
  | .error (.block (.lamp us)) => if queues then applyBlock s c.id (movesLeft s c x) (.lamp us) else s
  | .error (.block b) => applyBlock s c.id (movesLeft s c x) b
  | .error _ => s

/-- The move of one word of a command, where it can be made now; a turn of the machine (log 3). -/
def copyPart (id k : Nat) (s : State) : State :=
  match s.copies.find? (fun c => c.id = id) with
  | none => s
  | some c =>
    match getWg s c.g with
    | none => s
    | some x =>
      if !copyReady s c then s
      else match startCopy s c x with
        | .error (.block b) => applyBlock s id (movesLeft s c x) b
        | .error _ => s
        | .ok (t, c) => if zeroWaits t c (copyTargets t c x) then t else endSpent (wordTurn t c x true k) id

/-- The words of a command that can be moved are, each of the others beginning what it waits for. -/
def copySweep (s : State) (c : Copy) (x : Wg) : State :=
  (List.range (wordsOf c * (copyUnits c).length)).foldl (fun s k =>
    match s.copies.find? (fun d => d.id = c.id) with
    | some c => wordTurn s c x false k
    | none => s) s

/-- A command waits: what its wait needs begins, and where it has started, its record stays read (10 R242). Where it waits for a link,
the words move whose requests have left, so that the space for what they bring back is free again (15 R362). -/
def copyWaits (s : State) (c : Copy) (x : Wg) (b : Block) : State :=
  if copyReady s c then
    match startCopy s c x with
    | .ok (s, d) => (match b with
        | .link _ _ _ _ _ _ => endSpent (copySweep s d x) c.id
        | b => applyBlock s c.id [] b)
    | .error _ => applyBlock s c.id (movesLeft s c x) b
  else s

/-- Barrier phase that will consume an engine arrival made now (08 R228). -/
def arrivalPhase (b : Bar) : Option Nat :=
  if b.init && 1 ≤ b.eexp then some ((b.phase + b.ecnt / b.eexp) % 2 ^ 20) else none

/-- Forget the translation requests of a command. -/
def dropWalks (s : State) (id : Nat) : State := { s with walks := s.walks.filter (fun k => k.who ≠ engWho id) }

/-- Record a fault of a command in its workgroup's summary, or, where a valid one is held, in the fault store (10 R248,
11 R268, 14 R339); a translation fault freezes the recorders (16 R380). -/
def recordSummary (s : State) (g w : Nat) (anvil : Bool) (f : Summary) : State :=
  let s := if bits f.word.toNat 4 4 = 1 then freeze s 3 else s
  match getWg s g with
  | none => s
  | some x =>
    if (if anvil then x.anvFault else x.copyFault).isSome then
      storeFault s x 5 f.word.toNat (engineCause anvil f) f.pc f.faddr w
    else setWg s g (if anvil then { x with anvFault := some f } else { x with copyFault := some f })

/-- An engine arrival on a barrier of a workgroup, after the operations of its warps in the cycle (08 R228, R229); a parked
workgroup's is applied to its image (08 R231). -/
def arriveAt (s : State) (g b : Nat) : State :=
  takePlace (modWg s g (fun y => setBar y b (getBar y b).engineArrive)) (clsBar g) (max 16 (mgetD s.marks (clsBar g) 0))

/-- A command completes: its tlc step, its barrier arrivals and its token, in one step (10 R247). -/
def finishCopy (s : State) (c : Copy) : State :=
  let arrive (s : State) (g : Nat) : State := arriveAt s g c.barNum
  let rs := c.recv.map (·.1)
  let s := lampLeave (dropWalks { s with copies := s.copies.filter (fun d => d.id ≠ c.id) } c.id) (engWho c.id)
  let s := observe s 0 (s.clock - c.accepted) c.id
  let s := modWg s c.g (fun y => { y with tlc := y.tlc.complete c.num })
  let s := if c.bar then rs.foldl arrive (arrive s c.g) else s
  reapAll (wakeWg (tokenDone s c.g c.w c.token) c.g)

/-- COPY_COMPLETE: every write of a command is performed, and it completes (10 R247). -/
def execCopyComplete (id : Nat) (s : State) : Out :=
  match s.copies.find? (fun c => c.id = id) with
  | none => .next s
  | some c =>
    match getWg s c.g with
    | none => .next s
    | some x =>
      match copyRun s c x with
      | .finished t _ => .next (finishCopy t c)
      | .blocked b => .next (copyWaits s c x b)
      | .faulted _ _ _ _ _ _ => .next s
      | .hole => .fault .physicalHole

/-- COPY_FAULT: a command that has met a fault ends, completes and signals (10 R248). -/
def execCopyFault (id : Nat) (s : State) : Out :=
  match s.copies.find? (fun c => c.id = id) with
  | none => .next s
  | some c =>
    match getWg s c.g with
    | none => .next s
    | some x =>
      match copyRun s c x with
      | .finished _ _ => .next s
      | .blocked b => .next (copyWaits s c x b)
      | .hole => .fault .physicalHole
      | .faulted t n cs sp ad rest =>
        let ts := copyTargets s c x
        let t := scatter t c.core (tailCells t (copySelf c x) ts rest 4096)
        let word := doneOf c n % 2 ^ 24 * 2 ^ 40 + c.num % 2 ^ 32 * 2 ^ 8 + cs % 16 * 2 ^ 4 + 1
        let bars := if c.bar then ((arrivalPhase (getBar x c.barNum)).map (fun p => (c.barNum, p))).toList else []
        let f : Summary := { word := BitVec.ofNat 64 word, num := c.num, faddr := ad, space := sp, pc := c.pc,
                             delivered := false, bars := bars, warp := c.w, token := c.token }
        .next (finishCopy (recordSummary t c.g c.w false f) c)

end Sys2Proof.Machine
end

