-- ==== Sys2Proof/Machine/Anvil.lean ====
section
/-!
DEFINITION. The anvil (11 R253 to R268): range records, the values of scaled operands (03 R60, R64 to R67), matrix steps,
tiles, drains and loads, gangs, with the anvil's events.
-/

namespace Sys2Proof.Machine

/-! ### Records and tiles -/

/-- Fields of a range record (11 R255). -/
def obBase (r : BitVec 128) : Nat := bits r.toNat 0 10
/-- Units of 256 bytes. -/
def obUnits (r : BitVec 128) : Nat := bits r.toNat 16 10 + 1
/-- FMT. -/
def obFmt (r : BitVec 128) : Nat := bits r.toNat 32 4
/-- SGN. -/
def obSgn (r : BitVec 128) : Bool := r.getLsbD 36
/-- BSC. -/
def obBsc (r : BitVec 128) : Bool := r.getLsbD 37
/-- BND. -/
def obBnd (r : BitVec 128) : Bool := r.getLsbD 38
/-- Steps held. -/
def obSteps (r : BitVec 128) : Nat := bits r.toNat 40 8 + 1
/-- First byte of the block scales in the range. -/
def obScaleAt (r : BitVec 128) : Nat := 4 * bits r.toNat 64 16
/-- First byte of the band scale in the range. -/
def obBandAt (r : BitVec 128) : Nat := 4 * bits r.toNat 80 16

/-- Bytes of the block-scale area (11 R255). -/
def obScaleBytes (r : BitVec 128) : Nat :=
  if !obBsc r then 0 else if obFmt r = 0 then 256 * obSteps r else 64 * ((obSteps r + 1) / 2)

/-- The areas of a range as intervals: data, block scales, band scale. -/
def obAreas (r : BitVec 128) : List (Nat × Nat) :=
  [(0, 1024 * obSteps r)] ++ (if obBsc r then [(obScaleAt r, obScaleAt r + obScaleBytes r)] else []) ++
    (if obBnd r then [(obBandAt r, obBandAt r + 2)] else [])

/-- Do some two intervals of a list overlap? -/
def anyOverlap : List (Nat × Nat) → Bool
  | [] => false
  | x :: t => t.any (fun y => x.1 < y.2 && y.1 < x.2) || anyOverlap t

/-- Do two ranges of the operand buffer overlap? -/
def obMeet (a b : BitVec 128) : Bool := obBase a < obBase b + obUnits b && obBase b < obBase a + obUnits a

/-- Is a record of layout word and scale word one that OB.RES refuses for its own fields (11 R256)? -/
def obBad (r : BitVec 128) : Bool :=
  let f := obFmt r
  bits r.toNat 48 16 ≠ 0 || r.getLsbD 39 || bits r.toNat 26 6 ≠ 0 || bits r.toNat 10 6 ≠ 0 || 6 ≤ f ||
  (obSgn r && f ≠ 1 && f ≠ 4) ||
  (f = 0 && !obBsc r) || ((f = 1 || f = 4 || f = 5) && obBsc r) || (obBnd r && (f = 1 || f = 4 || f = 5)) ||
  (!obBsc r && obScaleAt r ≠ 0) || (!obBnd r && obBandAt r ≠ 0) || 1024 < obBase r + obUnits r ||
  (obAreas r).any (fun a => 256 * obUnits r < a.2) || anyOverlap (obAreas r)

/-- A tile of a core that a workgroup owns. -/
def ownTile (s : State) (g core z : Nat) : Option Tile := (mget (getCore s core).tiles z).filter (fun t => t.owner = g)

/-- Is a tile owned by another workgroup? -/
def foreignTile (s : State) (g core z : Nat) : Bool :=
  match mget (getCore s core).tiles z with
  | some t => t.owner ≠ g
  | none => false

/-- Change a tile of a core. -/
def modTile (s : State) (core z : Nat) (f : Tile → Tile) : State :=
  modCore s core (fun c => { c with tiles := mmod c.tiles z f })

/-- Anvil commands of a core. -/
def anvsOf (s : State) (core : Nat) : List Anv := s.anvs.filter (fun a => a.core = core)

/-- Has the queue of a core room (11 R263)? -/
def anvRoom (s : State) (core : Nat) : Bool := (anvsOf s core).length < Config.anvilQueue

/-- The tile of a command: none for OB.RES and OB.FREE. -/
def Anv.tile (a : Anv) : Option Nat :=
  match a.kind with
  | .res => none
  | .free => none
  | _ => some (bits a.word.toNat 0 2)

/-- Does a command take a tla number (08 R214)? -/
def Anv.numbered (a : Anv) : Bool := a.tile.isSome

/-- Who issues an anvil command: its workgroup, warp and lane threads, core, lane group (16 R373), PC, and the token that counts it
(06 R149). -/
structure Ask where
  g : Nat
  w : Nat
  lanes : Lanes
  core : Nat
  lg : Nat
  pc : Word64
  token : Option Nat

/-- An anvil command with nothing but its issuer. -/
def Ask.anv (q : Ask) (s : State) (kind : AnvKind) (word : Word64) : Anv where
  id := s.nextId
  core := q.core
  g := q.g
  w := q.w
  lanes := q.lanes
  kind := kind
  word := word
  a := 0
  b := 0
  c := 0
  num := 0
  token := q.token
  lg := q.lg
  pc := q.pc
  accepted := s.clock
  committed := 0
  flight := []
  recA := 0
  recB := 0
  i96 := false
  fresh := false

/-- Must a command wait: the queue is full, or a higher lane group's has been accepted in this cycle (11 R263)? -/
def anvHeld (s : State) (q : Ask) : Bool := !anvRoom s q.core || !inOrder s (clsAnvil q.core) q.lg

/-- Accept a command; a numbered one takes the next tla number (08 R214, 11 R263). -/
def acceptAnv (s : State) (a : Anv) : State :=
  let s := takePlace s (clsAnvil a.core) a.lg
  if a.numbered then
    let num := ((getWg s a.g).map (fun x => x.tla.issued)).getD 0 + 1
    modWg { s with anvs := s.anvs ++ [{ a with num := num }], nextId := s.nextId + 1 } a.g
      (fun x => { x with tla := x.tla.accept })
  else { s with anvs := s.anvs ++ [a], nextId := s.nextId + 1 }

/-- A command completes: its tla step, its token, and what its end lets go (11 R263, R270). -/
def finishAnv (s : State) (a : Anv) : State :=
  let s := observe (dropWalks { s with anvs := s.anvs.filter (fun b => b.id ≠ a.id) } a.id) 1 (s.clock - a.accepted) a.id
  let s := if a.numbered then modWg s a.g (fun x => { x with tla := x.tla.complete a.num }) else s
  let s := lampLeave s (engWho a.id)
  reapAll (wakeWg (licSettle (tokenDone s a.g a.w a.token) (pairOf a.core)) a.g)

/-! ### OB.RES and OB.FREE (11 R256, R257) -/

/-- The ranges of a core that workgroups hold, with their owners: those of its records, and those whose records an OB.RES under way
fills anew, until the commands that use them are done (11 R256, R257). -/
def obRanges (s : State) (core : Nat) : List (Nat × BitVec 128) :=
  (getCore s core).obs.map (fun p => (p.2.owner, p.2.bits)) ++
    ((anvsOf s core).filter (fun a => a.kind = .res && a.recB.getLsbD 96)).map (fun a => (a.g, a.recB))

/-- OB.RES of record n, by a warp or a bundle: a record that the workgroup owns is freed first, as OB.FREE frees it. -/
def obResIssue (s0 t : State) (q : Ask) (layout scale : Word64) (n : Nat) : Res :=
  let r : BitVec 128 := BitVec.ofNat 128 (layout.toNat + bits scale.toNat 0 32 * 2 ^ 64 + 2 ^ 96)
  let obs := (getCore s0 q.core).obs
  let foreign := obs.any (fun p => p.1 = n && p.2.owner ≠ q.g) || (obRanges s0 q.core).any (fun p => p.1 ≠ q.g && obMeet r p.2)
  if obBad r || foreign then .trap trapOperand
  else if anvHeld s0 q then .hold s0
  else
    let a : Anv := { q.anv t .res (BitVec.ofNat 64 n) with recA := r, recB := ((ownRec s0 q.g q.core n).map (·.bits)).getD 0 }
    .done (modCore (acceptAnv t a) q.core (fun c => { c with obs := mset c.obs n ⟨a.id, r, q.g⟩ }))

/-- OB.FREE of record n; `num` holds the handle of the record's OB.RES. -/
def obFreeIssue (s0 t : State) (q : Ask) (n : Nat) : Res :=
  match ownRec s0 q.g q.core n with
  | none => .trap trapOperand
  | some r =>
    if anvHeld s0 q then .hold s0
    else .done (acceptAnv t { q.anv t .free (BitVec.ofNat 64 n) with num := r.id })

/-- The issuer of an anvil command of the warp word. -/
def Ctx.ask (c : Ctx) : Ask := ⟨c.g, c.w, leaderOf c.frag, c.wg.core, c.warp.lg, c.pc, none⟩

/-- OB.RES (11 R256). -/
def execObRes (f : WarpWord) (s : State) : Out :=
  runWord .obRes f s (fun c s0 t => obResIssue s0 t c.ask (sA c f) (sB c .obRes f) (extBits f 32 5))

/-- OB.FREE (11 R257). -/
def execObFree (f : WarpWord) (s : State) : Out :=
  runWord .obFree f s (fun c s0 t => obFreeIssue s0 t c.ask (modBits f 0 5))

/-- Does a copy command write range record n of workgroup g on a core (10 R249, R252)? -/
def copyNames (s : State) (g core n : Nat) (c : Copy) : Bool :=
  c.buf = 3 && obNum c.dst = n && (if c.mc then coreOf s g = core && c.recv.any (fun r => r.1 = g) else c.g = g)

/-- Does an anvil command use range record n: an ANV.MMA that reads it, or with `drains` a drain into it? -/
def anvNames (g n : Nat) (drains : Bool) (a : Anv) : Bool :=
  a.g = g && (match a.kind with
    | .mma => bits a.word.toNat 2 5 = n || bits a.word.toNat 7 5 = n
    | .drain => drains && bits a.word.toNat 9 2 = 3 && obNum a.a = n
    | _ => false)

/-- Find an anvil command of a kind. -/
def findAnv (s : State) (id : Nat) (k : AnvKind) : Option Anv := s.anvs.find? (fun a => a.id = id && a.kind = k)

/-- OB_RES_ZERO_DONE: the range is zero, once the commands accepted before that name the record are done (11 R256). -/
def execObResZeroDone (id : Nat) (s : State) : Out :=
  match findAnv s id .res with
  | none => .next s
  | some a =>
    let n := a.word.toNat
    if s.anvs.any (fun b => b.id < id && b.core = a.core && anvNames a.g n true b) ||
        s.copies.any (fun c => c.id < id && copyNames s a.g a.core n c) || zeroPending s a.g n id then .next s
    else .next (finishAnv (zeroRange s (obKey a.core (256 * obBase a.recA)) (256 * obUnits a.recA)) a)

/-- OB_FREE_RELEASE: the record is free, unless an OB.RES has filled it anew (11 R257); an earlier OB.RES of it has zeroed its range
first. -/
def execObFreeRelease (id : Nat) (s : State) : Out :=
  match findAnv s id .free with
  | none => .next s
  | some a =>
    let n := a.word.toNat
    if s.anvs.any (fun b => b.core = a.core && anvNames a.g n false b) || s.copies.any (copyNames s a.g a.core n) ||
        zeroPending s a.g n id then .next s
    else
      let same : Bool := match ownRec s a.g a.core n with
        | some r => r.id = a.num
        | none => false
      .next (finishAnv (if same then modCore s a.core (fun c => { c with obs := mdel c.obs n }) else s) a)

/-! ### Values of operands (03 R60, R64 to R67) -/

/-- Elements along K of one step. -/
def stepK (fmt : Nat) : Nat := if fmt ≤ 1 then 32 else if fmt = 5 then 8 else 16

/-- The code of element i of row r in a step's 1,024 data bytes (03 R67). -/
def rawElem (fmt data r i : Nat) : Nat :=
  if fmt ≤ 1 then bits data (8 * (16 * r + 4 * (i / 8 % 4)) + 4 * (i % 8)) 4
  else if fmt = 5 then bits data (8 * (16 * r + 2 * i)) 16
  else bits data (8 * (16 * r + i)) 8

/-- The format of an element of a floating record. -/
def recFmt (fmt : Nat) : Fmt :=
  match fmt with
  | 0 => e2m1
  | 2 => e4m3
  | 3 => e5m2
  | _ => bf16

/-- The value of an element of an integer record (03 R60). -/
def intElem (fmt : Nat) (sgn : Bool) (code : Nat) : Int :=
  let w := if fmt = 1 then 4 else 8
  if sgn && 2 ^ (w - 1) ≤ code then (code : Int) - (2 ^ w : Nat) else code

/-- The block scale of element i of row r (03 R64, R67); one where there is none. -/
def blockOf (rec : BitVec 128) (scale r i : Nat) : FVal :=
  if !obBsc rec then .fin false 1 1
  else if obFmt rec = 0 then e3m5 (bits scale (8 * (4 * r + i / 8 % 4)) 8) else e3m5 (bits scale (8 * r) 8)

/-- The band scale (03 R65); one where there is none. -/
def bandOf (rec : BitVec 128) (band : Nat) : FVal := if obBnd rec then bf16.decode band else .fin false 1 1

/-- A row of A, or a column of B, in a step: its values, whether a factor of one is a NaN, and whether a BF16 factor is a
signalling NaN. -/
structure OpRow where
  vals : List FVal
  nan : Bool
  snan : Bool

/-- The values of a row of a floating record (03 R66). -/
def opRow (rec : BitVec 128) (data scale band r : Nat) : OpRow :=
  let F := recFmt (obFmt rec)
  let es := (List.range (stepK (obFmt rec))).map (fun i => F.decode (rawElem (obFmt rec) data r i))
  let b := bandOf rec band
  let nan := es.any FVal.isNan || b.isNan
  { vals := ((List.range es.length).zip es).map (fun p => fvMul (fvMul p.2 (blockOf rec scale r p.1)) b)
    nan := nan
    snan := (obFmt rec = 5 && es.any FVal.isSnan) || b.isSnan }

/-- The values of a row of an integer record. -/
def intRow (rec : BitVec 128) (data r : Nat) : List Int :=
  (List.range (stepK (obFmt rec))).map (fun i => intElem (obFmt rec) (obSgn rec) (rawElem (obFmt rec) data r i))

/-- The exact sum of the products of two rows (11 R259). -/
def stepSum (a b : List FVal) : FVal :=
  match (a.zip b).map (fun p => fvMul p.1 p.2) with
  | [] => .zero false
  | t :: ts => ts.foldl (fvAdd 0) t

/-- One element of an A96 step: its new value and its status bits MNV MOF MUF MNX (11 R259, R260). -/
def stepElem (a b : OpRow) (z : BitVec 96) : BitVec 96 × BitVec 8 :=
  let x := a96.decode z.toNat
  let y := fvAdd 0 x (stepSum a.vals b.vals)
  let r := roundTo a96 0 0 y
  let bad := y.isNan && !a.nan && !b.nan && !x.isNan
  let st := (if bad then 8 else 0) + (if r.fl &&& flOF ≠ 0 then 4 else 0) + (if r.fl &&& flUF ≠ 0 then 2 else 0) +
    (if r.fl &&& flNX ≠ 0 then 1 else 0)
  (BitVec.ofNat 96 r.code, BitVec.ofNat 8 st)

/-- One element of an I96 step (03 R69, 11 R259). -/
def stepInt (a b : List Int) (z : BitVec 96) : BitVec 96 :=
  z + BitVec.ofInt 96 ((a.zip b).foldl (fun n p => n + p.1 * p.2) 0)

/-- A tile from its elements, those that are zero unlisted. -/
def tileOf (f : Nat → BitVec 96) : SMap (BitVec 96) :=
  (List.range 4096).filterMap (fun k => if f k = 0 then none else some (k, f k))

/-- A tile after a step (11 R259). -/
def stepTile (a : Anv) (sn : Snap) (t : Tile) : Tile :=
  if a.i96 then
    let A := (List.range 64).map (intRow a.recA sn.adata)
    let B := (List.range 64).map (intRow a.recB sn.bdata)
    { t with elems := tileOf (fun k => stepInt (A.getD (k / 64) []) (B.getD (k % 64) []) (mgetD t.elems k 0)) }
  else
    let A := (List.range 64).map (opRow a.recA sn.adata sn.ascale sn.aband)
    let B := (List.range 64).map (opRow a.recB sn.bdata sn.bscale sn.bband)
    let d : OpRow := ⟨[], false, false⟩
    let rs := (List.range 4096).map (fun k => (k, stepElem (A.getD (k / 64) d) (B.getD (k % 64) d) (mgetD t.elems k 0)))
    let sn : BitVec 8 := if (A ++ B).any (·.snan) then 8 else 0
    { t with elems := rs.filterMap (fun p => if p.2.1 = 0 then none else some (p.1, p.2.1))
             status := rs.foldl (fun st p => st ||| p.2.2) (t.status ||| sn) }

/-! ### ANV.MMA (11 R258, R259, R263) -/

/-- Fields of the MMA word (11 R259). -/
def mmaSteps (w : Word64) : Nat := bits w.toNat 12 9

/-- Tile kind of a pairing of formats: true I96; none where 11 R258 does not list it. -/
def pairKind (a b : Nat) : Option Bool :=
  if a = 0 ∧ b = 0 then some false
  else if a = 1 ∧ b = 1 then some true
  else if (a = 2 ∨ a = 3) ∧ (b = 2 ∨ b = 3) then some false
  else if a = 4 ∧ b = 4 then some true
  else if a = 5 ∧ b = 5 then some false
  else none

/-- The command that an MMA word makes, or none where 11 R259 refuses it. -/
def mmaCommand (s : State) (q : Ask) (word ka kb : Word64) : Option Anv :=
  let n := mmaSteps word
  match ownRec s q.g q.core (bits word.toNat 2 5), ownRec s q.g q.core (bits word.toNat 7 5),
      ownTile s q.g q.core (bits word.toNat 0 2) with
  | some ra, some rb, some t =>
    if bits word.toNat 21 43 ≠ 0 || n = 0 || 256 < n || 255 < ka.toNat || 255 < kb.toNat ||
        obSteps ra.bits < ka.toNat + n || obSteps rb.bits < kb.toNat + n ||
        pairKind (obFmt ra.bits) (obFmt rb.bits) ≠ some t.i96 then none
    else some { q.anv s .mma word with a := ka, b := kb, recA := ra.bits, recB := rb.bits, i96 := t.i96 }
  | _, _, _ => none

/-- Steps of a command that have started. -/
def Anv.begun (a : Anv) : Nat := a.committed + a.flight.length

/-- Byte ranges of the operand buffer that a step of a record reads. -/
def stepReads (rec : BitVec 128) (k : Nat) : List (Nat × Nat) :=
  let base := 256 * obBase rec
  [(base + 1024 * k, 1024)] ++
  (if obBsc rec then [if obFmt rec = 0 then (base + obScaleAt rec + 256 * k, 256)
    else (base + obScaleAt rec + 64 * (k / 2), 64)] else []) ++
  (if obBnd rec then [(base + obBandAt rec, 2)] else [])

/-- The first poisoned byte among ranges of a core's operand buffer. -/
def obPoison (s : State) (core : Nat) (rs : List (Nat × Nat)) : Option Nat :=
  (rs.filter (fun r => s.poison.any (fun gr => gr < 2 ^ 200 && gr * 32 < obKey core (r.1 + r.2) &&
    obKey core r.1 < gr * 32 + 32))).head?.map (·.1)

/-- What the next step of a command would meet as poisoned, its space and its address: operand bytes, or an element of its tile
(11 R268, 14 R338). -/
def stepPoison (s : State) (a : Anv) : Option (Nat × Nat) :=
  match obPoison s a.core (stepReads a.recA (a.a.toNat + a.begun) ++ stepReads a.recB (a.b.toNat + a.begun)) with
  | some off => some (4, off)
  | none => if (mget (getCore s a.core).tiles (bits a.word.toNat 0 2)).any (fun t => !t.poisoned.isEmpty) then some (15, 0) else none

/-- The operand bytes of a step (11 R264). -/
def takeSnap (s : State) (a : Anv) : Snap :=
  let rd (rec : BitVec 128) (off n : Nat) : Nat := readNat s.mem (obKey a.core (256 * obBase rec + off)) n
  let scale (rec : BitVec 128) (k : Nat) : Nat :=
    if !obBsc rec then 0
    else if obFmt rec = 0 then rd rec (obScaleAt rec + 256 * k) 256 else rd rec (obScaleAt rec + 64 * (k / 2)) 64
  let band (rec : BitVec 128) : Nat := if obBnd rec then rd rec (obBandAt rec) 2 else 0
  let ka := a.a.toNat + a.begun
  let kb := a.b.toNat + a.begun
  { step := a.begun, started := s.clock, adata := rd a.recA (1024 * ka) 1024, ascale := scale a.recA ka
    aband := band a.recA, bdata := rd a.recB (1024 * kb) 1024, bscale := scale a.recB kb, bband := band a.recB }

/-- Cycles before this one in which a lane group may have started a step, and how many steps, for one to start now: the duty of its
power level (16 R373). -/
def stepDuty (plevel : Nat) : Nat × Nat :=
  match plevel with
  | 0 => (0, 0)
  | 1 => (3, 2)
  | 2 => (1, 0)
  | _ => (3, 0)

/-- Does the step unit of a core take a step for a lane group now: one in a cycle, within the lane group's duty (11 R263, 16
R373)? -/
def stepSlot (s : State) (core lg : Nat) : Bool :=
  let d := stepDuty (getLg s core lg).plevel
  (List.range 4).all (fun i => !(getLg s core i).stepped.contains s.clock) &&
    (((getLg s core lg).stepped.filter (fun c => s.clock ≤ c + d.1)).length ≤ d.2)

/-- Does an urgent request of another workgroup wait for the licence of a workgroup's pair (11 R270)? -/
def urgentWaits (s : State) (g : Nat) : Bool := (getPair s (pairOfWg s g)).reqs.any (fun r => r.urgent && r.g ≠ g)

/-- May the next step of a command start: the workgroup holds the licence and no urgent request waits for it, its earlier ANV.MMA
commands have started every step, no earlier command has the tile, the records' ranges are zeroed, and the step unit takes it (11
R256, R263, R269, R270)? -/
def stepReady (s : State) (a : Anv) : Bool :=
  holdsLic s a.g && !urgentWaits s a.g && stepSlot s a.core a.lg && a.begun < mmaSteps a.word &&
  s.anvs.all (fun b => !(b.core = a.core && b.id < a.id &&
    (if b.kind = .mma then (b.g = a.g || b.tile = a.tile) && b.begun < mmaSteps b.word else b.tile = a.tile && b.tile.isSome))) &&
  !zeroPending s a.g (bits a.word.toNat 2 5) a.id && !zeroPending s a.g (bits a.word.toNat 7 5) a.id

/-- Change a command in the queue. -/
def modAnv (s : State) (id : Nat) (f : Anv → Anv) : State :=
  { s with anvs := s.anvs.map (fun a => if a.id = id then f a else a) }

/-- ANV_STEP_START: the next step of a command reads its operands (11 R263, R264). -/
def execAnvStepStart (id : Nat) (s : State) : Out :=
  match findAnv s id .mma with
  | none => .next s
  | some a =>
    if stepReady s a && (stepPoison s a).isNone then
      .next (modLg (modAnv s id (fun a => { a with flight := a.flight ++ [takeSnap s a] })) a.core a.lg
        (fun l => { l with stepped := (s.clock :: l.stepped).take 4 }))
    else .next s

/-- ANV_STEP_COMMIT: the oldest step under way is committed to the whole tile; the command completes with its last
(11 R259, R263). -/
def execAnvStepCommit (id : Nat) (s : State) : Out :=
  match findAnv s id .mma with
  | none => .next s
  | some a =>
    match a.flight, a.tile with
    | sn :: rest, some z =>
      if s.anvs.any (fun b => b.core = a.core && b.kind = .mma && b.id < id && !b.flight.isEmpty) ||
          !inOrder s (clsLic (pairOf a.core)) 0 then .next s
      else
        let a' : Anv := { a with committed := a.committed + 1, flight := rest }
        let s := modPair (modTile (modAnv s id (fun _ => a')) a.core z (stepTile a sn)) (pairOf a.core)
          (fun p => { p with idleFrom := s.clock })
        .next (if a'.committed = mmaSteps a.word then finishAnv s a' else s)
    | _, _ => .next s

/-! ### ANV.ZERO, ANV.DRAIN, ANV.LOADZ (11 R265 to R267) -/

/-- Are all earlier commands on a command's tile done (11 R263)? -/
def tileTurn (s : State) (a : Anv) : Bool :=
  s.anvs.all (fun b => !(b.core = a.core && b.id < a.id && b.tile.isSome && b.tile = a.tile))

/-- Take a tile at acceptance: its owner and kind; a free tile starts with nothing. -/
def takeTile (s : State) (g core z : Nat) (i96 : Bool) : State :=
  modCore s core (fun c =>
    let t := mgetD c.tiles z ⟨g, i96, 0, [], []⟩
    { c with tiles := mset c.tiles z { t with owner := g, i96 := i96 } })

/-- ANV.ZERO of a tile: word is tile [1:0] and .i [2]. -/
def anvZeroIssue (s0 t : State) (q : Ask) (word : Word64) : Res :=
  let z := bits word.toNat 0 2
  let i96 := bits word.toNat 2 1 = 1
  if foreignTile s0 q.g q.core z then .trap trapOperand
  else if anvHeld s0 q then .hold s0
  else .done (takeTile (acceptAnv t { q.anv t .zero word with i96 := i96 }) q.g q.core z i96)

/-- ANV.ZERO (11 R265). -/
def execAnvZero (f : WarpWord) (s : State) : Out :=
  runWord .anvZero f s (fun c s0 t => anvZeroIssue s0 t c.ask (BitVec.ofNat 64 (modBits f 0 3)))

/-- ANV_ZERO_COMPLETE (11 R265). -/
def execAnvZeroComplete (id : Nat) (s : State) : Out :=
  match findAnv s id .zero with
  | none => .next s
  | some a =>
    if !tileTurn s a then .next s
    else .next (finishAnv (modTile s a.core (bits a.word.toNat 0 2)
      (fun t => { t with elems := [], status := 0, poisoned := [] })) a)

/-- Bits of a drained element by FMT (11 R266). -/
def drainBits (fmt : Nat) : Nat :=
  match fmt with
  | 0 => 32
  | 6 => 32
  | 1 => 16
  | 2 => 16
  | 3 => 8
  | 4 => 8
  | 5 => 4
  | _ => 96

/-- Bytes of a drained row. -/
def drainRow (fmt : Nat) : Nat := 8 * drainBits fmt

/-- The first misalignment among an address, a pitch and an offset (11 R266); the latter two are no addresses (14 R329). -/
def rowMisalign (space : Nat) (ad : Word64) (others : List Nat) : Option Trap :=
  if ad.toNat % 4 ≠ 0 then some (alignTrap space ad)
  else (others.find? (fun v => v % 4 ≠ 0)).map (fun _ => alignTrap 15 0)

/-- ANV.DRAIN, by a warp or a bundle: address, pitch with scale offset, seed, drain word. -/
def anvDrainIssue (s0 t : State) (q : Ask) (D pt seed word : Word64) : Res :=
  let w := word.toNat
  let fmt := bits w 2 4
  let rnd := bits w 6 3
  let PT := bits pt.toNat 0 32
  let SO := bits pt.toNat 32 32
  let sp := bufSpace (bits w 9 2)
  match ownTile s0 q.g q.core (bits w 0 2) with
  | none => .trap trapOperand
  | some z =>
    if 2 ^ 24 ≤ w || 64 < bits w 11 6 + bits w 17 6 + 1 || 7 < fmt ||
        (if fmt = 7 then 0 else if fmt = 6 then 3 else 4) < rnd || (SO ≠ 0 && fmt ≠ 5) || PT < drainRow fmt ||
        (sp = 4 && (ownRec s0 q.g q.core (obNum D)).isNone) then .trap trapOperand
    else match rowMisalign sp D [PT, SO] with
      | some tr => .trap tr
      | none =>
        if anvHeld s0 q then .hold s0
        else .done (acceptAnv t { q.anv t .drain word with
          a := D, b := pt, c := seed, i96 := z.i96
          recA := if sp = 4 then ((ownRec s0 q.g q.core (obNum D)).map (·.bits)).getD 0 else 0 })

/-- ANV.DRAIN (11 R266). -/
def execAnvDrain (f : WarpWord) (s : State) : Out :=
  runWord .anvDrain f s (fun c s0 t =>
    anvDrainIssue s0 t c.ask (sA c f) (sB c .anvDrain f) (sC c f) (BitVec.ofNat 64 (extBits f 32 25)))

/-- The value of a tile element (11 R266). -/
def tileVal (i96 : Bool) (z : BitVec 96) : FVal := if i96 then .ofInt z.toInt else a96.decode z.toNat

/-- One drained element other than .e2m1: its code, flags and the stochastic register. -/
def drainElem (fmt rnd : Nat) (i96 : Bool) (L : Word32) (z : BitVec 96) : Nat × BitVec 5 × Word32 :=
  let x := tileVal i96 z
  match fmt with
  | 7 => (z.toNat, 0, L)
  | 6 =>
    let (v, fl, L) := convOut 1 rnd false L x
    (v.toNat % 2 ^ 32, fl, L)
  | _ =>
    let F := match fmt with
      | 0 => f32
      | 1 => bf16
      | 2 => f16
      | 3 => e4m3
      | _ => e5m2
    let r := roundTo F rnd L x
    (r.code, r.fl, r.st)

/-- A drained row: its bytes as a number, its block-scale codes, its flags, and the stochastic register after it. -/
structure DrainRow where
  out : Nat
  codes : Nat
  fl : BitVec 5
  st : Word32

/-- Elements of a list put side by side, w bits each. -/
def packBitsOf (w : Nat) (l : List Nat) : Nat := l.foldr (fun c n => c + 2 ^ w * n) 0

/-- Convert the elements of a list in order, with the flags ORed and the register carried. -/
def drainList (f : Word32 → BitVec 96 → Nat × BitVec 5 × Word32) (L : Word32) (zs : List (BitVec 96)) :
    List Nat × BitVec 5 × Word32 :=
  zs.foldl (fun acc z =>
    let (c, fl, L) := f acc.2.2 z
    (acc.1 ++ [c], acc.2.1 ||| fl, L)) ([], 0, L)

/-- Drain one row of 64 elements (11 R266). -/
def drainOne (fmt rnd : Nat) (i96 : Bool) (L : Word32) (zs : List (BitVec 96)) : DrainRow :=
  if fmt = 5 then
    (List.range 8).foldl (fun (acc : DrainRow) w =>
      let blk := (List.range 8).map (fun i => zs.getD (8 * w + i) 0)
      let code := blockScale e2m1 (blk.map (tileVal i96))
      let (cs, fl, L) := drainList (fun L z =>
        let r := blockElem e2m1 rnd L (tileVal i96 z) code
        (r.code, r.fl, r.st)) acc.st blk
      { out := acc.out + 2 ^ (32 * w) * packBitsOf 4 cs, codes := acc.codes + 2 ^ (8 * w) * code, fl := acc.fl ||| fl, st := L })
      ⟨0, 0, 0, L⟩
  else
    let (cs, fl, L) := drainList (drainElem fmt rnd i96) L zs
    ⟨packBitsOf (drainBits fmt) cs, 0, fl, L⟩

/-- A row of a tile. -/
def tileRow (t : Tile) (r : Nat) : List (BitVec 96) := (List.range 64).map (fun c => mgetD t.elems (64 * r + c) 0)

/-- Rows of a command: the first, and how many. -/
def drainRows (a : Anv) : Nat × Nat := (bits a.word.toNat 11 6, bits a.word.toNat 17 6 + 1)

/-- The drained rows of a command, in order. -/
def drainAll (a : Anv) (t : Tile) : List DrainRow :=
  let (r0, n) := drainRows a
  let seed : Word32 := a.c.setWidth 32
  let L : Word32 := if seed = 0 then 1 else seed
  ((List.range n).foldl (fun (acc : List DrainRow × Word32) i =>
    let d := drainOne (bits a.word.toNat 2 4) (bits a.word.toNat 6 3) a.i96 acc.2 (tileRow t (r0 + i))
    (acc.1 ++ [d], d.st)) ([], L)).1

/-- The writes of a drained row (11 R266). -/
def drainMoves (a : Anv) (i : Nat) (d : DrainRow) : List Move :=
  let fmt := bits a.word.toNat 2 4
  let sp := bufSpace (bits a.word.toNat 9 2)
  let PT := bits a.b.toNat 0 32
  let SO := bits a.b.toNat 32 32
  let word (v j : Nat) : Src := .lit (v / 2 ^ (32 * j) % 2 ^ 32)
  (List.range (drainRow fmt / 4)).map (fun j => ⟨word d.out j, sp, a.a + BitVec.ofNat 64 (i * PT + 4 * j), 4⟩) ++
  (if fmt = 5 then (List.range 2).map (fun j => ⟨word d.codes j, sp, a.a + BitVec.ofNat 64 (SO + 8 * i + 4 * j), 4⟩) else [])

/-- DNV DOF DUF DNX from the flags of a conversion (11 R260). -/
def drainStatus (fl : BitVec 5) : BitVec 8 :=
  BitVec.ofNat 8 ((if fl &&& flNV ≠ 0 then 128 else 0) + (if fl &&& flOF ≠ 0 then 64 else 0) +
    (if fl &&& flUF ≠ 0 then 32 else 0) + (if fl &&& flNX ≠ 0 then 16 else 0))

/-- The workgroup's place in a command. -/
def Anv.self (a : Anv) (x : Wg) : Target := ⟨⟨a.core, x.asid, engWho a.id, a.g, engWho a.id⟩, a.recA, none⟩

/-- May a drain or a load proceed: its turn on the tile, its issuer's earlier accesses, and the zeroing of its record? -/
def rowsReady (s : State) (a : Anv) : Bool :=
  tileTurn s a && issuerDone s a.g a.w a.lanes a.id &&
  !(a.kind = .drain && bits a.word.toNat 9 2 = 3 && zeroPending s a.g (obNum a.a) a.id)

/-- The rows of a drain before the first that reads a poisoned element (14 R338), and whether there is one. -/
def cleanRows (a : Anv) (t : Tile) : Nat × Bool :=
  let (r0, n) := drainRows a
  match (List.range n).find? (fun i => t.poisoned.any (fun k => k / 64 = r0 + i)) with
  | some i => (i, true)
  | none => (n, false)

/-- The rows of a drain, as units. -/
def drainUnits (a : Anv) (t : Tile) : List CUnit :=
  ((List.range (drainAll a t).length).zip (drainAll a t)).map (fun p => (⟨none, fun _ => drainMoves a p.1 p.2⟩ : CUnit))

/-- What a drain's progress comes to. -/
def drainRun (s : State) (a : Anv) (x : Wg) (t : Tile) : Run :=
  if !rowsReady s a then .blocked .span
  else
    let (clean, bad) := cleanRows a t
    match runUnits (a.self x) [a.self x] ((drainUnits a t).take clean) 0 s with
    | .finished u n => if bad then .faulted u n 4 15 0 [] else .finished u n
    | .faulted u n c sp ad rest => .faulted u n c sp ad (rest.take 1)
    | r => r

/-- The tile after the first n rows of a drain: flags, and under CLR the rows at zero (11 R266). -/
def drainTile (s : State) (a : Anv) (t : Tile) (n : Nat) : State :=
  let fl := ((drainAll a t).take n).foldl (fun fl d => fl ||| d.fl) (0 : BitVec 5)
  let r0 := (drainRows a).1
  modTile s a.core (bits a.word.toNat 0 2) (fun t =>
    { t with status := t.status ||| drainStatus fl
             elems := if a.word.getLsbD 23 then t.elems.filter (fun e => !(r0 ≤ e.1 / 64 && e.1 / 64 < r0 + n)) else t.elems })

/-- ANV_DRAIN_COMPLETE (11 R266). -/
def execAnvDrainComplete (id : Nat) (s : State) : Out :=
  match findAnv s id .drain with
  | none => .next s
  | some a =>
    match getWg s a.g, mget (getCore s a.core).tiles (bits a.word.toNat 0 2) with
    | some x, some t =>
      match drainRun s a x t with
      | .finished u n => .next (finishAnv (drainTile u a t n) a)
      | .blocked b => .next (applyBlock s id ((drainUnits a t).flatMap (fun u => u.moves 0)) b)
      | .faulted _ _ _ _ _ _ => .next s
      | .hole => .fault .physicalHole
    | _, _ => .next s

/-- ANV.LOADZ, by a warp or a bundle: address, pitch, load word. -/
def anvLoadzIssue (s0 t : State) (q : Ask) (D pt word : Word64) : Res :=
  let w := word.toNat
  let n := bits w 11 6 + 1
  let PT := bits pt.toNat 0 32
  let i96 := bits w 2 1 = 1
  let z := bits w 0 2
  let fresh := n = 64 || (ownTile s0 q.g q.core z).isNone
  let kindBad := !fresh && (match ownTile s0 q.g q.core z with
    | some x => x.i96 ≠ i96
    | none => false)
  if foreignTile s0 q.g q.core z || 2 ^ 17 ≤ w || 64 < bits w 5 6 + n || bits w 3 2 = 3 || PT < 768 || kindBad then
    .trap trapOperand
  else match rowMisalign (bits w 3 2) D [PT] with
    | some tr => .trap tr
    | none =>
      if anvHeld s0 q then .hold s0
      else .done (takeTile (acceptAnv t { q.anv t .loadz word with a := D, b := pt, i96 := i96, fresh := fresh }) q.g q.core z i96)

/-- ANV.LOADZ (11 R267). -/
def execAnvLoadz (f : WarpWord) (s : State) : Out :=
  runWord .anvLoadz f s (fun c s0 t =>
    anvLoadzIssue s0 t c.ask (sA c f) (sB c .anvLoadz f) (BitVec.ofNat 64 (extBits f 32 17)))

/-- Read the 12-byte image of an element (11 R267). -/
def loadElem (s : State) (a : Anv) (x : Wg) (i c : Nat) : Except Bad (BitVec 96) :=
  (List.range 3).foldlM (fun v j =>
    match engRead s (a.self x) (bits a.word.toNat 3 2)
      (a.a + BitVec.ofNat 64 (i * bits a.b.toNat 0 32 + 12 * c + 4 * j)) 4 with
    | .ok d => .ok (v ||| BitVec.ofNat 96 (d * 2 ^ (32 * j)))
    | .error e => .error e) 0

/-- Read a row of images. -/
def loadRow (s : State) (a : Anv) (x : Wg) (i : Nat) : Except Bad (List (BitVec 96)) :=
  (List.range 64).foldlM (fun l c =>
    match loadElem s a x i c with
    | .ok v => .ok (l ++ [v])
    | .error e => .error e) []

/-- Read the rows left of a load: those read, and why the next could not be. -/
def loadRows (s : State) (a : Anv) (x : Wg) : List Nat → List (List (BitVec 96)) × Option Bad
  | [] => ([], none)
  | i :: is =>
    match loadRow s a x i with
    | .ok r =>
      let (rs, b) := loadRows s a x is
      (r :: rs, b)
    | .error e => ([], some e)

/-- The reads of a load, as moves. -/
def loadMoves (a : Anv) : List Move :=
  (List.range (192 * (bits a.word.toNat 11 6 + 1))).map (fun j =>
    ⟨.mem (bits a.word.toNat 3 2) (a.a + BitVec.ofNat 64 (j / 192 * bits a.b.toNat 0 32 + 4 * (j % 192))), 15, 0, 4⟩)

/-- What a load of n rows has observed at the point of coherence leaves the L1 of its core (07 R169). -/
def rowsSeen (s : State) (a : Anv) (x : Wg) (n : Nat) : State :=
  (List.range (192 * n)).foldl (fun s j => engSeen s (a.self x) (bits a.word.toNat 3 2)
    (a.a + BitVec.ofNat 64 (j / 192 * bits a.b.toNat 0 32 + 4 * (j % 192))) 4) s

/-- What a load reads: its rows, and why it stopped. -/
def loadRun (s : State) (a : Anv) (x : Wg) : List (List (BitVec 96)) × Option Bad :=
  if !rowsReady s a then ([], some (.block .span)) else loadRows s a x (List.range (bits a.word.toNat 11 6 + 1))

/-- Put loaded rows into a tile, the others zero with `fresh` (11 R267). -/
def putRows (a : Anv) (rs : List (List (BitVec 96))) (fresh : Bool) (t : Tile) : Tile :=
  let r0 := bits a.word.toNat 5 6
  let loaded (k : Nat) : Bool := r0 ≤ k / 64 && k / 64 < r0 + rs.length
  { t with
    elems := tileOf (fun k => if loaded k then (rs.getD (k / 64 - r0) []).getD (k % 64) 0
      else if fresh then 0 else mgetD t.elems k 0)
    status := if fresh then 0 else t.status
    poisoned := t.poisoned.filter (fun k => !(fresh || loaded k)) }

/-- ANV_LOADZ_COMPLETE (11 R267). -/
def execAnvLoadzComplete (id : Nat) (s : State) : Out :=
  match findAnv s id .loadz with
  | none => .next s
  | some a =>
    match getWg s a.g with
    | none => .next s
    | some x =>
      match loadRun s a x with
      | (rs, none) => .next (finishAnv (modTile (rowsSeen s a x rs.length) a.core (bits a.word.toNat 0 2) (putRows a rs a.fresh)) a)
      | (_, some (.block b)) => .next (applyBlock s id (loadMoves a) b)
      | (_, some .hole) => .fault .physicalHole
      | (_, some (.fault _ _ _)) => .next s

/-! ### Faults (11 R268) -/

/-- The summary of a faulted anvil command. -/
def anvSummary (a : Anv) (done cause space : Nat) (ad : Word64) : Summary where
  word := BitVec.ofNat 64 (done * 2 ^ 40 + a.num % 2 ^ 32 * 2 ^ 8 + cause * 2 ^ 4 + 1)
  num := a.num
  faddr := ad
  space := space
  pc := a.pc
  delivered := false
  bars := []
  warp := a.w
  token := a.token

/-- A command ends in a fault (11 R268). -/
def faultAnv (s : State) (a : Anv) (done cause space : Nat) (ad : Word64) : State :=
  finishAnv (recordSummary s a.g a.w true (anvSummary a done cause space ad)) a

/-- ANV_FAULT: a command that has met a fault ends (11 R268). A faulted ANV.LOADZ that took a free tile, or that named all 64 rows,
leaves the owner and KIND that its acceptance set, and status and the rows from DONE on as they were: DESIGN CHOICE, log 54. -/
def execAnvFault (id : Nat) (s : State) : Out :=
  match s.anvs.find? (fun a => a.id = id) with
  | none => .next s
  | some a =>
    match a.kind, getWg s a.g with
    | .mma, _ =>
      match stepPoison s a with
      | some (sp, off) =>
        if stepReady s a && a.flight.isEmpty then .next (faultAnv s a a.committed 4 sp (BitVec.ofNat 64 off)) else .next s
      | none => .next s
    | .drain, some x =>
      match mget (getCore s a.core).tiles (bits a.word.toNat 0 2) with
      | none => .next s
      | some t =>
        match drainRun s a x t with
        | .faulted u n c sp ad rest =>
          let u := scatter u a.core (tailCells u (a.self x) [a.self x] rest 4096)
          .next (faultAnv (drainTile u a t n) a n c sp ad)
        | .blocked b => .next (applyBlock s id ((drainUnits a t).flatMap (fun u => u.moves 0)) b)
        | .finished _ _ => .next s
        | .hole => .fault .physicalHole
    | .loadz, some x =>
      match loadRun s a x with
      | (rs, some (.fault c sp ad)) =>
        .next (faultAnv (modTile (rowsSeen s a x rs.length) a.core (bits a.word.toNat 0 2) (putRows a rs false)) a rs.length c sp ad)
      | (_, some (.block b)) => .next (applyBlock s id (loadMoves a) b)
      | (_, some .hole) => .fault .physicalHole
      | (_, none) => .next s
    | _, _ => .next s

/-! ### Gangs (11 R261, R262, R272) -/

/-- The gang-mismatch trap: 1 MISMATCH, 2 NONMEMBER. -/
def trapGang (sub : Nat) : Trap := { cause := 6, sub := sub }

/-- The licence trap. -/
def trapLicence : Trap := { cause := 7 }

/-- End the bank-lock span of a warp that waits (08 R232). -/
def endSpan (s : State) (c : Ctx) : State :=
  modCore s c.wg.core (fun x => { x with spans := x.spans.filter (fun sp => sp.warp ≠ warpKey c.g c.w) })

/-- Members take a trap, one warp after another, to a state without an issuer; a member's trap that has to wait is due. -/
def trapMembers (g : Nat) (tr : Trap) : List Member → State → Out
  | [], s => .next (clearIssuer s)
  | m :: ms, s =>
    match ctxOf s ⟨g, m.w, m.e⟩ m.f.guard with
    | none => trapMembers g tr ms s
    | some c =>
      match takeTrap { s with issuer := some ⟨g, m.w, m.e⟩ } tr (siteOf s c (encodeWord .anvMma m.f) (some .anvMma) m.f true) with
      | .next t => trapMembers g tr ms t
      | r => r

/-- A trap that the arriving warp and every other waiting member take; the latch empties. -/
def gangTrap (s : State) (c : Ctx) (f : WarpWord) (tr : Trap) : Res :=
  let ms := ((c.wg.latch.map (·.waiting)).getD []).filter (fun m => m.w ≠ c.w)
  match trapMembers c.g tr (ms ++ [⟨c.w, c.e, f⟩]) (modWg s c.g (fun x => { x with latch := none })) with
  | .next t => .done t
  | .fault x => .stop x
  | .refused _ => .hold s

/-- The latch with the arriving member in it. -/
def joinLatch (c : Ctx) (f : WarpWord) : Latch :=
  match c.wg.latch with
  | some l => if l.waiting.any (fun m => m.w = c.w) then l else { l with waiting := l.waiting ++ [⟨c.w, c.e, f⟩] }
  | none => ⟨f.ext, sA c f, sB c .anvMma f, [⟨c.w, c.e, f⟩], false⟩

/-- The issuer of a gang's command, whose lane group is that of the gang's lowest WARPID (16 R373). -/
def gangAsk (s : State) (c : Ctx) : Ask :=
  { c.ask with lg := (((warpsOf c.wg.gang).head?.bind (getWarp s c.g)).map (·.lg)).getD c.warp.lg }

/-- Step 4 of 11 R261 on a state whose latch holds the whole gang: the checks, the licence, the queue, the command. -/
def gangIssue (s : State) (c : Ctx) (f : WarpWord) (l : Latch) : Res :=
  let q := gangAsk s c
  match mmaCommand s q l.word l.ka l.kb with
  | none => gangTrap s c f trapOperand
  | some _ =>
    let waits := holdsLic s c.g || hasReq s c.g || l.asked
    if !waits && licTrapOf s c.wg.rnum then gangTrap s c f trapLicence
    else if !waits && !licOpen s c.g false then .hold s
    else
      let s := if waits then s else raiseReq s c.g false false false
      if !holdsLic s c.g then
        .hold (endSpan (modWg s c.g (fun x => { x with latch := x.latch.map (fun l => { l with asked := true }) })) c)
      else if anvHeld s q then .hold s
      else match mmaCommand s q l.word l.ka l.kb with
        | none => .hold s
        | some a =>
          let s := modWg (acceptAnv s a) c.g (fun x => { x with latch := none })
          let s := l.waiting.foldl (fun s m => if m.w = c.w then s else
            match ctxOf s ⟨c.g, m.w, m.e⟩ m.f.guard with
            | some d => advance s d m.f
            | none => s) s
          .done (countSpan (advance s c f) c .anvMma f)

/-- ANV.MMA (11 R259, R261). -/
def execAnvMma (f : WarpWord) (s : State) : Out :=
  runWord .anvMma f s (fun c s0 _ =>
    if !c.wg.gang.getLsbD c.w then .trap (trapGang 2)
    else
      let l := joinLatch c f
      if l.word ≠ f.ext ∨ l.ka ≠ sA c f ∨ l.kb ≠ sB c .anvMma f then gangTrap s0 c f (trapGang 1)
      else if !l.waiting.any (fun m => m.w = c.w && m.e = c.e) then .hold s0
      else
        let s1 := modWg s0 c.g (fun x => { x with latch := some l })
        if (warpsOf c.wg.gang).all (fun w => l.waiting.any (fun m => m.w = w)) then
          match getWg s1 c.g with
          | some x => gangIssue s1 { c with wg := x } f l
          | none => .hold s1
        else .hold s1)

/-- GANG.SET (11 R262). -/
def execGangSet (f : WarpWord) (s : State) : Out :=
  runWord .gangSet f s (fun c s0 t =>
    let m : BitVec 16 := (sB c .gangSet f).setWidth 16
    let n := (warpsOf m).length
    if n = 0 || 6 < n || m &&& ~~~liveSet s0 c.g ≠ 0 || c.wg.latch.isSome then .trap trapOperand
    else .done (modWg t c.g (fun x => { x with gang := m })))

end Sys2Proof.Machine
end

