-- ==== Sys2Proof/Machine/Licence.lean ====
section
/-!
DEFINITION. The matrix licence (11 R269 to R274) and the twin flags (11 R280, R281), with the licence's events.
-/

namespace Sys2Proof.Machine

/-- Pin the licence of a pair, if it is held (11 R273). A LIC.ACQ after LIC.REL, while the workgroup's accepted ANV.MMA commands still
complete, pins it until then and does not undo the release: DESIGN CHOICE, log 54. -/
def pinLic (s : State) (p : Nat) : State :=
  modPair s p (fun q => { q with lic := match q.lic with
    | .held g side _ => .held g side true
    | l => l })

/-- LIC.ACQ (11 R273). -/
def execLicAcq (f : WarpWord) (s : State) : Out :=
  runWord .licAcq f s (fun c s0 t =>
    let held := holdsLic s0 c.g
    let p := pairOf c.wg.core
    if modBits f 0 1 = 1 then .done (swrite (if held then pinLic t p else t) c.g c.w f.dst.toNat (if held then 1 else 0))
    else if held then .done (pinLic t p)
    else if ((mget c.warp.frags c.e).map (·.asked)).getD false then .hold (endSpan s0 c)
    else if !licOpen s0 c.g false then .hold s0
    else
      let t := raiseReq t c.g true false false
      if holdsLic t c.g then .done t
      else .hold (askFrag (endSpan (raiseReq s0 c.g true false false) c) c.g c.w c.e))

/-- LIC.REL (11 R273); a release comes before a cycle's withdrawals, and these before its requests (11 R270). -/
def execLicRel (f : WarpWord) (s : State) : Out :=
  runWord .licRel f s (fun c s0 t =>
    if !inOrder s0 (clsLic (pairOf c.wg.core)) (if holdsLic s0 c.g then 0 else if hasReq s0 c.g then 1 else 2 ^ 60) then .hold s0
    else .done (releaseLic t c.g))

/-- The licence word (11 R274) for a workgroup. A request that is being served in TRANSFER still reads as pending in MYREQ and TWREQ:
DESIGN CHOICE, log 54. -/
def licWord (s : State) (g core : Nat) : Nat :=
  let q := getPair s (pairOf core)
  let other (h : Nat) : Bool := h ≠ 0 && (getWg s h).isSome && sideOfWg s h ≠ sideOf core
  let (state, side, trem, pin, mine, tw) := match q.lic with
    | .unowned sd => (0, sd, 0, false, false, false)
    | .held h sd pn => (1, sd, 0, pn, decide (h = g), false)
    | .transfer h sd _ b => (2, sd, Config.licenceTransfer - (s.clock - b), false, false, other h)
  let tw := tw || q.reqs.any (fun r => other r.g)
  trem * 2 ^ 16 + (if tw then 64 else 0) + (if hasReq s g then 32 else 0) + (if pin then 16 else 0) +
    (if mine then 8 else 0) + side * 4 + state

/-- The status of a tile for a workgroup (11 R260). -/
def tileWord (s : State) (g core z : Nat) : Nat :=
  match ownTile s g core z with
  | none => 0
  | some t =>
    2 ^ 10 + (if (anvsOf s core).any (fun a => a.tile = some z) then 2 ^ 9 else 0) + (if t.i96 then 2 ^ 8 else 0) + t.status.toNat

/-- LIC.QUERY (11 R274). -/
def execLicQuery (f : WarpWord) (s : State) : Out :=
  runWord .licQuery f s (fun c s0 t =>
    let ret (t : State) (v : Word64) : Res := .done (swrite t c.g c.w f.dst.toNat v)
    match modBits f 0 2 with
    | 0 => ret t (BitVec.ofNat 64 (licWord s0 c.g c.wg.core))
    | 1 => ret t (BitVec.ofNat 64 (tileWord s0 c.g c.wg.core (modBits f 2 2)))
    | 2 => ret (modWg t c.g (fun x => { x with xconf := false })) (if c.wg.xconf then 1 else 0)
    | _ => ret (modWg t c.g (fun x => { x with anvFault := none })) (summaryWord c.wg.anvFault))

/-- LICENCE_TRANSFER_DONE: 940 cycles have passed (11 R270). -/
def execLicenceTransferDone (pair : Nat) (s : State) : Out :=
  match (getPair s pair).lic with
  | .transfer g side pinned began =>
    if s.clock < began + Config.licenceTransfer || !inOrder s (clsLic pair) 0 then .next s
    else if g = 0 then .next (freeLic s pair side)
    else .next (licSettle (modPair s pair (fun q => { q with lic := .held g side pinned, idleFrom := s.clock })) pair)
  | _ => .next s

/-- Are no steps of a workgroup between start and commit? -/
def noFlight (s : State) (g : Nat) : Bool := s.anvs.all (fun a => !(a.g = g && !a.flight.isEmpty))

/-- LICENCE_IDLE_FREE: 256 idle cycles have passed with a request pending (11 R270). -/
def execLicenceIdleFree (pair : Nat) (s : State) : Out :=
  let q := getPair s pair
  match q.lic with
  | .held g side false =>
    if !mmaPending s g && !q.reqs.isEmpty && q.idleFrom + Config.licenceIdle ≤ s.clock && inOrder s (clsLic pair) 0 then
      .next (freeLic s pair side)
    else .next s
  | _ => .next s

/-- The holder that an urgent hand-over takes the licence from raises its own request where it has steps left or held it pinned: urgent
where its long-word thread is stopping with the ANV.MMA incomplete, and with the release that it was under (11 R270). -/
def reraise (s : State) (pair g : Nat) (pinned releasing : Bool) : State :=
  let engine := threadMma s g
  let s := if mmaPending s g || pinned then raiseReq s g pinned (engine && (getWg s g).any Wg.stopped) engine else s
  if releasing then modPair s pair (fun q => { q with reqs := q.reqs.map (fun r => if r.g = g then { r with rel := true } else r) }) else s

/-- LICENCE_URGENT_HANDOVER: at the step unit's next step boundary the licence goes to an urgent request, and the holder's
own request is raised (11 R270). -/
def execLicenceUrgentHandover (pair : Nat) (s : State) : Out :=
  let q := getPair s pair
  match q.lic with
  | .held g side pinned =>
    match leastBy (licRank s) lexLt (q.reqs.filter (fun r => r.urgent && r.g ≠ g)) with
    | none => .next s
    | some r =>
      if !noFlight s g then .next s
      else
        .next (reraise (handOver s pair side r) pair g pinned q.releasing)
  | _ => .next s

/-! ### Twin flags -/

/-- The value of a twin flag of the pair of a core. -/
def twinFlag (s : State) (core n : Nat) : Word32 := mgetD (getPair s (pairOf core)).flags n 0

/-- TW.SIG (11 R280): a release, which orders the exchange registers with memory (08 R217). -/
def execTwSig (f : WarpWord) (s : State) : Out :=
  runWord .twSig f s (fun c s0 t =>
    if !c.wg.pairPlaced then .trap trapOperand
    else if !releaseReady s0 c.g c.w 1 || exchanging s0 c.g c.w then .hold s0
    else
      let n := f.a.toNat
      let v := twinFlag s0 c.wg.core n + (sB c .twSig f).setWidth 32
      .done (modPair t (pairOf c.wg.core) (fun q => { q with flags := mput q.flags n v 0 })))

/-- TW.WAIT (11 R281). -/
def execTwWait (f : WarpWord) (s : State) : Out :=
  runWord .twWait f s (fun c s0 t =>
    if !c.wg.pairPlaced then .trap trapOperand
    else if (twinFlag s0 c.wg.core f.a.toNat - (sB c .twWait f).setWidth 32).toNat < 2 ^ 31 then
      .done (acquire t c.wg.core)
    else .hold s0)

end Sys2Proof.Machine
end

