-- ==== Sys2Proof/Machine/Longword.lean ====
section
/-!
DEFINITION. Long-word mode (04 R115, 06 R140 to R164) and the slots of a bundle (02 R35 to R43), with the events of a
long-word thread.
-/

namespace Sys2Proof.Machine

/-! ### Entering (04 R115, 06 R140, R141) -/

/-- A thread just entered. -/
def Lw.fresh (pc : Word64) (clock : Nat) : Lw where
  pc := pc
  slot := 0
  flights := []
  busy := []
  tokens := []
  loops := []
  calls := []
  spCount := 0
  spMark := clock
  spHold := false
  draining := false
  lastSafe := 0
  barw := []
  pend := []

/-- A warp becomes a long-word thread at an address. -/
def enterLw (s : State) (g w : Nat) (pc : Word64) : State :=
  modWarp s g w (fun x => { x with lw := some (Lw.fresh pc s.clock), frags := [] })

/-- MODE.LW instructions blocked on a core in warps that are not held: warp key, when it began to wait, lane group,
target. -/
def lwWaiters (s : State) (core : Nat) : List (Nat × Nat × Nat × Word64) :=
  s.warps.flatMap (fun p =>
    if heldWarp s (p.1 / 16) (p.1 % 16) || coreOf s (p.1 / 16) ≠ core then []
    else p.2.frags.filterMap (fun q => match q.2.state with
      | .blocked (.modeLw since tgt) => some (p.1, since, p.2.lg, tgt)
      | _ => none))

/-- Where a core has room for a long-word thread, the MODE.LW that has waited longest proceeds, ties to the lowest lane group (06
R141). -/
def unblockLw (s : State) (core : Nat) : State :=
  if 2 ≤ lwCount s core then s
  else match leastBy (fun q => [q.2.1, q.2.2.1]) lexLt (lwWaiters s core) with
    | none => s
    | some q => enterLw s (q.1 / 16) (q.1 % 16) q.2.2.2

/-- MODE.LW (04 R115); one that finds two lane groups in long-word mode, or another that waits, is BLOCKED (06 R141). -/
def execModeLw (f : WarpWord) (s : State) : Out :=
  runWord .modeLw f s (fun c s0 t =>
    let tgt := c.pc + sB c .modeLw f
    if c.frag ≠ 0xFFFFFFFF ∨ c.warp.mask ≠ 0xFFFFFFFF then .trap trapOperand
    else if tgt.toNat % 128 ≠ 0 then .trap (trapTarget tgt)
    else if 2 ≤ lwCount s0 c.wg.core || !(lwWaiters s0 c.wg.core).isEmpty then
      .done (blockFrag t c.g c.w c.e (.modeLw s0.clock tgt))
    else .done (enterLw t c.g c.w tgt))

/-- MODE_LW_UNBLOCK (06 R141). -/
def execModeLwUnblock (core : Nat) (s : State) : Out := .next (unblockLw s core)

/-! ### The checks of the bundle's form (02 R36 item 2, R37 to R43) -/

/-- How a lane opcode reads its fields (02 R38). -/
inductive LaneForm where
  | nop
  /-- d, a and b. -/
  | dab
  /-- d and a; b must be zero. -/
  | da
  /-- d and an immediate. -/
  | di
  /-- A cluster flag and a. -/
  | qa
  /-- d, a cluster and a register of it. -/
  | dx
  /-- d, a and b, each an even register of 64 bits. -/
  | wide
  | reserved
  deriving DecidableEq, Repr

/-- The form of a lane opcode. -/
def laneForm (op : Nat) : LaneForm :=
  if op = 0 then .nop
  else if 0x2F ≤ op ∧ op ≤ 0x31 then .wide
  else if op = 0x1B then .di
  else if op = 0x36 then .qa
  else if op = 0x37 ∨ op = 0x38 then .dx
  else if (0x13 ≤ op ∧ op ≤ 0x15) ∨ op = 0x1A ∨ (0x26 ≤ op ∧ op ≤ 0x2B) ∨ (0x32 ≤ op ∧ op ≤ 0x35) then .da
  else if op ≤ 0x38 then .dab
  else .reserved

/-- Is a lane slot well formed (02 R37, R38)? -/
def laneOk (x : LaneSlot) : Bool :=
  match laneForm x.op.toNat with
  | .nop => x = ⟨0, 0, 0, 0, 0⟩
  | .reserved => false
  | .da => x.guard ≠ 8 && x.b = 0
  | .qa => x.guard ≠ 8 && x.b = 0 && x.d.toNat / 4 = 0 && x.d ≠ 0
  | .dx => x.guard ≠ 8 && x.a.toNat < 32
  | _ => x.guard ≠ 8

/-- How a scalar-slot opcode reads its fields (02 R40). -/
inductive ScaForm where
  | dab
  | da
  | di
  | mem
  | v2s
  | reserved
  deriving DecidableEq, Repr

/-- The form of a scalar-slot opcode. -/
def scaForm (op : Nat) : ScaForm :=
  if op = 0x0E ∨ op = 0x13 ∨ op = 0x14 then .da
  else if op = 0x0F ∨ op = 0x1A then .di
  else if op = 0x10 ∨ op = 0x11 then .mem
  else if op = 0x15 ∨ op = 0x1B then .v2s
  else if op ≤ 0x24 then .dab
  else .reserved

/-- Is a scalar slot well formed (02 R40, 06 R148)? -/
def scaOk (x : ScalarSlot) : Bool :=
  (if x.i then x.b = 0 else x.imm = 0) &&
  (match scaForm x.op.toNat with
   | .dab => true
   | .da => !x.i && x.b = 0
   | .di => x.i && x.a = 0
   | .mem => x.i
   | .v2s => x.i && x.imm.toNat < 32
   | .reserved => false)

/-- Is an engine slot well formed (02 R41, R42)? -/
def engOk (e : EngineSlot) : Bool :=
  let op := e.op.toNat
  (e.te || e.tk = 0) &&
  (if op = 0 then e = ⟨0, false, 0, 0, 0, 0, 0⟩
   else if op ≤ 2 then !e.mod.getLsbD 3 && (e.mod.getLsbD 2 || e.b = 0)
   else if op ≤ 6 then true
   else if op = 7 ∨ op = 0x0C then e.c = 0 && e.mod = 0
   else if op = 9 ∨ op = 0x0B then e.mod = 0
   else if op = 0x0F then e.c = 0
   else op ≤ 0x0E && e.b = 0 && e.c = 0 && e.mod = 0)

/-- Is a control slot well formed (02 R43)? -/
def ctlOk (c : ControlSlot) : Bool :=
  let op := c.op.toNat
  op ≤ 8 && (!(op = 0 || op = 6 || op = 7 || op = 8) || c.arg = 0) && (op ≠ 4 || c.arg ≠ 0)

/-- The conditions of R36 item 2: true when none is broken. -/
def bundleForm (b : Bundle) : Bool :=
  b.reserved = 0 && b.lanes.length = 32 && b.lanes.all laneOk && scaOk b.scalar && engOk b.engine && ctlOk b.control

/-- The limits of XMOV and XBC (02 R39). -/
def crossOk (b : Bundle) : Bool :=
  (List.range 32).all (fun c => (b.lanes.filter (fun x => x.op = 0x37 && x.a.toNat = c)).length ≤ 2) &&
  (nub ((b.lanes.filter (fun x => x.op = 0x38)).map (fun x => (x.a, x.b)))).length ≤ 1

/-! ### What a bundle reads and where its results land -/

/-- The thread whose bundle issues. -/
structure LwCtx where
  g : Nat
  w : Nat
  wg : Wg
  warp : Warp
  lw : Lw

/-- The thread of the selected issuer; none when it is no long-word thread that may issue. -/
def lwCtxOf (s : State) (i : Issuer) : Option LwCtx :=
  match getWg s i.g, getWarp s i.g i.w with
  | some x, some p =>
    match p.lw with
    | some l => if x.mayIssue && p.bank.isNone && p.due.isNone && !l.draining then some ⟨i.g, i.w, x, p, l⟩ else none
    | none => none
  | _, _ => none

/-- Physical register of a number under the rotation of the innermost level (06 R157). -/
def Lw.rot (l : Lw) (n : Nat) : Nat :=
  match l.loops with
  | lv :: _ => if 32 ≤ n ∧ n < 32 + 8 * lv.rotg then 32 + (n - 32 + lv.rrb) % (8 * lv.rotg) else n
  | [] => n

/-- Stage predicate j (06 R157). -/
def Lw.stage (l : Lw) (j : Nat) : Bool :=
  match l.loops with
  | lv :: _ => j ≤ lv.cur && lv.cur - j < lv.trips && j ≤ lv.stg
  | [] => false

/-- The value of a guard in a cluster (02 R37). -/
def laneGuard (c : LwCtx) (g : BitVec 4) (i : Nat) : Bool :=
  let sel := g.toNat % 8
  let p : Bool := if sel = 0 then true else if sel < 4 then (c.warp.mreg sel).getLsbD i else c.lw.stage (sel - 4)
  p != g.getLsbD 3

/-- Latency and occupancy of a lane opcode (06 R143). -/
def laneTiming (op : Nat) : Nat × Nat :=
  if (3 ≤ op ∧ op ≤ 6) ∨ op = 0x1C then (6, 1)
  else if op = 0x26 ∨ op = 0x28 then (20, 4)
  else if op = 0x27 ∨ (0x29 ≤ op ∧ op ≤ 0x2B) then (12, 2)
  else if 0x2F ≤ op ∧ op ≤ 0x31 then (8, 2)
  else if op = 0x37 then (3, 1)
  else if op = 0x38 then (2, 1)
  else (4, 1)

/-- Latency of a scalar-slot opcode (06 R143). -/
def scaLatency (op : Nat) : Nat := if op = 2 ∨ op = 3 ∨ op = 0x16 ∨ op = 0x15 ∨ op = 0x1B then 4 else 2

/-- Is a scalar-slot opcode a comparison? -/
def isScmp (op : Nat) : Bool := op = 0x0C || (0x1C ≤ op && op ≤ 0x24)

/-- The registers that a lane slot writes: physical numbers. -/
def laneDests (l : Lw) (x : LaneSlot) : List Nat :=
  match laneForm x.op.toNat with
  | .wide => [l.rot x.d.toNat, l.rot (x.d.toNat + 1)]
  | .nop => []
  | .qa => []
  | .reserved => []
  | _ => [l.rot x.d.toNat]

/-- Do two results land in one place? -/
def samePlace (a b : Landing) : Bool :=
  match a, b with
  | .vec r i _, .vec q j _ => r = q && i = j
  | .scalar r _, .scalar q _ => r = q
  | .flag q i _, .flag p j _ => q = p && i = j
  | .sf _, .sf _ => true
  | _, _ => false

/-- The places and slots of a bundle's results (06 R143, R144), with no values. -/
def landings (l : Lw) (b : Bundle) : List Flight :=
  let at' (n : Nat) (p : Landing) : Flight := ⟨l.slot + n, p, true, 0⟩
  ((List.range b.lanes.length).zip b.lanes).flatMap (fun q =>
    let lat := (laneTiming q.2.op.toNat).1
    if laneForm q.2.op.toNat = .qa then [at' lat (.flag (q.2.d.toNat % 4) q.1 false)]
    else (laneDests l q.2).map (fun r => at' lat (.vec r q.1 0))) ++
  (let op := b.scalar.op.toNat
   if scaForm op = .mem then []
   else (if b.scalar.d = 0 then [] else [at' (scaLatency op) (.scalar b.scalar.d.toNat 0)]) ++
     (if isScmp op then [at' 2 (.sf false)] else []))

/-- Do two of the results of a list, or one of them and one in flight, meet in one place and slot? -/
def meets (fs old : List Flight) : Bool :=
  match fs with
  | [] => false
  | f :: t => (t ++ old).any (fun g => f.slot = g.slot && samePlace f.land g.land) || meets t old

/-- Destinations of the LW.LDs of a thread not yet complete. -/
def pendingDests (s : State) (g w : Nat) : List Nat :=
  (s.loads.filter (fun l => l.kind = .lwld && l.g = g && l.w = w)).map (·.dst)

/-- The write conflicts (06 R145) and the source limits (02 R39). A lane slot and the LW.LD of one bundle that name one register do
not conflict: DESIGN CHOICE, log 56. -/
def bundleConflict (s : State) (c : LwCtx) (b : Bundle) : Bool :=
  let l := c.lw
  let busy := ((List.range b.lanes.length).zip b.lanes).any (fun q => q.2.op ≠ 0 && l.slot < mgetD l.busy q.1 0)
  let pend := pendingDests s c.g c.w
  meets (landings l b) l.flights || busy || b.lanes.any (fun x => (laneDests l x).any pend.contains) ||
    (b.engine.op = 1 && pend.contains (l.rot b.engine.c.toNat)) || !crossOk b

/-- Registers that a lane slot names, unrotated, with 64-bit blocks as both halves. -/
def laneNames (x : LaneSlot) : List Nat :=
  match laneForm x.op.toNat with
  | .dab => [x.d.toNat, x.a.toNat, x.b.toNat]
  | .wide => [x.d.toNat, x.d.toNat + 1, x.a.toNat, x.a.toNat + 1, x.b.toNat, x.b.toNat + 1]
  | .da => [x.d.toNat, x.a.toNat]
  | .di => [x.d.toNat]
  | .qa => [x.a.toNat]
  | .dx => [x.d.toNat, x.b.toNat]
  | _ => []

/-- Is a 64-bit form's register odd? -/
def laneOdd (x : LaneSlot) : Bool :=
  laneForm x.op.toNat = .wide && (x.d.toNat % 2 = 1 || x.a.toNat % 2 = 1 || x.b.toNat % 2 = 1)

/-- The conditions of R36 item 4 that need no register's value: true when none is broken. -/
def bundleRegs (alloc : Nat) (b : Bundle) : Bool :=
  let e := b.engine
  let op := e.op.toNat
  b.lanes.all (fun x => (laneNames x).all (· < alloc) && !laneOdd x) &&
  (decide (scaForm b.scalar.op.toNat ≠ ScaForm.v2s) ||
    (b.scalar.a.toNat < alloc && (b.scalar.op.toNat ≠ 0x1B || (b.scalar.a.toNat % 2 = 0 && b.scalar.a.toNat + 1 < alloc)))) &&
  (!(op = 1 || op = 2) || e.c.toNat < alloc) && !(op = 2 && e.mod.toNat % 4 = 3) &&
  (!(op = 1 || op = 0x0E) || e.te) && (!(op = 0x0D || op = 0x0E) || e.a.toNat ≤ 15) &&
  (!(op = 3 || op = 5) || (1 ≤ e.c.toNat && e.c.toNat ≤ 61)) &&
  (!(3 ≤ op && op ≤ 6) || copyCtlOk (op - 3) 0 (e.mod.toNat / 4) (e.mod.toNat % 4)) &&
  (op ≠ 0x0F || ((e.mod.getLsbD 3 || e.mod.toNat % 8 = 0) && e.mod.toNat % 8 ≤ 4))

/-- s-registers that a bundle reads or writes (06 R142, R148). -/
def bundleSregs (b : Bundle) : List Nat :=
  let sc := b.scalar
  let e := b.engine
  let op := e.op.toNat
  let cb := [e.a.toNat, e.b.toNat, e.c.toNat]
  ([sc.d.toNat] ++ (if scaForm sc.op.toNat = ScaForm.v2s then [] else [sc.a.toNat]) ++ (if sc.i then [] else [sc.b.toNat]) ++
   (if op = 1 ∨ op = 2 then [e.a.toNat] ++ (if e.mod.getLsbD 2 then [e.b.toNat] else [])
    else if op = 3 ∨ op = 5 then cb ++ [e.c.toNat + 1, e.c.toNat + 2]
    else if (4 ≤ op ∧ op ≤ 0x0C) ∨ op = 0x0F then cb else []) ++
   (if b.control.op = 4 then [55] else if b.control.op = 8 then [54] else [])).filter (· ≠ 0)

/-! ### Results -/

/-- A 64-bit value of two registers under rotation. -/
def lwRead64 (s : State) (c : LwCtx) (n i : Nat) : Word64 :=
  (vread s c.g c.w (c.lw.rot (n + 1)) i) ++ (vread s c.g c.w (c.lw.rot n) i)

/-- The result of a lane opcode on 32-bit operands a, b and the accumulator d, or on 64-bit ones, with a free value:
its value and flags (02 R38). -/
def laneVal (op : Nat) (a b d : Word64) (free : Nat) : Word64 × BitVec 5 :=
  let b32 : Word32 := b.setWidth 32
  let all (t : Bool) : Word64 := if t then 0xFFFFFFFF else 0
  let r (x : Rounded) : Word64 × BitVec 5 := (BitVec.ofNat 64 x.code, x.fl)
  let p (x : Nat × BitVec 5) : Word64 × BitVec 5 := (BitVec.ofNat 64 x.1, x.2)
  let cv (dt st : Nat) : Word64 × BitVec 5 :=
    let x := convert dt st 0 false 0 a
    (x.1, x.2.1)
  let i (v : Word64) : Word64 × BitVec 5 := (v, 0)
  match op with
  | 0x01 => i (iaddVal 0 false a b)
  | 0x02 => i (isubVal 0 false a b)
  | 0x03 => i (imulVal 0 false a b)
  | 0x04 => i (imulhVal 1 a b)
  | 0x05 => i (imulhVal 0 a b)
  | 0x06 => i (imadVal 0 false a b d)
  | 0x07 => i (iminVal 1 a b)
  | 0x08 => i (imaxVal 1 a b)
  | 0x09 => i (iminVal 0 a b)
  | 0x0A => i (imaxVal 0 a b)
  | 0x0B => i (iabsdVal 1 false a b)
  | 0x0C => i (ishlVal 32 false a b32)
  | 0x0D => i (ishrVal 32 false a b32)
  | 0x0E => i (ishraVal 1 false a b32)
  | 0x0F => i (bool3Val 0x88 a b 0)
  | 0x10 => i (bool3Val 0xEE a b 0)
  | 0x11 => i (bool3Val 0x66 a b 0)
  | 0x12 => i (bool3Val 0x22 a b 0)
  | 0x13 => i (clzVal 32 a)
  | 0x14 => i (popcVal 32 a)
  | 0x15 => i (brevVal 32 a)
  | 0x16 => i (all (decide (a = b)))
  | 0x17 => i (all (decide (intOf 1 a < intOf 1 b)))
  | 0x18 => i (all (decide (intOf 0 a < intOf 0 b)))
  | 0x19 => i (if d ≠ 0 then a else b)
  | 0x1A => i a
  | 0x1C => i (idp4Val false true true a b d)
  | 0x1D => i (bfxVal 0 a b32)
  | 0x1E => r (arithVal .add 8 0 false 0 a b 0)
  | 0x1F => r (arithVal .sub 8 0 false 0 a b 0)
  | 0x20 => r (arithVal .mul 8 0 false 0 a b 0)
  | 0x21 => r (arithVal .fma 8 0 false 0 a b d)
  | 0x22 => r (minMaxVal false 8 false 0 a b)
  | 0x23 => r (minMaxVal true 8 false 0 a b)
  | 0x24 => (all (fCompare 2 f32 false a.toNat b.toNat).1, (fCompare 2 f32 false a.toNat b.toNat).2)
  | 0x25 => (all (fCompare 0 f32 false a.toNat b.toNat).1, (fCompare 0 f32 false a.toNat b.toNat).2)
  | 0x26 => p (fRcp f32 0 false a.toNat)
  | 0x27 => p (fRsq f32 false free a.toNat)
  | 0x28 => p (fSqrt f32 0 false a.toNat)
  | 0x29 => p (fExp2 f32 false free a.toNat)
  | 0x2A => p (fLog2 f32 false free a.toNat)
  | 0x2B => p (fTanh f32 false free a.toNat)
  | 0x2C => r (arithVal .add 11 0 false 0 a b 0)
  | 0x2D => r (arithVal .mul 11 0 false 0 a b 0)
  | 0x2E => r (arithVal .fma 11 0 false 0 a b d)
  | 0x2F => r (arithVal .add 9 0 false 0 a b 0)
  | 0x30 => r (arithVal .mul 9 0 false 0 a b 0)
  | 0x31 => r (arithVal .fma 9 0 false 0 a b d)
  | 0x32 => cv 8 1
  | 0x33 => cv 1 8
  | 0x34 => cv 8 11
  | 0x35 => cv 11 8
  | _ => i 0

/-- The results of the lane slot of cluster i (06 R144, R146). -/
def laneFlights (s : State) (c : LwCtx) (i : Nat) (x : LaneSlot) : List Flight :=
  let op := x.op.toNat
  let live := laneGuard c x.guard i
  let slot := c.lw.slot + (laneTiming op).1
  let rd (n : Nat) : Word64 := (vread s c.g c.w (c.lw.rot n) i).setWidth 64
  let free := (Config.freeValue (s.freeCtr + i)).toNat
  match laneForm op with
  | .nop => []
  | .reserved => []
  | .qa => [⟨slot, .flag (x.d.toNat % 4) i (decide (rd x.a.toNat ≠ 0)), live, 0⟩]
  | .dx => [⟨slot, .vec (c.lw.rot x.d.toNat) i (vread s c.g c.w (c.lw.rot x.b.toNat) x.a.toNat), live, 0⟩]
  | .di => [⟨slot, .vec (c.lw.rot x.d.toNat) i ((x.a ++ x.b).signExtend 32), live, 0⟩]
  | .wide =>
    let v := laneVal op (lwRead64 s c x.a.toNat i) (lwRead64 s c x.b.toNat i) (lwRead64 s c x.d.toNat i) free
    [⟨slot, .vec (c.lw.rot x.d.toNat) i (v.1.setWidth 32), live, v.2⟩,
     ⟨slot, .vec (c.lw.rot (x.d.toNat + 1)) i (v.1.extractLsb' 32 32), live, 0⟩]
  | _ =>
    let v := laneVal op (rd x.a.toNat) (rd x.b.toNat) (rd x.d.toNat) free
    [⟨slot, .vec (c.lw.rot x.d.toNat) i (v.1.setWidth 32), live, v.2⟩]

/-- The immediate of a scalar slot (02 R40). -/
def scaImm (x : ScalarSlot) : Word64 :=
  if x.op = 0x12 ∨ x.op = 0x19 then x.imm.setWidth 64 else x.imm.signExtend 64

/-- The value of a scalar-slot opcode other than SLD, SST and V2S: operands a and b, the old value of d, SF. -/
def scaVal (op : Nat) (a b old : Word64) (sf : Bool) : Word64 :=
  let cmp (code : Nat) : Word64 := if scmpCond code a b then 1 else 0
  match op with
  | 0x00 => a + b
  | 0x01 => a - b
  | 0x02 => a * b
  | 0x03 => smulhVal false a b
  | 0x04 => a &&& b
  | 0x05 => a ||| b
  | 0x06 => a ^^^ b
  | 0x07 => a <<< (b.toNat % 64)
  | 0x08 => a >>> (b.toNat % 64)
  | 0x09 => a.sshiftRight (b.toNat % 64)
  | 0x0A => sminmaxVal false false a b
  | 0x0B => sminmaxVal true false a b
  | 0x0C => cmp 0
  | 0x0D => if sf then a else b
  | 0x0E => a
  | 0x0F => sliVal false old b
  | 0x12 => sbfxVal false a b
  | 0x13 => clzVal 64 a
  | 0x14 => popcVal 64 a
  | 0x16 => smulhVal true a b
  | 0x17 => sminmaxVal false true a b
  | 0x18 => sminmaxVal true true a b
  | 0x19 => sbfxVal true a b
  | 0x1A => sliVal true old b
  | _ => cmp (op - 0x1B)

/-- The results of the scalar slot (06 R148). -/
def scaFlights (s : State) (c : LwCtx) (x : ScalarSlot) : List Flight :=
  let op := x.op.toNat
  let b := if x.i then scaImm x else c.warp.sreg x.b.toNat
  let v : Word64 :=
    if scaForm op = .v2s then
      let cl := x.imm.toNat % 32
      if op = 0x1B then lwRead64 s c x.a.toNat cl else (vread s c.g c.w (c.lw.rot x.a.toNat) cl).setWidth 64
    else scaVal op (c.warp.sreg x.a.toNat) b (c.warp.sreg x.d.toNat) c.warp.sf
  if scaForm op = .mem then []
  else (if x.d = 0 then [] else [⟨c.lw.slot + scaLatency op, .scalar x.d.toNat v, true, 0⟩]) ++
    (if isScmp op then [⟨c.lw.slot + 2, .sf (decide (v ≠ 0)), true, 0⟩] else [])

/-- Every result of a bundle. -/
def bundleFlights (s : State) (c : LwCtx) (b : Bundle) : List Flight :=
  ((List.range b.lanes.length).zip b.lanes).flatMap (fun q => laneFlights s c q.1 q.2) ++ scaFlights s c b.scalar

/-- Does a lane opcode read d: the accumulating forms and SEL (02 R38)? -/
def laneReadsD (op : Nat) : Bool := op = 6 || op = 0x19 || op = 0x1C || op = 0x21 || op = 0x2E || op = 0x31

/-- Registers that a lane slot reads in its own cluster (02 R38). -/
def laneSources (x : LaneSlot) : List Nat :=
  let two (n : Nat) : List Nat := if laneForm x.op.toNat = .wide then [n, n + 1] else [n]
  match laneForm x.op.toNat with
  | .nop => []
  | .di => []
  | .dx => []
  | .reserved => []
  | .qa => [x.a.toNat]
  | .da => [x.a.toNat]
  | _ => two x.a.toNat ++ two x.b.toNat ++ (if laneReadsD x.op.toNat then two x.d.toNat else [])

/-- Clusters whose slots read a poisoned register (14 R337); a slot whose guard is false reads nothing. -/
def bundlePoison (c : LwCtx) (b : Bundle) : Lanes :=
  let bad (n i : Nat) : Bool := c.warp.poisoned.contains (32 * c.lw.rot n + i)
  let lane (q : Nat × LaneSlot) : List Nat :=
    let x := q.2
    if !laneGuard c x.guard q.1 then []
    else if laneForm x.op.toNat = .dx then (if bad x.b.toNat x.a.toNat then [x.a.toNat] else [])
    else if (laneSources x).any (fun n => bad n q.1) then [q.1] else []
  let st := if b.engine.op = 2 then (List.range 32).filter (bad b.engine.c.toNat) else []
  let v2s := if scaForm b.scalar.op.toNat = .v2s &&
      (bad b.scalar.a.toNat (b.scalar.imm.toNat % 32) ||
        (b.scalar.op = 0x1B && bad (b.scalar.a.toNat + 1) (b.scalar.imm.toNat % 32)))
    then [b.scalar.imm.toNat % 32] else []
  maskOf (((List.range b.lanes.length).zip b.lanes).flatMap lane ++ st ++ v2s)

/-! ### The scalar slot's access (06 R148) -/

/-- The agent that a thread's accesses are. -/
def LwCtx.agent (c : LwCtx) : Agent := ⟨c.wg.core, c.wg.asid, warpKey c.g c.w, c.g, fragWho c.g c.w 0⟩

/-- SLD and SST of the scalar slot, checked on s0 and done on t. -/
def scalarAccess (s0 t : State) (c : LwCtx) (x : ScalarSlot) : Res :=
  let core := c.wg.core
  let addr := c.warp.sreg x.a.toNat + scaImm x
  let load := x.op = 0x10
  if scaForm x.op.toNat ≠ .mem then .done t
  else if load ∧ Config.maxLoads ≤ inFlight s0 c.g c.w then .hold s0
  else match checkLanes s0 c.agent 0 8 (if load then .read else .write) false [(0, addr)] with
    | .trap tr => .trap tr
    | .hold h => .hold h
    | .stop => .stop .physicalHole
    | .ok ps =>
      if load then
        let u := loadFills t c.agent 0 {} ps
        .done (ps.foldl (fun v p => addLoad v c.agent [p] (askedPlaces t c.agent 0 {} [p])
          { id := 0, since := 0, slices := [], reads := [], g := c.g, w := c.w, kind := .sld, space := 0, vecs := [], token := none
            dst := 255, width := 0, scal := some (x.d.toNat, BitVec.ofNat 64 (loadNat t u core c.g c.w 0 p)) }) u)
      else
        .done (lampFlush s0 c.agent (issueStores (touchPlaces t c.agent ps) core c.g c.w 8 {} ps
          (fun _ => (c.warp.sreg x.d.toNat).toNat)))

/-! ### The engine slot (06 R149 to R152) -/

/-- A token counts one command more. -/
def tokenUp (s : State) (c : LwCtx) (tk : Option Nat) : State :=
  match tk with
  | none => s
  | some k => modWarp s c.g c.w (fun x => { x with lw := x.lw.map (fun l =>
      { l with tokens := mput l.tokens k (mgetD l.tokens k 0 + 1) 0 }) })

/-- The addresses of LW.LD and LW.ST (06 R151). -/
def lwAddrs (c : LwCtx) (e : EngineSlot) : List (Nat × Word64) :=
  let stride : Word64 := if e.mod.getLsbD 2 then c.warp.sreg e.b.toNat else 4
  (List.range 32).map (fun i =>
    (i, spaceAddr (e.mod.toNat % 4) (c.warp.sreg e.a.toNat + BitVec.ofNat 64 i * stride)))

/-- LW.LD and LW.ST (06 R151). -/
def lwAccess (s0 t : State) (c : LwCtx) (e : EngineSlot) (tk : Option Nat) : Res :=
  let sp := e.mod.toNat % 4
  let core := c.wg.core
  let load := e.op = 1
  let r := c.lw.rot e.c.toNat
  if load ∧ Config.maxLoads ≤ inFlight s0 c.g c.w then .hold s0
  else match checkLanes s0 c.agent sp 4 (if load then .read else .write) false (lwAddrs c e) with
  | .trap tr => .trap tr
  | .hold h => .hold h
  | .stop => .stop .physicalHole
  | .ok ps =>
    if load then
      let u := loadFills t c.agent sp {} ps
      .done (tokenUp (addLoad u c.agent ps (askedPlaces t c.agent sp {} ps)
        { id := 0, since := 0, slices := [], reads := [], g := c.g, w := c.w, kind := .lwld, space := sp, scal := none, token := tk
          dst := r, width := 1, vecs := ps.map (fun p => (r, p.lane, BitVec.ofNat 32 (loadNat t u core c.g c.w sp p))) }) c tk)
    else
      let cells := ps.flatMap (fun p => match p.key with
        | some k => cellsOf k 4 (vread s0 c.g c.w r p.lane).toNat
        | none => [])
      let t := touchPlaces t c.agent ps
      let u := askPeers (issueStore t core c.g c.w { token := tk } cells) t.nextId (threadNum c.g c.w 0) true ps
      .done (lampFlush s0 c.agent (tokenUp u c tk))

/-- The issuer of an engine slot's anvil command. -/
def LwCtx.ask (c : LwCtx) (tk : Option Nat) : Ask := ⟨c.g, c.w, 0xFFFFFFFF, c.wg.core, c.warp.lg, c.lw.pc, tk⟩

/-- An accepted command is counted by its token. -/
def counted (c : LwCtx) (tk : Option Nat) (r : Res) : Res :=
  match r with
  | .done t => .done (tokenUp t c tk)
  | r => r

/-- ANV.MMA of the engine slot, with no gang: the licence is requested, not waited for (11 R272), and urgently where the thread runs
on to the safe point at which its workgroup is saved (11 R270, R275). -/
def lwMma (s0 t : State) (c : LwCtx) (tk : Option Nat) (word ka kb : Word64) : Res :=
  match mmaCommand t (c.ask tk) word ka kb with
  | none => .trap trapOperand
  | some a =>
    if !holdsLic s0 c.g && !hasReq s0 c.g && licTrapOf s0 c.wg.rnum then .trap trapLicence
    else if anvHeld s0 (c.ask tk) || !(holdsLic s0 c.g || licOpen s0 c.g c.wg.stopped) then .hold s0
    else
      let t := acceptAnv t a
      .done (tokenUp (if holdsLic s0 c.g then t else raiseReq t c.g false c.wg.stopped true) c tk)

/-- Have the accesses that a thread issued before a command been performed, as its release needs (06 R149, 08 R211)? -/
def releasedBefore (s : State) (g w id scope : Nat) : Bool :=
  !sawPending s g w 0xFFFFFFFF (some id) &&
  s.stores.all (fun e => !(e.g = g && e.w = w && e.id < id && (e.kind = .st || scope = 4))) &&
  s.atoms.all (fun a => !(a.g = g && a.w = w && a.id < id && !a.done))

/-- The first command of a thread that awaits its release has its effect, if it may have it now: an arrival in its turn among the
barrier's operations (08 R228), a commit once its records' memory waits for nothing (14 R349, 15 R362). -/
def settleFirst (s : State) (g w : Nat) : Option State :=
  match getWg s g, (getWarp s g w).bind (fun p => p.lw.bind (fun l => l.pend.head?)) with
  | some x, some q =>
    let done (s : State) : State := tokenDone (modWarp s g w (fun p => { p with lw := p.lw.map (fun l => { l with pend := l.pend.drop 1 }) }))
      g w q.tok
    match q.deed with
    | .arrive b =>
      if releasedBefore s g w q.id 0 && barTurn s g w then
        some (done (barPlace (modWg s g (fun x => setBar x b ((getBar x b).arrive w))) g w))
      else none
    | .commit addr k scope =>
      match resvAt x addr with
      | none => some (done s)
      | some r =>
        if !releasedBefore s g w q.id scope then none
        else if !(resvMiss s (warpKey g w) x r).isEmpty then some (askPieces s x.core x.asid (warpKey g w) (resvMiss s (warpKey g w) x r))
        else some (done (commitResv (pieceDone s (warpKey g w)) g x r k))
  | _, _ => none

/-- The commands of a thread that await their releases have their effects, in their order, as far as they may. -/
def settlePend (g w : Nat) : Nat → State → State
  | 0, s => s
  | n + 1, s =>
    match settleFirst s g w with
    | none => s
    | some t => settlePend g w n t

/-- Commands that await their releases. -/
def pendCount (s : State) (g w : Nat) : Nat := ((getWarp s g w).bind (fun p => p.lw.map (fun l => l.pend.length))).getD 0

/-- The engine slots' commands whose releases are performed have their effects (06 R149). -/
def settleEngines (s : State) : State :=
  (s.warps.filter (fun p => p.2.lw.any (fun l => !l.pend.isEmpty))).foldl
    (fun s p => settlePend (p.1 / 16) (p.1 % 16) (pendCount s (p.1 / 16) (p.1 % 16)) s) s

/-- The engine slot accepts a command whose release the scalar access of its own bundle comes before (06 R149, R152); it has its effect
at once where nothing is to be awaited. -/
def pledge (t : State) (c : LwCtx) (tk : Option Nat) (d : LwDeed) : State :=
  let t := tokenUp (modWarp { t with nextId := t.nextId + 1 } c.g c.w (fun p =>
    { p with lw := p.lw.map (fun l => { l with pend := l.pend ++ [⟨t.nextId, tk, d⟩] }) })) c tk
  settlePend c.g c.w (pendCount t c.g c.w) t

/-- Does an arrival of a thread at a barrier await its release? -/
def arriving (l : Lw) (b : Nat) : Bool := l.pend.any (fun q => q.deed = .arrive b)

/-- BAR.ARRIVE of the engine slot (08 R229). -/
def lwArrive (t : State) (c : LwCtx) (b : Nat) (tk : Option Nat) : Res :=
  if !mayArrive (getBar c.wg b) c.w || arriving c.lw b then .trap trapOperand else .done (pledge t c tk (.arrive b))

/-- The phase of a thread's last arrival at a barrier: the present one where the arrival awaits its release. -/
def lastArrival (c : LwCtx) (b : Nat) : Option Nat :=
  if arriving c.lw b then some (getBar c.wg b).phase else mget (getBar c.wg b).lastph c.w

/-- BAR.WAIT of the engine slot: its token counts until the phase completes (08 R229, 06 R149). -/
def lwBarWait (t : State) (c : LwCtx) (b : Nat) (tk : Option Nat) : Res :=
  match lastArrival c b, tk with
  | some ph, some k =>
    let passed := (getBar c.wg b).phase ≠ ph
    let t := modWarp t c.g c.w (fun x => { x with lw := x.lw.map (fun l => { l with barw := l.barw ++ [⟨k, b, ph, passed⟩] }) })
    .done (if passed then t else tokenUp t c tk)
  | _, _ => .trap trapOperand

/-- REC.COMMIT of the engine slot (13 R308, R310). -/
def lwCommit (s0 t : State) (c : LwCtx) (addr k : Word64) (mod : BitVec 4) (tk : Option Nat) : Res :=
  let given (q : LwPend) : Bool := match q.deed with
    | .commit a _ _ => a = addr.toNat
    | .arrive _ => false
  if 512 ≤ k.toNat || c.lw.pend.any given then .trap trapOperand
  else match resvAt c.wg addr.toNat with
    | none => .trap trapOperand
    | some r =>
      if r.n < k.toNat then .trap trapOperand
      else .done (pledge t c tk (.commit addr.toNat k.toNat (commitScope s0 c.wg r (mod.getLsbD 3) (mod.toNat % 8))))

/-- The engine slot's command (02 R42): checked on s0, done on t. -/
def engineDo (s0 t : State) (c : LwCtx) (e : EngineSlot) : Res :=
  let tk : Option Nat := if e.te then some e.tk.toNat else none
  let A := c.warp.sreg e.a.toNat
  let B := c.warp.sreg e.b.toNat
  let C := c.warp.sreg e.c.toNat
  let zero (v : Word64) (n : Nat) (r : Res) : Res := if 2 ^ n ≤ v.toNat then .trap trapOperand else r
  let copy (k : CopyKind) (code : Nat) (b1 b2 ctl : Word64) : Res :=
    if !copyCtlOk code (bits ctl.toNat 32 32) (e.mod.toNat / 4) (e.mod.toNat % 4) then .trap trapOperand
    else counted c tk (copyIssue s0 t c.g c.w 0xFFFFFFFF c.wg.core c.lw.pc tk
      { kind := k, dst := A, a := B, b0 := C, b1 := b1, b2 := b2, src := e.mod.toNat / 4, buf := e.mod.toNat % 4
        ctl := bits ctl.toNat 32 32 })
  let C1 := c.warp.sreg (e.c.toNat + 1)
  let C2 := c.warp.sreg (e.c.toNat + 2)
  let q := c.ask tk
  match e.op.toNat with
  | 0x01 => lwAccess s0 t c e tk
  | 0x02 => lwAccess s0 t c e tk
  | 0x03 => copy .tensor 0 C1 C2 C2
  | 0x04 => copy .linear 1 0 0 C
  | 0x05 => copy .gather 2 C1 C2 C2
  | 0x06 => copy .fill 3 0 0 C
  | 0x07 => zero B 37 (counted c tk (obResIssue s0 t q A B (bits B.toNat 32 5)))
  | 0x08 => zero A 5 (counted c tk (obFreeIssue s0 t q A.toNat))
  | 0x09 => lwMma s0 t c tk A B C
  | 0x0A => zero A 3 (counted c tk (anvZeroIssue s0 t q A))
  | 0x0B => zero C 57 (counted c tk (anvDrainIssue s0 t q A B C (BitVec.ofNat 64 (bits C.toNat 32 25))))
  | 0x0C => zero B 49 (counted c tk (anvLoadzIssue s0 t q A B (BitVec.ofNat 64 (bits B.toNat 32 17))))
  | 0x0D => lwArrive t c e.a.toNat tk
  | 0x0E => lwBarWait t c e.a.toNat tk
  | 0x0F => lwCommit s0 t c A B e.mod tk
  | _ => .done t

/-! ### The control slot and the loops (06 R153 to R158) -/

/-- END of a level: the address of its last bundle. -/
def Loop.last (v : Loop) : Word64 := v.start + BitVec.ofNat 64 (128 * (v.len - 1))
/-- Kernel trips K. -/
def Loop.kernel (v : Loop) : Nat := v.trips + v.stg
/-- Is an address in the body of a level? -/
def Loop.inBody (v : Loop) (a : Word64) : Bool := (a - v.start).toNat < 128 * v.len

/-- Pop the levels of a call depth for as long as an address lies outside their bodies (06 R154). -/
def popOut (depth : Nat) (a : Word64) : List Loop → List Loop
  | [] => []
  | v :: t => if v.calld = depth && !v.inBody a then popOut depth a t else v :: t

/-- Pop every level of a call depth (06 R154). -/
def popDepth (depth : Nat) : List Loop → List Loop
  | [] => []
  | v :: t => if v.calld = depth then popDepth depth t else v :: t

/-- The end of a trip at a bundle: the levels, and where the thread goes on (06 R157). -/
def endTrip (depth : Nat) (pc : Word64) : List Loop → List Loop × Word64
  | [] => ([], pc + 128)
  | v :: t =>
    if v.calld = depth && v.last = pc then
      if v.cur + 1 < v.kernel then
        let n := 8 * v.rotg
        ({ v with cur := v.cur + 1, rrb := if n = 0 then 0 else (v.rrb + n - 1) % n } :: t, v.start)
      else endTrip depth pc t
    else (v :: t, pc + 128)

/-- What the control slot does, once checked: the loop stack, the call stack, the next address, whether it was a taken
branch, and what SWP has read of the constant space (07 R175). -/
structure CtlEffect where
  loops : List Loop
  calls : List Word64
  pc : Word64
  taken : Bool
  /-- The places whose lines of the constant cache it fills. -/
  fills : List Place

/-- How the control slot's check ends. -/
inductive CtlRes where
  | ok (e : CtlEffect)
  | trap (t : Trap)
  | hold (s : State)
  | stop

/-- The level that LOOP pushes, or none where 06 R156 refuses it. -/
def newLoop (c : LwCtx) (len : Nat) : Option Loop :=
  let v := (c.warp.sreg 55).toNat
  let G := bits v 34 3
  let S := bits v 32 2 + 1
  let T := bits v 0 32
  let depth := c.lw.calls.length
  let l : Loop := { start := c.lw.pc + 128, trips := T, cur := 0, len := len, stg := S - 1, rotg := G, rrb := 0, calld := depth }
  let beyond := match c.lw.loops.filter (fun x => x.calld = depth) with
    | i :: _ => decide (0 < (l.last - i.last).toInt)
    | [] => false
  if bits v 37 27 ≠ 0 || 4 < G || (0 < G && c.warp.alloc < 32 + 8 * G) || 2 ^ 32 - 1 < T + S - 1 ||
      4 ≤ c.lw.loops.length || beyond then none
  else some l

/-- SWP: the entry at s54 + 8 PLEVEL (06 R155). -/
def swpTarget (s : State) (c : LwCtx) : CtlRes :=
  let o := c.warp.sreg 54
  let nb := nodeBits s c.wg
  let i := (getLg s c.wg.core c.warp.lg).plevel % 4
  let a : Word64 := spaceAddr 3 (o + BitVec.ofNat 64 (8 * i))
  if !c.lw.loops.isEmpty then .trap trapOperand
  else if o.toNat % 8 ≠ 0 then .trap (alignTrap 3 o)
  else match checkLanes s c.agent 3 8 .read false [(0, a)] with
    | .trap tr => .trap tr
    | .hold h => .hold h
    | .stop => .stop
    | .ok ps =>
      if ps.any (fun p => p.key.any (fun k => poisonedAt s k 8)) then
        .hold (addLate s c.g c.w { addr := a, lanes := 1, dst := 255, width := 0, cause := 0x0B, sub := 1, space := 3, token := none })
      else
        let u := loadFills s c.agent 3 {} ps
        let v := (ps.map (loadNat s u c.wg.core c.g c.w 3)).foldl (· + ·) 0
        let tgt : Word64 := BitVec.ofNat 64 (nd nb 64 64 + a.toNat + v)
        if tgt.toNat % 128 ≠ 0 then .trap (trapTarget tgt) else .ok ⟨[], c.lw.calls, tgt, true, ps⟩

/-- The control slot (06 R153). -/
def controlDo (s : State) (c : LwCtx) (k : ControlSlot) : CtlRes :=
  let l := c.lw
  let pc := l.pc
  let depth := l.calls.length
  let tgt := pc + (k.arg.signExtend 64) * 128
  let next : CtlEffect := ⟨l.loops, l.calls, pc + 128, false, []⟩
  let branch : CtlEffect := ⟨popOut depth tgt l.loops, l.calls, tgt, true, []⟩
  if k.op ≠ 0 && l.loops.any (fun v => v.calld = depth && v.last = pc) then .trap trapOperand
  else match k.op.toNat with
    | 0 =>
      let (ls, p) := endTrip depth pc l.loops
      .ok ⟨ls, l.calls, p, false, []⟩
    | 1 => .ok branch
    | 2 => .ok (if c.warp.sf then branch else next)
    | 3 => .ok (if c.warp.sf then next else branch)
    | 4 =>
      match newLoop c k.arg.toNat with
      | none => .trap trapOperand
      | some v =>
        if v.trips = 0 then .ok { next with pc := v.last + 128 } else .ok { next with loops := v :: l.loops }
    | 5 => if 8 ≤ depth then .trap trapOperand else .ok ⟨l.loops, (pc + 128) :: l.calls, tgt, true, []⟩
    | 6 =>
      match l.calls with
      | [] => .trap trapOperand
      | r :: rest => .ok ⟨popDepth depth l.loops, rest, r, true, []⟩
    | 7 => if l.loops.isEmpty && l.calls.isEmpty then .ok next else .trap trapOperand
    | _ => swpTarget s c

/-! ### Traps of a thread (06 R163, R164, 14 R325) -/

/-- The status entry (06 R159). -/
def statusEntry (l : Lw) : Nat :=
  (List.range 8).foldl (fun n k => n + mgetD l.tokens k 0 * 2 ^ (192 + 8 * k)) 0 + l.calls.length * 2 ^ 188 +
    l.loops.length * 2 ^ 185 + 2 ^ 184

/-- The site of a trap of a bundle (14 R329), with the tokens whose late faults it meets (14 R336). -/
def lwSite (c : LwCtx) (bundle : Nat) (own : Bool) (waits : List Nat := []) : Site :=
  { boundarySite c.g c.w none c.lw.pc 0xFFFFFFFF 0xFFFFFFFF 0xFFFFFFFF (statusEntry c.lw) with
    npc := if own then c.lw.pc + 128 else c.lw.pc, bundle := bundle, waits := waits }

/-- The trap that a thread takes at a bundle boundary before any check of the bundle (14 R325 items 1 to 3). -/
def lwPending (s : State) (c : LwCtx) (waits : Nat → Bool) : Option Trap :=
  match pendingTrap c.warp waits with
  | some t => some t
  | none =>
    if spBoundOf s c.wg.rnum < c.lw.count s.clock then some { cause := 0x0A, origin := 5, flanes := some 0 } else none

/-- What a fetch of the thread's next bundle would give, 0 where it cannot be fetched. -/
def peekBundle (s : State) (c : LwCtx) : Nat :=
  match fetchBundle s c.wg (warpKey c.g c.w) c.lw.pc.toNat with
  | .ok v _ => v
  | _ => 0

/-- The boundary trap of a thread outside its bundle's issue; none when none is due. The bundle at PC is fetched for the
frame; where it cannot be, the frame holds 0. -/
def lwBoundary (s : State) (c : LwCtx) : Option Out :=
  (lwPending s c (fun _ => false)).map (fun t =>
    match fetchBundle s c.wg (warpKey c.g c.w) c.lw.pc.toNat with
    | .ok v s => takeTrap s t (lwSite c v false)
    | .hold h => .next h
    | _ => takeTrap s t (lwSite c 0 false))

/-- SAFE_POINT_WATCHDOG: the count has passed SPBOUND (06 R163); a late or an engine fault that is due goes first. -/
def execSafePointWatchdog (g w : Nat) (s : State) : Out :=
  match lwCtxOf s ⟨g, w, 0⟩ with
  | none => .next s
  | some c => if spBoundOf s c.wg.rnum < c.lw.count s.clock then (lwBoundary s c).getD (.next s) else .next s

/-! ### Issue -/

/-- Is a bundle a safe point at this issue (06 R161)? A slot whose guard was false leaves no result that remains to land: DESIGN
CHOICE, log 56. -/
def safePoint (l : Lw) (b : Bundle) : Bool := b.s && l.flights.all (fun f => f.slot ≤ l.slot || !f.live)

/-- The thread is held at its bundle: the count of R163 goes on, or stops at a safe point from the cycle spMark on. -/
def lwHold (s : State) (c : LwCtx) (b : Bundle) : State :=
  modWarp s c.g c.w (fun x => { x with lw := x.lw.map (fun l =>
    if safePoint l b then l.resting s.clock else l.counting s.clock) })

/-- The wait mask's tokens: acquired, with the engine faults of their commands delivered (06 R150, 08 R215, 14 R339). -/
def acquireTokens (s : State) (c : LwCtx) (wait : BitVec 8) : State :=
  let named (k : Nat) : Bool := wait.getLsbD k
  let mine (f : Summary) : Bool := f.warp = c.w && (match f.token with
    | some k => named k
    | none => false)
  let s := deliver (deliver s c.g c.w false mine) c.g c.w true mine
  let s := c.lw.barw.foldl (fun s b =>
    if b.done && named b.tok then deliver s c.g c.w false (fun f => f.bars.contains (b.bar, b.phase)) else s) s
  let s := modWarp s c.g c.w (fun x => { x with lw := x.lw.map (fun l =>
    { l with barw := l.barw.filter (fun b => !(b.done && named b.tok)) }) })
  if wait = 0 then s else acquire s c.wg.core

/-- Rank of a condition of execution (14 R325). -/
def trapRank (t : Trap) : Nat :=
  match t.cause with
  | 6 => 0
  | 1 => 1
  | 5 => 2
  | 4 => 3
  | 2 => if t.sub = 2 ∨ t.sub = 3 then 3 else 4
  | 3 => 5
  | 7 => 6
  | _ => 7

/-- The first of several traps in the order of 14 R325; of equals, the control slot's, the scalar slot's, the engine
slot's. -/
def firstTrap (ts : List Trap) : Option Trap := leastBy (fun t => [trapRank t]) lexLt ts

/-- The state of a slot that waits for a walk of its own warp, whose condition is not known yet. -/
def walking? (who : Nat) (r : Res) : Option State :=
  match r with
  | .hold h => if h.walks.any (fun k => k.who = who) then some h else none
  | _ => none

/-- The trap of a result, if it is one. -/
def Res.trap? : Res → Option Trap
  | .trap t => some t
  | .trapOn _ t => some t
  | _ => none

/-- The thread after its bundle's slots: the loops, the calls, the clock and the count (06 R142, R163). -/
def afterBundle (s : State) (c : LwCtx) (b : Bundle) (e : CtlEffect) (fs : List Flight) : State :=
  let safe := safePoint c.lw b
  modWarp s c.g c.w (fun x => { x with lw := x.lw.map (fun l =>
    { l with
      pc := e.pc
      loops := e.loops
      calls := e.calls
      slot := l.slot + (if e.taken then 3 else 1)
      flights := l.flights ++ fs
      busy := ((List.range b.lanes.length).zip b.lanes).foldl (fun m q =>
        if q.2.op = 0 then m else mput m q.1 (l.slot + (laneTiming q.2.op.toNat).2) 0) l.busy
      draining := b.control.op = 7
      lastSafe := if safe then l.pc else l.lastSafe
      spCount := if safe then 0 else l.count s.clock
      spMark := s.clock
      spHold := false }) })

/-- The vector registers that a bundle reads or writes, of the warp's allocation. -/
def bundleVecs (l : Lw) (b : Bundle) : List Nat :=
  (b.lanes.flatMap laneNames).map l.rot ++ (if b.engine.op = 1 ∨ b.engine.op = 2 then [l.rot b.engine.c.toNat] else []) ++
    (if scaForm b.scalar.op.toNat = ScaForm.v2s then [l.rot b.scalar.a.toNat, l.rot (b.scalar.a.toNat + 1)] else [])

/-- Does a bundle wait for the limewash of a register that the warp has claimed (04 R90)? -/
def bundleWashing (s : State) (c : LwCtx) (b : Bundle) : Bool :=
  (getLg s c.wg.core c.warp.lg).wash.any (fun h => h.1 = warpKey c.g c.w && (bundleVecs c.lw b).any (fun n => n / 8 = h.2))

/-- The tokens that a wait mask names. -/
def waitTokens (wait : BitVec 8) : List Nat := (List.range 8).filter wait.getLsbD

/-- Does a bundle name an s-register that a load of the scalar slot has yet to write (06 R142, R148)? -/
def sldPending (s : State) (c : LwCtx) (b : Bundle) : Bool :=
  s.loads.any (fun l => l.g = c.g && l.w = c.w && (match l.scal with
    | some (n, _) => (bundleSregs b).contains n
    | none => false))

/-- Is a slot held? -/
def Res.holds : Res → Bool
  | .hold _ => true
  | _ => false

/-- Issue a bundle of a thread whose due results have landed and whose tokens have been acquired. -/
def issueBundle (s : State) (c : LwCtx) (b : Bundle) : Out :=
  let site := lwSite c (encodeBundle b).toNat true (waitTokens b.wait)
  let trap (t : Trap) : Out := takeTrap s t site
  let e := b.engine
  if b.d && s.obs.dbgen then trap { cause := 8, sub := 1 }
  else if !bundleForm b then trap { cause := 1, sub := 3 }
  else if bundleConflict s c b then trap { cause := 1, sub := 3 }
  else if !bundleRegs c.warp.alloc b then trap trapOperand
  else if sldPending s c b then .next (lwHold s c b)
  else if e.te && 255 ≤ mgetD c.lw.tokens e.tk.toNat 0 then .next (lwHold s c b)
  else if bundleWashing s c b then .next (lwHold s c b)
  else
    let ctl := controlDo s c b.control
    let sca := scalarAccess s s c b.scalar
    let eng := engineDo s s c e
    let poison := bundlePoison c b
    let ts := (match ctl with
      | .trap t => [t]
      | _ => []) ++ sca.trap?.toList ++ eng.trap?.toList ++
      (if poison = 0 then [] else [{ cause := 0x0B, sub := 4, flanes := some poison }])
    let who := warpKey c.g c.w
    let walk := (match ctl with
      | .hold h => walking? who (.hold h)
      | _ => none) <|> walking? who sca <|> walking? who eng
    match firstTrap ts, walk with
    | some t, none => trap t
    | some t, some h => if trapRank t < 4 then trap t else .next (lwHold h c b)
    | none, _ =>
      match ctl, sca, eng with
      | .stop, _, _ => .fault .physicalHole
      | _, .stop f, _ => .fault f
      | _, _, .stop f => .fault f
      | .hold h, _, _ => .next (lwHold h c b)
      | _, .hold h, _ => .next (lwHold h c b)
      | _, _, .hold h => .next (lwHold h c b)
      | .ok k, .done t, _ =>
        match engineDo s t c e with
        | .done t =>
          let approx := b.lanes.any (fun x => x.op = 0x27 || (0x29 ≤ x.op.toNat && x.op.toNat ≤ 0x2B))
          let t := if approx then { t with freeCtr := t.freeCtr + 32 } else t
          let t := loadFills t c.agent 3 {} k.fills
          .next (clearIssuer (afterBundle t c b k (bundleFlights s c b)))
        | _ => .next (lwHold s c b)
      | _, _, _ => .next (lwHold s c b)

/-- BUNDLE_ISSUE (02 R36, 06 R142 to R164). -/
def execBundleIssue (b : Bundle) (s : State) : Out :=
  match s.issuer with
  | none => .fault .noIssuer
  | some i =>
  match lwCtxOf s i with
  | none => .fault .noIssuer
  | some c0 =>
    let s := setWarp s c0.g c0.w (landUpTo c0.warp c0.lw.slot)
    match lwCtxOf s i with
    | none => .fault .noIssuer
    | some c =>
      let early (s : State) (c : LwCtx) (t : Trap) (waits : List Nat) : Out :=
        takeTrap s t (lwSite c (encodeBundle b).toNat false waits)
      match lwPending s c (fun _ => false) with
      | some t => early s c t []
      | none =>
        if (List.range 8).any (fun k => b.wait.getLsbD k && mgetD c.lw.tokens k 0 ≠ 0) then .next (lwHold s c b)
        else
          let s := acquireTokens s c b.wait
          match lwCtxOf s i with
          | none => .fault .noIssuer
          | some c =>
            match lwPending s c (fun k => b.wait.getLsbD k) with
            | some t => early s c t (waitTokens b.wait)
            | none => issueBundle s c b

/-! ### Events of a thread -/

/-- RESULT_LANDING: the results due by the thread's schedule clock land; while it drains, the clock moves on to the next
landing (06 R142, R144, R160). -/
def execResultLanding (g w : Nat) (s : State) : Out :=
  match getWarp s g w with
  | none => .next s
  | some x =>
    match x.lw with
    | none => .next s
    | some l =>
      let due := l.flights.filter (fun f => f.slot ≤ l.slot)
      if !due.isEmpty || !l.draining then .next (setWarp s g w (landUpTo x l.slot))
      else match leastBy (fun f => [f.slot]) lexLt l.flights with
        | none => .next s
        | some f =>
          .next (setWarp s g w (landUpTo { x with lw := some { l with slot := f.slot } } f.slot))

/-- LW_LD_COMPLETE: the 32 elements are written and the token counts one less (06 R149, R151). -/
def execLwLdComplete (id : Nat) (s : State) : Out :=
  match s.loads.find? (fun l => l.id = id && l.kind = .lwld) with
  | none => .next s
  | some l => if (darkHbm s (l.reads.map (fun r => r.2.2.1))).isEmpty && loadGone s l then .next (landLoad s l) else .next s

/-- LW_ST_COMPLETE: the stores of an LW.ST that a token counts are performed (06 R149). -/
def execLwStComplete (id : Nat) (s : State) : Out :=
  match s.stores.find? (fun e => e.id = id && e.token.isSome) with
  | none => .next s
  | some e => if Access.ready s (.store e) then .next (reapAll (performStore s e)) else .next s

/-- The warp that a thread resumes as (04 R115, 06 R160). -/
def resumeWarp (x : Warp) (pc : Word64) (clock : Nat) : Warp :=
  { x with lw := none, frags := [(0, ⟨pc, 0, 0xFFFFFFFF, 0, 0, .ready, clock, false⟩)], wmask := 0xFFFFFFFF }

/-- MODE_SIMT_DRAIN_DONE: every result has landed, every token is complete and every command has its effect; the thread is a warp
again, the warps that it held resume, and a MODE.LW that waits may proceed (06 R141, R160). -/
def execModeSimtDrainDone (g w : Nat) (s : State) : Out :=
  match getWarp s g w with
  | none => .next s
  | some x =>
    match x.lw with
    | none => .next s
    | some l =>
      if !l.draining || !l.tokens.isEmpty || !l.pend.isEmpty || x.bank.isSome then .next s
      else .next (unblockLw (wakeAll (setWarp s g w (resumeWarp (landFlights x) l.pc s.clock))) (coreOf s g))

end Sys2Proof.Machine
end

