-- ==== Sys2Proof/Machine/Lamp.lean ====
section
/-!
DEFINITION. The Lamplighter's events (07 R178 to R188) and near-threshold operation (07 R186).
-/

namespace Sys2Proof.Machine

/-- Is an access to a lamp unit under way, issued and not over? -/
def unitPending (s : State) (u : Nat) : Bool :=
  s.stores.any (fun e => e.cells.any (fun c => unitOf c.1 = some u)) ||
  s.atoms.any (fun a => !a.done && unitOf a.key = some u) ||
  s.loads.any (fun l => l.reads.any (fun r => unitOf r.2.2.1 = some u))

/-- Is an access to a lamp unit under way or waiting (07 R180, R184)? -/
def unitBusy (s : State) (u : Nat) : Bool := s.lampq.any (fun q => q.units.contains u && q.live s) || unitPending s u

/-- Cold threshold of a unit in cycles (07 R182); none where nothing dims it. -/
def coldThreshold (s : State) (u : Nat) : Option Nat :=
  let ofRegion (rnum : Nat) : Option Nat := if coldOf s rnum = 0 then none else some (256 * coldOf s rnum)
  if 72960 ≤ u then some s.bellows.hbmCold
  else if u < 61440 then
    match s.wgs.find? (fun p => p.2.onCore && (padUnits p.2).contains u) with
    | some p => ofRegion p.2.rnum
    | none => none
  else
    match s.regions.find? (fun p => p.2.banks.contains (u - 61440)) with
    | some p => ofRegion p.1
    | none => none

/-- LAMP_COLD_THRESHOLD: a LIT unit whose idle count has reached its threshold, unprotected and with no access queued, goes
DIM, a pseudo-channel DARK (07 R180, R182); what comes in the same cycle keeps it LIT (07 R188). -/
def execLampColdThreshold (u : Nat) (s : State) : Out :=
  match lampOf s u, coldThreshold s u with
  | .lit since, some th =>
    if since + th ≤ s.clock && !isProtected s u && !unitBusy s u then
      .next (setLamp (takePlace s (clsDim u) 0) u (if 72960 ≤ u then .dark else .dim))
    else .next s
  | _, _ => .next s

/-- LAMP_WAKE_COMPLETE: the wake latency has passed since the unit began to wake, and it is LIT (07 R179, R180). -/
def execLampWakeComplete (u : Nat) (s : State) : Out :=
  match lampOf s u with
  | .waking since zero =>
    if since + wakeTime u zero ≤ s.clock then .next (wakeAll (setLamp s u (.lit s.clock))) else .next s
  | _ => .next s

/-- Does a copy command under way write into the scratchpad of a core (07 R184)? -/
def copyInto (s : State) (core : Nat) : Bool :=
  s.copies.any (fun c => c.intoPad && (if c.mc then c.recv.any (fun r => coreOf s r.1 = core) else c.core = core))

/-- Is a scratchpad granule in the allocation of a workgroup that occupies its core? -/
def padHeld (s : State) (u : Nat) : Bool := s.wgs.any (fun p => p.2.onCore && (padUnits p.2).contains u)

/-- May a unit that nobody is granted any more go DARK (07 R184)? -/
def releasable (s : State) (u : Nat) : Bool :=
  if 72960 ≤ u then false
  else if u < 61440 then !padHeld s u && !copyInto s (u / 128) && !unitBusy s u
  else (mget s.vaultOwner (u - 61440)).isNone && !s.regrant.any (fun r => bankUnit r.1 = u) && !unitBusy s u

/-- The bytes of a scratchpad granule or vault bank are lost (07 R180). -/
def loseUnit (s : State) (u : Nat) : State :=
  if u < 61440 then zeroRange s (padKey (u / 128) (u % 128 * 4096)) 4096
  else zeroRange s (vaultKey ((u - 61440) / 48 * 2 ^ 24 + (u - 61440) % 48 * 2 ^ 18)) (2 ^ 18)

/-- Bellows firmware programs the cold threshold of the HBM pseudo-channels, at most 16,777,215 cycles; the hardware raises a value
below 4,096 to that (07 R182). A turn of the machine (log 3). -/
def programCold (v : Nat) (s : State) : State :=
  if s.bellows.firmware then { s with bellows := { s.bellows with hbmCold := max 4096 (min v 16777215) } } else s

/-- LAMP_RELEASE: a unit whose grant has ended goes DARK, its contents lost (07 R180, R184). -/
def execLampRelease (u : Nat) (s : State) : Out :=
  if lampOf s u = .dark || !releasable s u then .next s else .next (setLamp (loseUnit s u) u .dark)

/-- NEAR_THRESHOLD_ENTER: the Bellows moves a lane group into near-threshold operation (07 R186). -/
def execNearThresholdEnter (core lg : Nat) (s : State) : Out :=
  if nearAllowed s core lg || tripped s (dieOf core) then .next (modLg s core lg (fun l => { l with near := true })) else .next s

/-- NEAR_THRESHOLD_LEAVE (07 R186). -/
def execNearThresholdLeave (core lg : Nat) (s : State) : Out := .next (leaveNear s core lg)

end Sys2Proof.Machine
end

