-- ==== Sys2Proof/Machine/Regions.lean ====
section
/-!
DEFINITION. The region commands (13 R287 to R293, 15 R356): reading and checking a region control block, its nodes, its
vault grants and its context, ACTIVATE, RELOAD, DEACTIVATE and RCMD_COMPLETE.
-/

namespace Sys2Proof.Machine

/-! ### Reading -/

/-- A Cooper reads n bytes of device memory from a physical address on, at the memory-side slices (07 R170, 16 R379). -/
def physAsk (s : State) (pa n : Nat) : State :=
  askAll s ((List.range ((pa % 128 + n + 127) / 128)).map (fun i => hbmKey (pa / 128 * 128 + 128 * i)))

/-- n bytes of device memory from a physical address on. -/
def physNat (s : State) (pa n : Nat) : Nat := pocNat s (hbmKey pa) n

/-- Do n bytes from a physical address on lie in device memory? -/
def inHbm (pa n : Nat) : Bool := pa + n ≤ Config.hbmBytes

/-- What a region command reads: the block, its node descriptors, the banks of its grant map, its context descriptor. -/
structure RegionBlock where
  bits : BitVec 2048
  nodes : List (BitVec 1024)
  banks : List Nat
  ctx : BitVec 512
  asid : Nat
  /-- The block and its ancestors' blocks. -/
  path : List (BitVec 2048)
  deriving DecidableEq, Repr

/-- The context descriptor of an ASID in the table at CTXBASE (14 R321); zero beyond device memory. -/
def readContext (s : State) (asid : Nat) : BitVec 512 :=
  let a := s.host.ctxBase.toNat / 2 ^ 17 * 2 ^ 17 + 64 * asid
  if inHbm a 64 then BitVec.ofNat 512 (physNat s a 64) else 0

/-- A region command reads the block at an address, its node descriptors, its grant map and its context descriptor. -/
def askBlock (s : State) (addr : Nat) (k : RegionBlock) : State :=
  if !inHbm addr 256 then s
  else
    let s := physAsk (physAsk s addr 256) (rcb k.bits 64 64) (128 * k.nodes.length)
    let s := if rcb k.bits 320 64 = 0 then s else physAsk s (rcb k.bits 320 64) 1440
    physAsk s (s.host.ctxBase.toNat / 2 ^ 17 * 2 ^ 17 + 64 * k.asid) 64

/-- The block at an address, with all that hangs on it (13 R289). -/
def readBlock (s : State) (addr : Nat) : RegionBlock :=
  let bits : BitVec 2048 := if inHbm addr 256 then BitVec.ofNat 2048 (physNat s addr 256) else 0
  let path := bits :: (if rcb bits 0 64 = 0 then [] else match regionAt s (rcb bits 0 64) with
    | some p => pathOf s 8 p.bits
    | none => [])
  let tab := rcb bits 64 64
  let map := rcb bits 320 64
  let asid := effOn path 4 407 11 0
  { bits := bits, path := path, asid := asid, ctx := readContext s asid
    nodes := (List.range (min 1024 (rcb bits 430 11))).map (fun i => BitVec.ofNat 1024 (physNat s (tab + 128 * i) 128))
    banks := if map = 0 then [] else
      let m := physNat s map 1440
      (List.range 11520).filter (fun b => m.testBit b) }

/-! ### Checks -/

/-- Is field i of 13 R288 given in a block? -/
def given (b : BitVec 2048) (i : Nat) : Bool := rcb b (576 + i) 1 = 1

/-- Has a block a reserved field or value? -/
def rcbReserved (b : BitVec 2048) : Bool :=
  [(896, 1152), (592, 48), (591, 1), (537, 39), (508, 4), (441, 7), (392, 3), (297, 23)].any (fun f => rcb b f.1 f.2 ≠ 0) ||
  (given b 2 && rcb b 397 2 = 0)

/-- Is a field of a block outside its range; or has a root no ASID, or the parent no active block (13 R287, R288)? -/
def rcbRange (s : State) (addr : Nat) (b : BitVec 2048) : Bool :=
  !inHbm addr 256 || rcb b 430 11 = 0 || 1024 < rcb b 430 11 ||
  !inHbm (rcb b 64 64) (128 * rcb b 430 11) || (rcb b 320 64 ≠ 0 && !inHbm (rcb b 320 64) 1440) ||
  rcb b 192 32 % 4096 ≠ 0 ||
  (given b 3 && rcb b 399 8 < 16) || (given b 5 && rcb b 448 20 = 0) || (given b 7 && rcb b 488 20 = 0) ||
  (given b 9 && (rcb b 288 9 = 0 || 480 < rcb b 288 9)) || (given b 10 && 61440 < rcb b 256 16) ||
  (given b 11 && 11520 < rcb b 272 16) ||
  (if rcb b 0 64 = 0 then !given b 4 else (regionAt s (rcb b 0 64)).isNone)

/-- Is an address of a block misaligned? -/
def rcbMisaligned (addr : Nat) (b : BitVec 2048) : Bool :=
  addr % 256 ≠ 0 || rcb b 64 64 % 128 ≠ 0 || rcb b 128 64 % 4096 ≠ 0 || rcb b 0 64 % 256 ≠ 0

/-- Granules of the allocation that a node's descriptor asks for (07 R172, 13 R300). -/
def nodePad (b : BitVec 1024) : Nat :=
  let n := nd b 337 8
  if nd b 345 1 = 0 || n = 0 then n
  else ((List.range 9).map (fun i => 2 ^ i)).foldl (fun m p => if n ≤ p && p < m then p else m) 256

/-- Do a node's warps fit the lane groups of one empty core? -/
def nodeFits (b : BitVec 1024) : Bool :=
  let warps := nd b 328 4 + 1
  let regs := nd b 332 5
  nodePad b ≤ 128 && (regs = 0 || warps ≤ 4 * min 16 (64 / regs))

/-- Is there no core that a node of a block could ever take: the pairs of its stacks have fewer banks granted than VNEED, or a budget
on the path does not hold one workgroup, two for a pair (13 R293, R300)? -/
def nodeNowhere (k : RegionBlock) (b : BitVec 1024) : Bool :=
  let sides := if nd b 346 2 ≠ 0 then 2 else 1
  let stk := effOn k.path 2 397 2 3
  k.path.any (fun r => (given r 9 && rcb r 288 9 < sides) || (given r 10 && rcb r 256 16 < sides * nodePad b)) ||
  !(List.range 240).any (fun p => stk.testBit (p / 120) && nd b 348 6 ≤ (k.banks.filter (fun x => x / 48 = p)).length)

/-- Is a node descriptor refused (13 R293)? -/
def nodeRefused (k : RegionBlock) (b : BitVec 1024) : Bool :=
  nd b 512 512 ≠ 0 || nd b 374 10 ≠ 0 || nd b 305 15 ≠ 0 ||
  nd b 358 5 < 4 || 24 < nd b 358 5 || 4 < nd b 355 3 || 48 < nd b 348 6 || nd b 346 2 = 3 || 128 < nd b 337 8 ||
  nd b 332 5 = 0 || 30 < nd b 332 5 || 65536 < nd b 288 17 || nd b 272 16 = 0 ||
  nd b 128 64 = 0 || nd b 128 64 % 256 ≠ 0 || nd b 0 64 % 8 ≠ 0 || nd b 64 64 % 64 ≠ 0 || !nodeFits b || nodeNowhere k b

/-- Is a context descriptor refused (14 R321)? -/
def ctxRefused (b : BitVec 512) : Bool :=
  let f (lo n : Nat) : Nat := bits b.toNat lo n
  f 384 8 ≠ 0xA5 || f 420 92 ≠ 0 || f 392 7 ≠ 0 || f 320 32 ≠ 0 || f 192 64 ≠ 0 || f 368 16 = 0 ||
  f 256 64 % 2 ^ 21 ≠ 0 || f 128 64 % 8 ≠ 0 || f 64 64 % 65536 ≠ 0 || f 0 64 % 4096 ≠ 0

/-- Is region q in the subtree of region p, p itself included? -/
def inSubtree (s : State) (p q : Nat) : Bool := (pathTo s q).any (fun b => rcb b 418 12 = p)

/-- Record memory of a block in bytes (13 R289). -/
def recordMem (b : BitVec 2048) (nodes : List (BitVec 1024)) : Nat :=
  rcb b 192 32 + (nodes.map (fun n => ringSlots n * recSize n)).foldl (· + ·) 0

/-- What the active regions in the subtree of p, those other than `self`, use of a budget. -/
def usedIn (s : State) (p : Nat) (self : Option Nat) (f : Region → Nat) : Nat :=
  ((s.regions.filter (fun q => inSubtree s p q.1 && some q.1 ≠ self)).map (fun q => f q.2)).foldl (· + ·) 0

/-- Does a use beside the others' break a budget on a path: OVR bit, position, width, default, unit? A root that gives none has the
default, which what inherits it shares (13 R288). -/
def overBudget (s : State) (path : List (BitVec 2048)) (self : Option Nat) (ovr lo n dflt unit use : Nat) (f : Region → Nat) : Bool :=
  let beyond (b : BitVec 2048) (limit : Nat) : Bool := limit * unit < usedIn s (rcb b 418 12) self f + use
  path.any (fun b => given b ovr && beyond b (rcb b lo n)) || path.getLast?.any (fun b => !given b ovr && beyond b dflt)

/-- The check of a block for ACTIVATE, or for RELOAD of the active region `self` (13 R289, 15 R356): STATUS, 0 when every
check passes. -/
def checkBlock (s : State) (addr : Nat) (k : RegionBlock) (self : Option Nat) : Nat :=
  let b := k.bits
  let rnum := rcb b 418 12
  let others := s.regions.filter (fun q => some q.1 ≠ self)
  if rcbReserved b then 1
  else if rcbRange s addr b then 2
  else if rcbMisaligned addr b then 3
  else if 8 < k.path.length then 4
  else if others.any (fun q => q.1 = rnum || q.2.addr = addr) then 5
  else if k.nodes.any (nodeRefused k) then 6
  else if others.any (fun q => k.banks.any (fun x => q.2.banks.contains x)) ||
      overBudget s k.path self 11 272 16 11520 1 k.banks.length (fun r => r.banks.length) then 7
  else if overBudget s k.path self 12 224 32 0xFFFFFFFF 4096 (recordMem b k.nodes)
      (fun r => recordMem r.bits (r.nodes.map (fun q => q.2.bits))) then 8
  else if ctxRefused k.ctx then 9
  else 0

/-! ### Effects -/

/-- A queue that starts empty. -/
def Node.fresh (b : BitVec 1024) : Node := ⟨b, 0, 0, [], [], 0, none⟩

/-- A vault bank is granted anew: it wakes and is zeroed (07 R180), once the accesses that its controller has accepted for the grant
before are performed (07 R184). -/
def grantBank (s : State) (b : Nat) : State :=
  if unitBusy s (bankUnit b) || s.regrant.any (fun r => r.1 = b) then
    { s with regrant := s.regrant ++ [(b, (s.lampq.filter (fun q => q.units.contains (bankUnit b) && q.live s)).map (·.who))] }
  else grantUnit s (bankUnit b)

/-- Grant vault banks to a context (07 R176). -/
def grantBanks (s : State) (asid : Nat) (banks fresh : List Nat) : State :=
  fresh.foldl grantBank { s with vaultOwner := banks.foldl (fun m b => mset m b asid) s.vaultOwner }

/-- A bank whose new grant has waited wakes and is zeroed once what the grant waits for is performed (07 R184). -/
def settleGrant (s : State) (r : Nat × List Nat) : State :=
  if s.regrant.find? (fun q => q.1 = r.1) = some r && !unitPending s (bankUnit r.1) &&
      !s.lampq.any (fun q => q.units.contains (bankUnit r.1) && r.2.contains q.who && q.live s) then
    grantUnit { s with regrant := s.regrant.erase r } (bankUnit r.1)
  else s

/-- Settle the grants that wait. -/
def settleGrants (s : State) : State := s.regrant.foldl settleGrant s

/-- Withdraw the grants of vault banks; LAMP_RELEASE darkens them once the accesses that their controllers have accepted are
performed (07 R184). -/
def dropBanks (s : State) (banks : List Nat) : State :=
  { s with vaultOwner := s.vaultOwner.filter (fun p => !banks.contains p.1) }

/-- Store a context descriptor (14 R321). -/
def putContext (s : State) (asid : Nat) (d : BitVec 512) : State := { s with contexts := mset s.contexts asid ⟨d⟩ }

/-- The answer of a region command: STATUS, and BUSY until RCMD_COMPLETE (15 R356). -/
def rcmdAnswer (s : State) (status : Nat) : State :=
  { s with host := { s.host with rcmdStatus := BitVec.ofNat 8 status, rcmdBusy := true } }

/-- ACTIVATE (13 R289). -/
def activateRegion (s : State) (addr : Nat) : State :=
  let k := readBlock s addr
  let s := askBlock s addr k
  let status := checkBlock s addr k none
  if status ≠ 0 then rcmdAnswer s status
  else
    let nodes := ((List.range k.nodes.length).zip k.nodes).map (fun q => (q.1, Node.fresh q.2))
    let r : Region := ⟨addr, k.bits, nodes, k.banks, 0, false⟩
    let s := putContext { s with regions := mset s.regions (rcb k.bits 418 12) r } k.asid k.ctx
    rcmdAnswer (grantBanks s k.asid k.banks k.banks) 0

/-- Give a region's workgroups and doorbells another region number. -/
def renumber (s : State) (old new : Nat) : State :=
  if old = new then s
  else { s with wgs := s.wgs.map (fun p => (p.1, if p.2.rnum = old then { p.2 with rnum := new } else p.2))
                rings := s.rings.map (fun q => if q.rnum = old then { q with rnum := new } else q) }

/-- The banks of every active region belong to the context that its ASID names, its own or an inherited one (07 R176, 13 R288). -/
def reown (s : State) : State :=
  { s with vaultOwner := s.regions.foldl (fun m p => p.2.banks.foldl (fun m b => mset m b (asidOf s p.1)) m) s.vaultOwner }

/-- RELOAD (13 R289), checked with the block in the place that it asks for; of a block that is not active it changes nothing, with a
status that the spec does not name (log 4). A node beyond a lowered NODECNT goes with its queue, and a node whose QLOG, RECSZ or QBASE
changes keeps its records and the positions of its queue: DESIGN CHOICE, log 64. -/
def reloadRegion (s : State) (addr : Nat) : State :=
  match s.regions.find? (fun p => p.2.addr = addr) with
  | none =>
    let (v, s) := freshFree s
    rcmdAnswer s (v.toNat % 256)
  | some (old, r) =>
    let bits := (readBlock s addr).bits
    let s' := { s with regions := mset s.regions old { r with bits := bits } }
    let k := readBlock s' addr
    let s := askBlock s addr k
    let status := checkBlock s' addr k (some old)
    if status ≠ 0 then rcmdAnswer s status
    else
      let new := rcb k.bits 418 12
      let nodes := ((List.range k.nodes.length).zip k.nodes).map (fun q =>
        (q.1, match mget r.nodes q.1 with
          | some n => { n with bits := q.2 }
          | none => Node.fresh q.2))
      let s := renumber { s with regions := mset (mdel s.regions old) new { r with bits := k.bits, nodes := nodes, banks := k.banks } } old new
      let s := putContext s k.asid k.ctx
      let s := dropBanks s (r.banks.filter (fun b => !k.banks.contains b))
      rcmdAnswer (reown (grantBanks s k.asid k.banks (k.banks.filter (fun b => !r.banks.contains b)))) 0

/-- DEACTIVATE (13 R289). -/
def deactivateRegion (s : State) (addr : Nat) : State :=
  match s.regions.find? (fun p => p.2.addr = addr) with
  | none => rcmdAnswer s 10
  | some (rnum, r) =>
    if s.wgs.any (fun p => p.2.rnum = rnum) || s.regions.any (fun p => rcb p.2.bits 0 64 = addr) then rcmdAnswer s 10
    else rcmdAnswer (dropBanks { s with regions := mdel s.regions rnum } r.banks) 0

/-- A write to RCMD (15 R356): discarded while BUSY, nothing for CMD 0. -/
def rcmdWrite (v : Word64) (s : State) : State :=
  if s.host.rcmdBusy then s
  else
    let addr := s.host.rcmdAddr.toNat
    match v.toNat % 4 with
    | 1 => activateRegion s addr
    | 2 => reloadRegion s addr
    | 3 => deactivateRegion s addr
    | _ => s

/-- ACTIVATE: a write to RCMD with CMD 1 (13 R289, 15 R356). -/
def execActivate (v : Word64) (s : State) : Out := .next (if v.toNat % 4 = 1 then rcmdWrite v s else s)
/-- RELOAD: a write to RCMD with CMD 2 (13 R289, 15 R356). -/
def execReload (v : Word64) (s : State) : Out := .next (if v.toNat % 4 = 2 then rcmdWrite v s else s)
/-- DEACTIVATE: a write to RCMD with CMD 3 (13 R289, 15 R356). -/
def execDeactivate (v : Word64) (s : State) : Out := .next (if v.toNat % 4 = 3 then rcmdWrite v s else s)

/-- RCMD_COMPLETE: the command under way is over (15 R356). -/
def execRcmdComplete (s : State) : Out := .next { s with host := { s.host with rcmdBusy := false } }

end Sys2Proof.Machine
end

