-- ==== Sys2Proof/Machine/Place.lean ====
section
/-!
DEFINITION. Where a Cooper may place a launch or a restore (13 R300, R304, 14 R322, 11 R275, R279, R282): room on a core,
budgets, trap blocks, and the preferences among cores.
-/

namespace Sys2Proof.Machine

/-! ### Lane groups -/

/-- What must lie in one lane group: granules, warp slots, whether a long-word thread is among them, and the lane group
where it is fixed. -/
structure Item where
  granules : Nat
  slots : Nat
  lw : Bool
  force : Option Nat
  deriving DecidableEq, Repr

/-- Free granules and slots of the lane groups of a core, and the lane groups that are taken. -/
structure Room where
  granules : SMap Nat
  slots : SMap Nat
  taken : List Nat
  deriving DecidableEq, Repr

/-- Room on a core. -/
def roomOf (s : State) (core : Nat) : Room where
  granules := (List.range 4).map (fun lg => (lg, freeGranules s core lg))
  slots := (List.range 4).map (fun lg => (lg, (freeWarpSlots s core lg).length))
  taken := []

/-- Place items in order, each in the lane group with the most free granules among those that take it, ties to the lower
number (13 R300); `apart` keeps items on different lane groups (13 R315), `lws` are in long-word mode (06 R141). -/
def fitItems (apart : Bool) (lws : List Nat) : List Item → Room → Option (List Nat)
  | [], _ => some []
  | i :: rest, r =>
    let ok (lg : Nat) : Bool := i.granules ≤ mgetD r.granules lg 0 && i.slots ≤ mgetD r.slots lg 0 &&
      !(apart && r.taken.contains lg) && !(i.lw && lws.contains lg) && i.force.all (fun f => f = lg)
    match leastBy (fun lg => [64 - mgetD r.granules lg 0, lg]) lexLt ((List.range 4).filter ok) with
    | none => none
    | some lg =>
      let r' : Room := ⟨mset r.granules lg (mgetD r.granules lg 0 - i.granules), mset r.slots lg (mgetD r.slots lg 0 - i.slots),
        r.taken ++ [lg]⟩
      match fitItems apart (if i.lw then lg :: lws else lws) rest r' with
      | some ls => some (lg :: ls)
      | none => none

/-- Lane groups of a core in long-word mode. -/
def lwGroups (s : State) (core : Nat) : List Nat := (List.range 4).filter (lwOn s core)

/-- Lane groups for items on a core; none when they do not fit, or when more than two lane groups would be in long-word
mode (06 R141). -/
def fitLgs (s : State) (core : Nat) (apart : Bool) (items : List Item) : Option (List Nat) :=
  let lws := lwGroups s core
  if (items.any (·.lw)) && 2 < lws.length + (items.filter (·.lw)).length then none
  else fitItems apart lws items (roomOf s core)

/-! ### Scratchpad -/

/-- Is a scratchpad granule of a core free: in no allocation, and dark since its release? -/
def padFree (s : State) (core i : Nat) : Bool :=
  let u := 128 * core + i
  lampOf s u = .dark && !padHeld s u

/-- First granules of the free runs of n granules of a core's scratchpad. -/
def padRuns (s : State) (core n : Nat) : List Nat :=
  if n = 0 then [0] else (List.range (129 - n)).filter (fun b => (List.range n).all (fun i => padFree s core (b + i)))

/-! ### Blocks and budgets -/

/-- Trap blocks of a context that are free, ascending (14 R322); those beyond the first n are not looked for. -/
def freeTrapBlocks (s : State) (asid n : Nat) : List Nat :=
  let used := s.wgs.filterMap (fun p => if p.2.asid = asid then p.2.trapBlock else none)
  ((List.range (min (ctxBits s asid 368 16) (used.length + n))).filter (fun k => !used.contains k)).take n

/-- Image blocks of a context that are free (14 R322), as freeTrapBlocks. -/
def freeImageBlocks (s : State) (asid n : Nat) : List Nat :=
  let used := s.wgs.filterMap (fun p => if p.2.asid = asid then p.2.imageBlock else none)
  ((List.range (min (ctxBits s asid 352 16) (used.length + n))).filter (fun k => !used.contains k)).take n

/-- Does placing workgroups of a region on cores, with n granules in all, keep the CORES and SCRATCH budgets of the region
and its ancestors (13 R288, R300)? -/
def budgetsOk (s : State) (rnum : Nat) (cores : List Nat) (n : Nat) : Bool :=
  (pathTo s rnum).all (fun b =>
    let own := s.wgs.filter (fun p => p.2.onCore && inSubtree s (rcb b 418 12) p.2.rnum)
    (!given b 9 || (nub (own.map (·.2.core) ++ cores)).length ≤ rcb b 288 9) &&
    (!given b 10 || (own.map (fun p => p.2.padSize.div 4096)).foldl (· + ·) 0 + n ≤ rcb b 256 16))

/-- Has a core room for one more workgroup (01 R16)? -/
def wgRoom (s : State) (core : Nat) : Bool := (wgsOn s core).length < 16

/-- May a pair take the twin flags, and the exchange file for bind (11 R279, 13 R300)? -/
def flagsFree (s : State) (core : Nat) : Bool := ((getPair s (pairOf core)).holder).isNone

/-- Does a region own enough banks of the vault of a core's pair? -/
def vaultNeed (r : Region) (b : BitVec 1024) (core : Nat) : Bool :=
  nd b 348 6 ≤ (r.banks.filter (fun x => x / 48 = pairOf core)).length

/-! ### Plans -/

/-- One side of a placement: its core, the lane groups of its items, and the scratchpad runs that it may take. -/
structure Side where
  core : Nat
  lgs : List Nat
  runs : List Nat
  deriving DecidableEq, Repr

/-- A reserve launch: no workgroup of the node exists (13 R304). -/
def isReserve (s : State) (rnum node : Nat) : Bool := !s.wgs.any (fun p => p.2.rnum = rnum && p.2.node = node)

/-- One side of a launch on a core. -/
def planSide (s : State) (b : BitVec 1024) (core : Nat) (force : Option (List Nat)) : Option Side :=
  let n := nd b 328 4 + 1
  let items := (List.range n).map (fun w => (⟨nd b 332 5, 1, false, force.map (fun l => l.getD w 0)⟩ : Item))
  match fitLgs s core false items, padRuns s core (nodePad b) with
  | some lgs, r :: rs => if wgRoom s core then some ⟨core, lgs, r :: rs⟩ else none
  | _, _ => none

/-- The placement of a launch of a node on a core, or on the twin pair whose floor core it is (13 R300, R304, 11 R282). -/
def planLaunch (s : State) (rnum node core : Nat) : Option (List Side) :=
  match mget s.regions rnum, getNode s rnum node with
  | some r, some d =>
    let b := d.bits
    let pair := nd b 346 2 ≠ 0
    let sides := if pair then 2 else 1
    let cores := if pair then [core, twinOf core] else [core]
    if !(stkOf s rnum).testBit (stackOf core) || (pair && sideOf core = 1) || !vaultNeed r b core ||
        (pair && !flagsFree s core) || (freeTrapBlocks s (asidOf s rnum) sides).length < sides ||
        (!isReserve s rnum node && !budgetsOk s rnum cores (sides * nodePad b)) then none
    else match planSide s b core none with
      | none => none
      | some p =>
        if pair then (planSide s b (twinOf core) (some p.lgs)).map (fun q => [p, q]) else some [p]
  | _, _ => none

/-- The lane groups that the warps of a workgroup share, or that a pool of it belongs to, ascending (13 R315). -/
def lgClasses (s : State) (g : Nat) (x : Wg) : List Nat :=
  (List.range 4).filter (fun lg => mgetD x.pools lg 0 ≠ 0 || (liveWarps s g).any (fun w => (getWarp s g w).any (fun p => p.lg = lg)))

/-- What a lane group's class asks for at restore. -/
def classItem (s : State) (g : Nat) (x : Wg) (lg : Nat) : Item :=
  let ws := (liveWarps s g).filterMap (fun w => (getWarp s g w).filter (fun p => p.lg = lg))
  { granules := (ws.map (fun p => p.alloc / 8)).foldl (· + ·) (mgetD x.pools lg 0), slots := ws.length
    lw := ws.any (fun p => p.lw.isSome), force := none }

/-- Are the tiles, records and operand-buffer units of a saved workgroup free on its core (11 R275)? -/
def anvilFree (s : State) (x : Wg) : Bool :=
  let c := getCore s x.core
  match x.saved with
  | none => true
  | some v =>
    v.tiles.all (fun t => (mget c.tiles t.1).isNone) &&
    v.obs.all (fun o => (mget c.obs o.1).isNone && (obRanges s x.core).all (fun q => !obMeet o.2.bits q.2))

/-- Is a workgroup live: neither ended nor being ended? -/
def Wg.live (x : Wg) : Bool :=
  match x.status with
  | .ending => false
  | .killed _ _ _ _ _ _ => false
  | _ => true

/-- The workgroups that go together (01 R17, 11 R276): the workgroup and its partner, if it is live. -/
def restoreSet (s : State) (g : Nat) : List Nat :=
  match getWg s g with
  | none => []
  | some x => g :: (x.partner.toList.filter (fun h => (getWg s h).any Wg.live))

/-- The placement of a restore, on the cores where the workgroups began (01 R17, 13 R300, R315, 11 R275, R279, 14 R322). -/
def planRestore (s : State) (g : Nat) : Option (List Side) :=
  let gs := restoreSet s g
  let xs := gs.filterMap (fun h => (getWg s h).map (fun x => (h, x)))
  match xs with
  | [] => none
  | (_, x) :: _ =>
    let need := (xs.filter (fun q => q.2.trapBlock.isNone)).length
    let node := getNode s x.rnum x.node
    if (freeTrapBlocks s x.asid need).length < need || (x.pairPlaced && !flagsFree s x.core) ||
        !(stkOf s x.rnum).testBit (stackOf x.core) ||
        !((mget s.regions x.rnum).any (fun r => node.any (fun d => vaultNeed r d.bits x.core))) ||
        !budgetsOk s x.rnum (xs.map (·.2.core)) ((xs.map (fun q => q.2.padSize.div 4096)).foldl (· + ·) 0) then none
    else
      let side (q : Nat × Wg) : Option Side :=
        let room := (getCore s q.2.core).spawns.length + (q.2.saved.map (fun v => v.spawns.length)).getD 0 ≤ Config.spawnStore
        match fitLgs s q.2.core true ((lgClasses s q.1 q.2).map (classItem s q.1 q.2)), padRuns s q.2.core (q.2.padSize.div 4096) with
        | some lgs, r :: rs => if wgRoom s q.2.core && anvilFree s q.2 && room then some ⟨q.2.core, lgs, r :: rs⟩ else none
        | _, _ => none
      if xs.all (fun q => (side q).isSome) then some (xs.filterMap side) else none

/-! ### Choice among cores (13 R300) -/

/-- Does a workgroup's node use ANV.MMA? -/
def usesAnv (s : State) (x : Wg) : Bool := (getNode s x.rnum x.node).any (fun d => nd d.bits 354 1 = 1)

/-- Side on which the licence of a pair is held or was last held (11 R270). -/
def licSide (s : State) (p : Nat) : Nat :=
  match (getPair s p).lic with
  | .unowned side => side
  | .held _ side _ => side
  | .transfer _ side _ _ => 1 - side

/-- Rank of a core for a launch (13 R300). For a pair launch the side that preference 2 reads is the floor core's: DESIGN CHOICE,
log 70. -/
def coreRank (s : State) (b : BitVec 1024) (core : Nat) : List Nat :=
  let anv := nd b 354 1 = 1
  let cores := if nd b 346 2 ≠ 0 then [core, twinOf core] else [core]
  let busy := s.wgs.any (fun p => p.2.onCore && pairOf p.2.core = pairOf core && usesAnv s p.2)
  let warps := (cores.flatMap (fun k => (List.range 4).map (fun lg => (warpsOn s k lg).length))).foldl (· + ·) 0
  [if anv && busy then 1 else 0, if anv && sideOf core ≠ licSide s (pairOf core) then 1 else 0, warps, core]

/-- Cores of a stack. -/
def coresOf (stack : Nat) : List Nat := (List.range 240).map (fun i => 240 * stack + i)

/-- Where a launch goes on a stack. -/
def findLaunch (s : State) (rnum node stack : Nat) : Option (List Side) :=
  match getNode s rnum node with
  | none => none
  | some d =>
    match leastBy (coreRank s d.bits) lexLt ((coresOf stack).filter (fun k => (planLaunch s rnum node k).isSome)) with
    | some k => planLaunch s rnum node k
    | none => none

end Sys2Proof.Machine
end

