-- ==== Sys2Proof/Machine/Preempt.lean ====
section
/-!
DEFINITION. Stopping, parking, saving and restoring workgroups (06 R162, 07 R189, 08 R231, 10 R252, 11 R275, R276, R279,
13 R318, 14 R322, R343 to R345): PARK_WORKGROUP, PREEMPT_SAVE, and the steps of a restore.
-/

namespace Sys2Proof.Machine

/-! ### Stopping (14 R343 item 1, 11 R275 item 1) -/

/-- A workgroup and its partner, if it is live: they go together (11 R276). -/
def wgSet (s : State) (g : Nat) : List Nat := restoreSet s g

/-- Have the contexts of some workgroups a free image block for each (14 R322)? -/
def imageRoom (s : State) (gs : List Nat) : Bool :=
  gs.all (fun g => (getWg s g).any (fun x =>
    let n := (gs.filter (fun h => (getWg s h).any (fun y => y.asid = x.asid))).length
    n ≤ (freeImageBlocks s x.asid n).length))

/-- A workgroup's requests for the licence when it stops: urgent when an engine-slot ANV.MMA stands behind them, and withdrawn
otherwise (11 R275). DESIGN CHOICE, log 54: a request that an urgent hand-over raised again for accepted ANV.MMA commands of warp
mode alone stays as it is, neither withdrawn nor urgent, until those commands have completed. -/
def stopRequests (s : State) (g : Nat) : State :=
  if mmaPending s g && !threadMma s g then s
  else if threadMma s g then
    modPair s (pairOfWg s g) (fun q => { q with reqs := q.reqs.map (fun r => if r.g = g then { r with urgent := true } else r) })
  else withdrawReq s g

/-- Is a fragment's place in a queue's order of waiting a warp's of this workgroup? -/
def waiterOf (g : Nat) (v : Waiter) : Bool :=
  match v with
  | .frag k _ => k / 16 = g
  | .bell _ => false

/-- Is a place in the queue of lamp units a warp's of this workgroup? -/
def queueOf (g : Nat) (q : LampWait) : Bool := q.who < 2 ^ 64 && q.who % 2 ^ 63 / 512 = g

/-- A fragment that waits in REC.ALLOC.w, or in PHASE for a wake, stands before its instruction again (14 R343). -/
def beforeWait (fr : Frag) : Frag :=
  match fr.state with
  | .blocked (.alloc _ _ _ _ _) => { fr with state := .ready }
  | .blocked (.lit _ word) => { fr with state := .ready, pc := word }
  | _ => fr

/-- A handler that waits in PHASE for a wake stands before it again (14 R343). -/
def Bank.beforeWait (b : Bank) : Bank :=
  match b.wait with
  | some (.lit _ word) => { b with wait := none, pc := word }
  | _ => b

/-- The fragments of a workgroup leave the orders of waiting of records and of wakes, and stand before their instructions (14 R343
item 1); a long-word thread keeps its place. -/
def cancelWaits (s : State) (g : Nat) : State :=
  let s := { s with
    lampq := s.lampq.filter (fun q => !(queueOf g q && (getWarp s g (q.who / 32 % 16)).any (fun p => p.lw.isNone)))
    regions := s.regions.map (fun p => (p.1, { p.2 with nodes := p.2.nodes.map (fun q =>
      (q.1, { q.2 with waiters := q.2.waiters.filter (fun v => !waiterOf g v) })) })) }
  (liveWarps s g).foldl (fun s w => modWarp s g w (fun p =>
    { p with frags := p.frags.map (fun q => (q.1, beforeWait q.2)), bank := p.bank.map Bank.beforeWait })) s

/-- Issue of a workgroup stops for a save; it takes the lowest free image block of its context (14 R322, R343). -/
def stopWg (s : State) (park : Bool) (g : Nat) : State :=
  match getWg s g with
  | none => s
  | some x =>
    let block := (freeImageBlocks s x.asid 1).head?
    cancelWaits (stopRequests (setWg s g { x with status := .stopping park, imageBlock := block, latch := none, stood := [] }) g) g

/-! ### Parking (08 R231, 13 R318) -/

/-- Does a copy command under way write into the scratchpad allocation of a workgroup (08 R231, 10 R252)? -/
def copyIntoWg (s : State) (g : Nat) : Bool := s.copies.any (fun c => c.intoPad && c.reaches g)

/-- How a warp waits, as parking sees it. -/
inductive ParkWait where
  | none
  /-- In BAR.WAIT or BAR.SYNC, since a cycle. -/
  | bar (since : Nat)
  /-- In NTF.WAIT, or in barriers and NTF.WAIT, with whether one is .park. -/
  | notify (park : Bool)
  deriving DecidableEq, Repr

/-- The wait of a long-word thread that its wait mask holds at a safe point on BAR.WAIT tokens alone (08 R231). -/
def lwParkWait (s : State) (g w : Nat) : ParkWait :=
  match lwCtxOf s ⟨g, w, 0⟩ with
  | none => .none
  | some c =>
    let b := decodeBundle (BitVec.ofNat 1024 (peekBundle s c))
    let open' := (List.range 8).filter (fun k => b.wait.getLsbD k && mgetD c.lw.tokens k 0 ≠ 0)
    let bars (k : Nat) : Nat := (c.lw.barw.filter (fun t => t.tok = k && !t.done)).length
    if safePoint c.lw b && c.lw.spHold && !open'.isEmpty && open'.all (fun k => bars k = mgetD c.lw.tokens k 0) then .bar c.lw.spMark
    else .none

/-- The wait of a warp: every fragment is BLOCKED in a barrier or NTF.WAIT, or at a JOIN; since the last of them began to wait or the
warp last issued, whichever came later (08 R231). -/
def parkWait (s : State) (g w : Nat) : ParkWait :=
  match getWarp s g w with
  | none => .none
  | some p =>
    if p.bank.isSome || p.washing then .none
    else if p.lw.isSome then lwParkWait s g w
    else
      let ok := p.frags.all (fun q => match q.2.state with
        | .blocked (.bar _ _) => true
        | .blocked (.notify _ _ _ _) => true
        | .joinWait _ => true
        | _ => false)
      let ntf := p.frags.filterMap (fun q => match q.2.state with
        | .blocked (.notify _ _ _ park) => some park
        | _ => none)
      let bars := p.frags.filterMap (fun q => match q.2.state with
        | .blocked (.bar _ _) => some q.2.since
        | _ => none)
      if !ok then .none
      else if !ntf.isEmpty then .notify (ntf.any id)
      else match bars with
        | [] => .none
        | c :: cs => .bar (cs.foldl max (max c p.issued))

/-- Does a workgroup meet the conditions of 08 R231, or with `ntf` those of 13 R318? -/
def mayPark (s : State) (ntf : Bool) (g : Nat) : Bool :=
  match getWg s g with
  | none => false
  | some x =>
    let ws := (liveWarps s g).map (parkWait s g)
    let t := parkTOf s x.rnum
    (match x.status with
     | .resident => true
     | _ => false) && !ws.isEmpty && !copyIntoWg s g &&
    (if ntf then
       ws.all (fun p => p ≠ .none) && ws.any (fun p => p = .notify true)
     else t ≠ 0 && ws.all (fun p => match p with
       | .bar since => since + t ≤ s.clock
       | _ => false))

/-- PARK_WORKGROUP: the Cooper parks a workgroup, a pair-placed one with its partner, by 08 R231 or 13 R318. -/
def execParkWorkgroup (g : Nat) (s : State) : Out :=
  let gs := wgSet s g
  if (gs.all (mayPark s false) || gs.all (mayPark s true)) && !gs.isEmpty && imageRoom s gs && gs.all (withdrawTurn s) then
    .next (gs.foldl (fun s h => stopWg s true h) s)
  else .next s

/-! ### The image (14 R344) -/

/-- A split-table entry (04 R92). -/
def fragEntry (pc rca mask age depth state : Nat) : Nat :=
  pc * 2 ^ 192 + rca * 2 ^ 128 + mask * 2 ^ 96 + age * 2 ^ 88 + depth * 2 ^ 83 + state * 2 ^ 80

/-- STATE of a fragment (04 R92). -/
def fragCode (f : FragState) : Nat :=
  match f with
  | .ready => 1
  | .blocked _ => 2
  | .joinWait _ => 3

/-- A loop-level entry (06 R159). -/
def loopEntry (v : Loop) : Nat :=
  v.start.toNat * 2 ^ 192 + v.trips * 2 ^ 160 + v.cur * 2 ^ 128 + v.len * 2 ^ 116 + v.stg * 2 ^ 114 + v.rotg * 2 ^ 111 +
    v.rrb * 2 ^ 106 + v.calld * 2 ^ 102 + 1

/-- The split-table area of a warp record: entry number and entry (14 R344, 06 R159). -/
def tableEntries (p : Warp) : List (Nat × Nat) :=
  match p.lw with
  | none => p.frags.map (fun q =>
      (q.1, fragEntry q.2.pc.toNat q.2.rca.toNat q.2.mask.toNat q.2.age q.2.depth (fragCode q.2.state)))
  | some l =>
    (List.range l.loops.length).zip (l.loops.reverse.map loopEntry) ++
      ((List.range l.calls.length).map (· + 4)).zip (l.calls.reverse.map (fun a => a.toNat * 2 ^ 192)) ++ [(12, statusEntry l)]

/-- The fields of a warp record and of the warp's vector area: offset in the image, size, value (14 R344). -/
def warpFields (w : Nat) (p : Warp) : List (Nat × Nat × Nat) :=
  let o := 0x1000 + 4096 * w
  (tableEntries p).map (fun e => (o + 32 * e.1, 32, e.2)) ++
  p.sregs.map (fun r => (o + 0x400 + 8 * r.1, 8, r.2.toNat)) ++
  p.mregs.map (fun r => (o + 0x640 + 4 * (r.1 - 1), 4, r.2.toNat)) ++
  [(o + 0x67C, 4, p.wmask.toNat),
   (o + 0x6A4, 4, (if p.sf then 1 else 0) + p.fpstat.toNat * 2 + (if p.bank.isSome then 64 else 0) + p.alloc * 2 ^ 7 +
     p.role * 2 ^ 15 + p.xlg * 2 ^ 23)] ++
  p.seeds.map (fun r => (o + 0x700 + 4 * r.1, 4, r.2.toNat)) ++
  ((List.range p.late.length).zip p.late).map (fun q => (o + 0x780 + 16 * q.1, 16, q.2.toNat)) ++
  (match p.bank with
   | none => []
   | some b =>
     b.sregs.map (fun r => (o + 0x600 + 8 * (r.1 - 56), 8, r.2.toNat)) ++
     [(o + 0x680, 32, fragEntry b.pc.toNat 0 0xFFFFFFFF 0 0 (if b.wait.isSome then 2 else 1)), (o + 0x6A0, 4, b.wmask.toNat)] ++
     b.vregs.map (fun r => (o + 0xC00 + 4 * r.1, 4, r.2.toNat))) ++
  (p.vregs.filter (fun r => r.1 < 32 * p.alloc)).map (fun r => (0x11000 + 30720 * w + 4 * r.1, 4, r.2.toNat))

/-- Words of the image whose layout the spec does not give: the header and the pending-spawn entries, as byte offsets of
8-byte words (log 4). -/
def openWords (v : Saved) : List Nat :=
  (List.range 512).map (fun i => 8 * i) ++
    (List.range v.spawns.length).flatMap (fun j => (List.range 256).map (fun i => 0x89000 + 2048 * j + 8 * i))

/-- Size of an image in bytes (14 R343). -/
def imageSize : Nat := 0x184000

/-- Copy bytes between stores, for a save or a restore. -/
def moveBytes (s : State) (src dst n : Nat) : State := { s with mem := copyRange s.mem src dst n }

/-- Write the image of a workgroup at a device physical address: every byte of its layout (14 R343, R344). -/
def writeImage (s : State) (g : Nat) (x : Wg) (v : Saved) (image : Nat) : State :=
  let k := hbmKey image
  let s := zeroRange (askRange s k imageSize) k imageSize
  let put (s : State) (f : Nat × Nat × Nat) : State := putNat s (k + f.1) f.2.1 f.2.2
  let ws := (liveWarps s g).filterMap (fun w => (getWarp s g w).map (fun p => (w, p)))
  let s := (ws.flatMap (fun q => warpFields q.1 q.2)).foldl put s
  let s := (v.tiles.flatMap (fun t => t.2.elems.map (fun e => (0x91000 + 49152 * t.1 + 12 * e.1, 12, e.2.toNat)))).foldl put s
  let s := (v.obs.map (fun o => (0xC1000 + 16 * o.1, 16, o.2.bits.toNat))).foldl put s
  let s := (v.xfile.map (fun e => (0x182000 + 4 * e.1, 4, e.2.val.toNat))).foldl put s
  let s := v.obs.foldl (fun s o => moveBytes s (obKey x.core (256 * obBase o.2.bits))
    (k + 0xC2000 + 256 * obBase o.2.bits) (256 * obUnits o.2.bits)) s
  let s := moveBytes s (padKey x.core (4096 * x.padBase)) (k + 0x102000) x.padSize
  (openWords v).foldl (fun s o =>
    let (f, s) := freshFree s
    putNat s (k + o) 8 f.toNat) s

/-! ### Saving (14 R343) -/

/-- Is a thread or warp of a stopping workgroup at a boundary where it may be saved: a long-word thread at a safe point
(06 R162), and no trap due first (14 R350)? -/
def atBoundary (s : State) (g w : Nat) : Bool :=
  match getWarp s g w with
  | none => true
  | some p =>
    if p.due.isSome then false
    else if p.bank.isSome then true
    else match p.lw with
      | none => !((pendingTrap p (fun _ => false)).isSome && p.frags.any (fun q => q.2.state = .ready))
      | some _ =>
        match lwCtxOf s ⟨g, w, 0⟩ with
        | none => false
        | some c => (lwPending s c (fun _ => false)).isNone && safePoint c.lw (decodeBundle (BitVec.ofNat 1024 (peekBundle s c)))

/-- Is a BLOCKED fragment first in the order of waiting of some queue (13 R306)? -/
def headsQueue (s : State) (g w : Nat) (x : Wg) (f : FragState) : Bool :=
  match f with
  | .blocked (.alloc k node _ _ _) => (getNode s x.rnum node).any (fun d => firstWaiter d g w k)
  | _ => false

/-- Entries of a warp that may be tried, with their AGE: the place of a trap that is due, the banked fragment, a long-word thread,
READY fragments, and those first in a queue's order of waiting. -/
def warpEntries (s : State) (g w : Nat) (x : Wg) (p : Warp) : List (Nat × Nat) :=
  match p.due with
  | some (_, a) => [(a.entry.getD 0, ((mget p.frags (a.entry.getD 0)).map (·.age)).getD 0)]
  | none =>
  match p.bank with
  | some b =>
    let e := b.entry.getD 0
    if b.wait.isNone then [(e, ((mget p.frags e).map (·.age)).getD 0)] else []
  | none =>
    match p.lw with
    | some l => if l.draining then [] else [(0, 0)]
    | none => (p.frags.filter (fun q => q.2.state = .ready || headsQueue s g w x q.2.state)).map (fun q => (q.1, q.2.age))

/-- How a fragment's standing at a boundary is noted: that of the handler apart from the user's. -/
def standKey (p : Warp) (w e : Nat) : Nat × Nat := (w, if p.bank.isSome then 32 + e else e)

/-- Has every fragment of a warp that could issue been found at a boundary whose next instruction meets no trap condition (14
R350)? A warp that a long-word thread holds, or whose registers are not clear, stands where it is. -/
def allStood (s : State) (g : Nat) (x : Wg) (w : Nat) : Bool :=
  match getWarp s g w with
  | none => true
  | some p => p.washing || (p.lw.isNone && lwOn s x.core p.lg) ||
      (warpEntries s g w x p).all (fun e => x.stood.contains (standKey p w e.1))

/-- The accesses of a workgroup that a save awaits, with what comes before them (14 R343 item 2). -/
def wgAccesses (s : State) (g : Nat) : List Access :=
  withEarlier s (fun a => match a with
    | .store e => e.g = g
    | .atom a => a.g = g)

/-- Do bank-lock spans of other workgroups' warps hold none of those accesses (08 R233), has a table room for each request once the
device's sources have acknowledged what they can (08 R224), and have their requests and its loads' to peers left (15 R362)? -/
def spansClear (s : State) (g : Nat) : Bool :=
  (wgAccesses s g).all (fun a => match a with
    | .store e => e.cells.all (fun c => !spanHolds s e.core (warpKey e.g e.w) c.1 1 && reqGone s e.id c.1)
    | .atom a => reqGone s a.id a.key && dedupRoom (ackUnit s a.unit) a.unit) && (s.loads.filter (fun l => l.g = g)).all (loadGone s)

/-- May a stopping workgroup be saved: its commands have completed, no copy into its allocation is in flight, every warp is at a
boundary with no trap due there, and no span holds its stores (10 R252, 11 R275, 14 R343, R350)? -/
def maySave (s : State) (g : Nat) : Bool :=
  match getWg s g with
  | none => false
  | some x =>
    x.stopped && !s.copies.any (fun c => c.g = g) && !s.anvs.any (fun a => a.g = g) && !copyIntoWg s g &&
      (liveWarps s g).all (fun w => atBoundary s g w && allStood s g x w && pendCount s g w = 0) && spansClear s g

/-- Every store, atomic and load of a workgroup is performed or lands, with its exchange results (14 R343 item 2, 06 R162, 11
R276). -/
def drainWg (s : State) (g : Nat) : State :=
  let s := performAcked s (wgAccesses s g)
  xland ((s.loads.filter (fun l => l.g = g)).foldl landLoad s) (fun x => x.g = g)

/-- The wait of a saved fragment: SLEEP is over (14 R343, R345). -/
def savedState (f : FragState) : FragState :=
  match f with
  | .blocked (.sleep _) => .ready
  | f => f

/-- A warp as it is saved. -/
def savedWarp (p : Warp) : Warp :=
  let p := landFlights p
  { p with
    frags := p.frags.map (fun q => (q.1, { beforeWait q.2 with state := savedState (beforeWait q.2).state, asked := false }))
    bank := p.bank.map (fun b => { b.beforeWait with wait := match b.beforeWait.wait with
      | some (.sleep _) => none
      | w => w })
    vregs := if p.washing then p.vals else p.vregs
    vals := if p.washing then [] else p.vals
    washing := false }

/-- Bring the warps of a workgroup to their saved form: the waits of its accesses end (14 R343). -/
def settleWarps (s : State) (g : Nat) : State :=
  let s := drainWg s g
  let s := { s with
    walks := s.walks.filter (fun k => !(k.who < 2 ^ 64 && k.who / 16 = g))
    lampq := s.lampq.filter (fun q => !queueOf g q) }
  (liveWarps s g).foldl (fun s w => modWarp s g w savedWarp) s

/-- Poisoned 32-byte granules of n bytes from a key on, numbered from there. -/
def poisonIn (s : State) (k n : Nat) : List Nat :=
  (s.poison.filter (fun gr => gr < 2 ^ 200 && k ≤ 32 * gr && 32 * gr < k + n)).map (fun gr => gr - k / 32)

/-- What a save of a workgroup takes off its core; the pair's flags and file go with `pairHome` (14 R344). -/
def savedParts (s : State) (g : Nat) (x : Wg) (pairHome : Bool) : Saved :=
  let c := getCore s x.core
  let q := getPair s (pairOf x.core)
  let obs := c.obs.filter (fun o => o.2.owner = g)
  { tiles := c.tiles.filter (fun t => t.2.owner = g)
    obs := obs
    spawns := c.spawns.filter (fun p => p.g = g)
    flags := if pairHome && x.pairPlaced then q.flags else []
    xfile := if pairHome && x.bound then q.xfile else []
    padPoison := poisonIn s (padKey x.core (4096 * x.padBase)) x.padSize
    obPoison := obs.flatMap (fun o => (poisonIn s (obKey x.core (256 * obBase o.2.bits)) (256 * obUnits o.2.bits)).map
      (fun i => i + 8 * obBase o.2.bits)) }

/-- Does a warp of a workgroup stand at trap level 1? -/
def atTrap (s : State) (g : Nat) : Bool := (liveWarps s g).any (fun w => (getWarp s g w).any (fun p => p.bank.isSome))

/-- Release what a workgroup that leaves its core holds there, its image standing at an address (14 R322, R343 item 4, 11 R275, R279).
Its trap block is released by R322, where no warp of it is at trap level 1, beside R343's list of what stays held: DEDUCED, log 68. -/
def leaveCore (s : State) (g : Nat) (x : Wg) (park : Bool) (image : Nat) (v : Option Saved) : State :=
  let s := modCore s x.core (fun c =>
    { c with tiles := c.tiles.filter (fun t => t.2.owner ≠ g), obs := c.obs.filter (fun o => o.2.owner ≠ g)
             spawns := c.spawns.filter (fun p => p.g ≠ g), spans := c.spans.filter (fun p => p.warp / 16 ≠ g) })
  let s := (List.range 4).foldl (fun s lg => modLg s x.core lg (fun l => { l with wash := l.wash.filter (fun h => h.1 / 16 ≠ g) })) s
  let s := if x.pairPlaced then
      modPair s (pairOf x.core) (fun q => { q with holder := none, bound := false, xfile := [], flags := [] })
    else s
  setWg s g { x with status := .saved park image (if park then none else some s.clock)
                     trapBlock := if atTrap s g then x.trapBlock else none
                     saved := v, latch := none, stood := [] }

/-- The device physical address of the image that a stopping workgroup goes to. -/
def imageAddr (s : State) (x : Wg) : Nat :=
  match x.ckptBlock, x.imageBlock with
  | some j, _ => s.ckpt.img.toNat / 2 ^ 21 * 2 ^ 21 + 2 ^ 21 * j
  | none, some j => ctxBits s x.asid 256 64 + 2 ^ 21 * j
  | none, none => ctxBits s x.asid 256 64

/-- Save one workgroup of a set: its warps are settled already (14 R343 items 3 and 4). -/
def saveWg (s : State) (first : Nat) (g : Nat) : State :=
  match getWg s g with
  | none => s
  | some x =>
    let v := savedParts s g x (first = g)
    let image := imageAddr s x
    let park := match x.status with
      | .stopping p => p
      | _ => false
    queueParked (leaveCore (writeImage (releaseLic s g) g x v image) g x park image (some v)) g

/-- The floor workgroup of a set first. -/
def floorFirst (s : State) (gs : List Nat) : List Nat := sortBy (sideOfWg s) gs

/-- Save a set of workgroups that have all stopped. -/
def saveSet (s : State) (gs : List Nat) : State :=
  let gs := floorFirst s gs
  let s := gs.foldl settleWarps s
  wakeAll (gs.foldl (fun s g => saveWg s (gs.headD 0) g) s)

/-- PREEMPT_SAVE: a stopping workgroup, a pair-placed one with its partner, is saved (14 R343). An image block beyond device
memory does not exist. -/
def execPreemptSave (g : Nat) (s : State) : Out :=
  let gs := wgSet s g
  if gs.isEmpty || !gs.all (maySave s) then .next s
  else if gs.any (fun h => (getWg s h).any (fun x => Config.hbmBytes < imageAddr s x + imageSize)) then .fault .physicalHole
  else .next (saveSet s gs)

/-! ### Restoring (14 R345) -/

/-- Mark 32-byte granules of a store poisoned, numbered from a key on. -/
def poisonOut (s : State) (k : Nat) (grs : List Nat) : State :=
  { s with poison := nub (s.poison ++ grs.map (fun i => k / 32 + i)) }

/-- Give the warps of one class their lane group and free slots; their granules are not cleared (14 R345, 04 R90). -/
def placeClass (s : State) (g core old new : Nat) : State :=
  (liveWarps s g).foldl (fun s w =>
    match getWarp s g w with
    | some p =>
      if p.lg = old + 4 then
        let (slot, s) := pickFree (freeWarpSlots s core new) 0 s
        setWarp s g w { p with lg := new, slot := slot }
      else s
    | none => s) s

/-- A map from listed keys to the values that a function gives them. -/
def mapOf {α : Type} [DecidableEq α] (ks : List Nat) (f : Nat → α) (d : α) : SMap α := ks.foldl (fun m k => mput m k (f k) d) []

/-- Keys of n registers of 32 lanes. -/
def laneKeys (n : Nat) : List Nat := List.range (32 * n)

/-- STATE read back (04 R92); what a fragment waits for, and the register of a JOIN, which no entry shows, come from the device. -/
def stateFrom (code : Nat) (old : Option FragState) : FragState :=
  match code, old with
  | 2, some (.blocked w) => .blocked w
  | 3, some (.joinWait a) => .joinWait a
  | 3, _ => .joinWait 0
  | _, _ => .ready

/-- A fragment read back from its split-table entry, none where the entry is FREE (04 R92). -/
def fragFrom (v : Nat) (old : Option Frag) : Option Frag :=
  if bits v 80 3 = 0 then none
  else some { pc := BitVec.ofNat 64 (bits v 192 64), rca := BitVec.ofNat 64 (bits v 128 64), mask := BitVec.ofNat 32 (bits v 96 32)
              age := bits v 88 8, depth := bits v 83 5, state := stateFrom (bits v 80 3) (old.map (·.state))
              since := (old.map (·.since)).getD 0, asked := false }

/-- A split table read back, entry by entry. -/
def tableFrom (entry : Nat → Nat) (fs : SMap Frag) : SMap Frag :=
  (List.range 32).filterMap (fun e => (fragFrom (entry e) (mget fs e)).map (fun fr => (e, fr)))

/-- A loop level read back from its entry (06 R159). -/
def loopFrom (v : Nat) : Loop :=
  ⟨BitVec.ofNat 64 (bits v 192 64), bits v 160 32, bits v 128 32, bits v 116 12, bits v 114 2, bits v 111 3, bits v 106 5, bits v 102 4⟩

/-- A long-word thread read back from the entries of 06 R159: loops, calls and token counts. -/
def lwFrom (entry : Nat → Nat) (l : Lw) : Lw :=
  let st := entry 12
  { l with
    loops := ((List.range (bits st 185 3)).map (fun i => loopFrom (entry i))).reverse
    calls := ((List.range (bits st 188 4)).map (fun i => BitVec.ofNat 64 (bits (entry (4 + i)) 192 64))).reverse
    tokens := mapOf (List.range 8) (fun k => bits st (192 + 8 * k) 8) 0 }

/-- A late fault read back from its entry (14 R332); its space and its token, which no entry shows, come from the device. -/
def lateFrom (v : Nat) (old : Option Late) : Late :=
  { addr := BitVec.ofNat 64 (bits v 0 64), lanes := BitVec.ofNat 32 (bits v 64 32), dst := bits v 96 8, width := bits v 104 2
    cause := bits v 112 8, sub := bits v 120 8, space := (old.map (·.space)).getD 0, token := old.bind (·.token) }

/-- The late-fault list read back: the entries before the first unused one (14 R332). -/
def latesFrom (entry : Nat → Nat) (ls : List Late) : List Late :=
  ((List.range 16).takeWhile (fun i => entry i ≠ 0)).map (fun i => lateFrom (entry i) ls[i]?)

/-- The banked state read back (14 R344): PC, STATE and WMASK, s56 to s63, v232 to v239; the trapped fragment's entry and what the
handler waits for, which the layout does not show, come from the device. -/
def bankFrom (rd : Nat → Nat → Nat) (b : Bank) : Bank :=
  { b with
    pc := BitVec.ofNat 64 (bits (rd 0x680 32) 192 64)
    wait := if bits (rd 0x680 32) 80 3 = 2 then b.wait else none
    wmask := BitVec.ofNat 32 (rd 0x6A0 4)
    sregs := mapOf ((List.range 8).map (· + 56)) (fun j => BitVec.ofNat 64 (rd (0x600 + 8 * (j - 56)) 8)) 0
    vregs := mapOf (laneKeys 8) (fun k => BitVec.ofNat 32 (rd (0xC00 + 4 * k) 4)) 0 }

/-- Warp w read back from the image whose bytes `rd` gives, by offset and size (14 R344, R345 item 2): its record and its vector
registers. What a fragment waits for and a thread's PC, which the layout does not show, come from the device. -/
def warpFrom (rd : Nat → Nat → Nat) (w : Nat) (p : Warp) : Warp :=
  let o := 0x1000 + 4096 * w
  let rec' (off n : Nat) : Nat := rd (o + off) n
  let st := rec' 0x6A4 4
  let alloc := bits st 7 8
  let frags := if p.lw.isSome then p.frags else tableFrom (fun e => rec' (32 * e) 32) p.frags
  { p with
    frags := frags
    lw := p.lw.map (lwFrom (fun i => rec' (32 * i) 32))
    sregs := mapOf ((List.range 63).map (· + 1)) (fun j => BitVec.ofNat 64 (rec' (0x400 + 8 * j) 8)) 0
    mregs := mapOf ((List.range 15).map (· + 1)) (fun j => BitVec.ofNat 32 (rec' (0x640 + 4 * (j - 1)) 4)) 0
    wmask := BitVec.ofNat 32 (rec' 0x67C 4)
    sf := bits st 0 1 = 1
    fpstat := BitVec.ofNat 5 (bits st 1 5)
    alloc := alloc
    role := bits st 15 8
    xlg := bits st 23 2
    seeds := mapOf (List.range 32) (fun i => BitVec.ofNat 32 (rec' (0x700 + 4 * i) 4)) 0
    late := latesFrom (fun i => rec' (0x780 + 16 * i) 16) p.late
    bank := if bits st 6 1 = 1 then
        some (bankFrom rec' (p.bank.getD ⟨0, 0, [], [], if p.lw.isSome then none else frags.head?.map (·.1), none⟩))
      else none
    vregs := mapOf (laneKeys alloc) (fun k => BitVec.ofNat 32 (rd (0x11000 + 30720 * w + 4 * k) 4)) 0 }

/-- Tile n read back (14 R344): its elements; owner, kind and status from the header. -/
def tileFrom (rd : Nat → Nat → Nat) (n : Nat) (t : Tile) : Tile :=
  { t with elems := mapOf (List.range 4096) (fun e => BitVec.ofNat 96 (rd (0x91000 + 49152 * n + 12 * e) 12)) 0 }

/-- A range record read back (14 R344, 11 R255). -/
def obFrom (rd : Nat → Nat → Nat) (n : Nat) (o : ObRec) : ObRec := { o with bits := BitVec.ofNat 128 (rd (0xC1000 + 16 * n) 16) }

/-- The exchange file read back (14 R344). -/
def xfileFrom (rd : Nat → Nat → Nat) : SMap XReg :=
  mapOf (List.range 2048) (fun k => { XReg.zero with val := BitVec.ofNat 32 (rd (0x182000 + 4 * k) 4) }) XReg.zero

/-- What a save took off the core, as its image gives it back (14 R344, R345 item 2). -/
def partsFrom (rd : Nat → Nat → Nat) (v : Saved) : Saved :=
  { v with tiles := v.tiles.map (fun t => (t.1, tileFrom rd t.1 t.2)), obs := v.obs.map (fun o => (o.1, obFrom rd o.1 o.2))
           xfile := if v.xfile.isEmpty then [] else xfileFrom rd }

/-- Bring a saved workgroup back to its core: granules and slots, scratchpad, anvil, pending children, all from its image (14 R345,
07 R189, 11 R275). The warps' old lane groups are marked by adding 4 while they are placed. -/
def restoreWg (s : State) (g : Nat) (x : Wg) (image : Nat) (side : Side) : State :=
  let rd (off n : Nat) : Nat := pocNat s (hbmKey image + off) n
  let v : Saved := partsFrom rd (x.saved.getD ⟨[], [], [], [], [], [], []⟩)
  let classes := lgClasses s g x
  let (base, s) := pickFree side.runs 0 s
  let tb := match x.trapBlock with
    | some k => some k
    | none => (freeTrapBlocks s x.asid 1).head?
  let pools := (classes.zip side.lgs).foldl (fun m q => mput m q.2 (mgetD x.pools q.1 0) 0) []
  let y : Wg := { x with status := .restoring, padBase := base, trapBlock := tb, imageBlock := none, ckptBlock := none
                         saved := none, pools := pools }
  let s := (liveWarps s g).foldl (fun s w => modWarp s g w (fun p => { warpFrom rd w p with lg := p.lg + 4 })) s
  let s := setWg s g y
  let s := (classes.zip side.lgs).foldl (fun s q => placeClass s g x.core q.1 q.2) s
  let k := hbmKey image
  let s := (padUnits y).foldl grantUnit (askRange s k imageSize)
  let s := poisonOut (moveBytes s (k + 0x102000) (padKey x.core (4096 * base)) x.padSize) (padKey x.core (4096 * base)) v.padPoison
  let s := v.obs.foldl (fun s o => moveBytes s (k + 0xC2000 + 256 * obBase o.2.bits)
    (obKey x.core (256 * obBase o.2.bits)) (256 * obUnits o.2.bits)) s
  let s := poisonOut s (obKey x.core 0) v.obPoison
  let s := modCore s x.core (fun c =>
    { c with tiles := v.tiles.foldl (fun m t => mset m t.1 t.2) c.tiles, obs := v.obs.foldl (fun m o => mset m o.1 o.2) c.obs
             spawns := c.spawns ++ v.spawns })
  -- the phase is reapplied: a protected unit that is DIM wakes
  let s := (protects s y).foldl (fun s u => if lampOf s u = .dim then touch s u else s) s
  if x.pairPlaced && !(v.flags.isEmpty && v.xfile.isEmpty) then
    modPair s (pairOf x.core) (fun q => { q with flags := v.flags, xfile := v.xfile })
  else s

/-- The twin flags, and the file of a bound pair, are taken again (11 R279). -/
def takeFlags (s : State) (g : Nat) (x : Wg) : State :=
  if x.pairPlaced then
    let h := x.partner.getD g
    let pair := if sideOf x.core = 0 then (g, h) else (h, g)
    modPair s (pairOf x.core) (fun q => { q with holder := some pair, bound := x.bound })
  else s

/-- Begin the restore of a workgroup and its partner on a plan (14 R345 items 1 to 3). -/
def beginRestore (s : State) (g : Nat) (sides : List Side) : State :=
  let xs := (restoreSet s g).filterMap (fun h => (getWg s h).map (fun x => (h, x)))
  let s := (xs.zip sides).foldl (fun s q => restoreWg (takeFlags s q.1.1 q.1.2) q.1.1 q.1.2 ((imageOf q.1.2).getD 0) q.2) s
  { s with gated := s.gated.filter (fun c => !sides.any (fun d => clusterOf d.core = c)) }

/-- Are the wakes of a restore over: every granule has left WAKING, and what the phase protects is LIT (07 R189)? -/
def restoreAwake (s : State) (x : Wg) : Bool :=
  (padUnits x).all (fun u => match lampOf s u with
    | .waking _ _ => false
    | _ => true) && (protects s x).all (isLit s)

/-- Let the warps of a restored set issue (14 R345 item 4). -/
def finishRestore (s : State) (gs : List Nat) : State :=
  wakeAll (gs.foldl (fun s h => modWg s h (fun x => { x with status := .resident })) s)

end Sys2Proof.Machine
end

