-- ==== Sys2Proof/Machine/Cooper.lean ====
section
/-!
DEFINITION. The Coopers' events (13 R299 to R307): BATCH_TIMER_EXPIRY, WORKGROUP_PLACE, PREEMPT_VICTIMS, WORKGROUP_RESTORE,
CLUSTER_POWER_GATE, and the doorbells.
-/

namespace Sys2Proof.Machine

/-- BATCH_TIMER_EXPIRY: the earliest-committed record of a node has waited out the partial-batch timer (13 R299). -/
def execBatchTimerExpiry (rnum node : Nat) (s : State) : Out :=
  .next (modRegion s rnum (fun r =>
    if r.barred then r else { r with nodes := mmod r.nodes node (fun n => formNode n s.clock true) }))

/-! ### Candidates (13 R302) -/

/-- A candidate of a Cooper: since when it has been pending, its region, and its rank. -/
structure Ranked where
  cand : Candidate
  rnum : Nat
  since : Nat
  rank : List Nat
  deriving DecidableEq, Repr

/-- Commit order of the earliest-committed record that a node has waiting. -/
def oldestOrder (n : Node) : Nat := ((n.recs.filter (fun r => r.state = .waiting)).map (·.order)).foldl min (2 ^ 64)

/-- Pending launches that a stack's Cooper serves; a batch that the timer forms may be placed in the next cycle (13 R306). -/
def launchCands (s : State) (stack : Nat) : List Ranked :=
  s.regions.flatMap (fun p =>
    if p.2.barred || !(stkOf s p.1).testBit stack then []
    else p.2.nodes.filterMap (fun q => if timedNow q.2 s.clock then none else q.2.pending.map (fun l =>
      ⟨.launch p.1 q.1, p.1, l.since, [255 - prioOf s p.1, 1, p.2.served, p.1, oldestOrder q.2, q.1]⟩)))

/-- Since when a saved workgroup has been queued for restore. -/
def queuedSince (x : Wg) : Option Nat :=
  match x.status with
  | .saved _ _ q => q
  | _ => none

/-- Is a workgroup saved? -/
def Wg.isSaved (x : Wg) : Bool :=
  match x.status with
  | .saved _ _ _ => true
  | _ => false

/-- Restores of a stack: a pair is one candidate, named by its floor workgroup, queued as soon as either side is. -/
def restoreCands (s : State) (stack : Nat) : List Ranked :=
  s.wgs.filterMap (fun p =>
    let gs := restoreSet s p.1
    let xs := gs.filterMap (getWg s)
    let qs := xs.filterMap queuedSince
    match qs with
    | [] => none
    | q :: _ =>
      if stackOf p.2.core = stack && xs.all Wg.isSaved && (floorFirst s gs).headD p.1 = p.1 then
        some ⟨.restore p.1, p.2.rnum, qs.foldl min q, [255 - prioOf s p.2.rnum, 0, 0, p.2.rnum,
          ((getNode s p.2.rnum p.2.node).map oldestOrder).getD (2 ^ 64), p.2.node, p.1]⟩
      else none)

/-- The candidates of a Cooper, in the order of 13 R302. -/
def candidates (s : State) (stack : Nat) : List Ranked :=
  let cs := launchCands s stack ++ restoreCands s stack
  (List.range cs.length).filterMap (fun i => cs[i]?.map (fun c => ((cs.filter (fun d => lexLt d.rank c.rank)).length, c)))
    |> sortBy (·.1) |>.map (·.2)

/-- Where a candidate may be placed on a stack (13 R300). -/
def findPlace (s : State) (stack : Nat) (c : Candidate) : Option (List Side) :=
  match c with
  | .launch rnum node => findLaunch s rnum node stack
  | .restore g => planRestore s g

/-- The first candidate of a Cooper that can be placed, with its place (13 R302). -/
def firstPlaceable (s : State) (stack : Nat) : Option (Candidate × List Side) :=
  (candidates s stack).findSome? (fun c => (findPlace s stack c.cand).map (fun p => (c.cand, p)))

/-! ### Launch (13 R301) -/

/-- Start the warps of a workgroup on their lane groups, in ascending WARPID (13 R300, R301, 04 R91). -/
def startWarps (s : State) (g core : Nat) (b : BitVec 1024) (s1 s2 s3 : Nat) (lgs : List Nat) : State :=
  ((List.range lgs.length).zip lgs).foldl (fun s q =>
    let (slot, s) := pickFree (freeWarpSlots s core q.2) 0 s
    let x := newWarp q.1 q.2 slot (8 * nd b 332 5) (nd b (384 + 8 * q.1) 8) (BitVec.ofNat 64 (nd b 0 64))
    let x := ((x.setSreg 1 (BitVec.ofNat 64 s1)).setSreg 2 (BitVec.ofNat 64 s2)).setSreg 3 (BitVec.ofNat 64 s3)
    startWarp s g q.1 core q.2 x) s

/-- One side of a launch: the workgroup g of a launch on its core (13 R301), whose caches it finds empty of what the records' acquire
and the launch discard (07 R175, 08 R216). -/
def launchSide (s : State) (rnum node : Nat) (d : Node) (l : Launch) (g : Nat) (partner : Option Nat) (side : Side) : State :=
  let b := d.bits
  let (base, s) := pickFree side.runs 0 s
  let pair := nd b 346 2
  let x : Wg := {
    core := side.core, rnum := rnum, node := node, asid := asidOf s rnum
    wgid := (if l.range then l.index else d.launches) % 2 ^ 32
    depth := l.depth, batch := l.recs, launch := s.clock, status := .resident
    padBase := base, padSize := 4096 * nodePad b, wrapped := nd b 345 1 = 1, phase := 0, nearMask := 0
    tlc := Timeline.zero, tla := Timeline.zero, bars := [], gang := 1, latch := none, copyFault := none, anvFault := none
    resv := [], pools := [], trapBlock := (freeTrapBlocks s (asidOf s rnum) 1).head?, imageBlock := none, ckptBlock := none
    stood := [], saved := none, partner := partner, pairPlaced := pair ≠ 0, bound := pair = 2, xconf := false }
  let s := (padUnits x).foldl grantUnit (dropK (acquire (setWg s g x) side.core) side.core)
  startWarps s g side.core b (l.recs.headD 0) l.recs.length (if l.range then l.count else 0) side.lgs

/-- Launch what a node has pending (13 R301, 11 R277, R279, R280). The region moves to the back of the one round-robin order, which both
Coopers share and which restores leave as it is: DESIGN CHOICE, log 70. -/
def launchNode (s : State) (rnum node : Nat) (sides : List Side) : State :=
  match getNode s rnum node with
  | none => s
  | some d =>
    match d.pending with
    | none => s
    | some l =>
      let g := s.nextId
      let s := { s with nextId := s.nextId + 2 }
      let s := match sides with
        | [a] => launchSide s rnum node d l g none a
        | [a, b] =>
          let s := launchSide (launchSide s rnum node d l g (some (g + 1)) a) rnum node d l (g + 1) (some g) b
          modPair s (pairOf a.core) (fun q =>
            { q with holder := some (g, g + 1), bound := nd d.bits 346 2 = 2, flags := [], xfile := [] })
        | _ => s
      let s := modNode s rnum node (fun n => { takeRecs n l with launches := if l.range then n.launches else n.launches + 1 })
      let s := modRegion { s with nextId := s.nextId + 1 } rnum (fun r => { r with served := s.nextId })
      { s with gated := s.gated.filter (fun c => !sides.any (fun d => clusterOf d.core = c)) }

/-- May a Cooper place now: 8 cycles after its last placement, and not during a checkpoint (13 R300, 16 R381)? -/
def mayPlace (s : State) (stack : Nat) : Bool :=
  !s.ckpt.stopped && (match mget s.placed stack with
    | some c => c + Config.placeInterval ≤ s.clock + 1
    | none => true)

/-- Place a candidate of a Cooper (13 R300 to R302, 14 R345). -/
def place (s : State) (stack : Nat) (c : Candidate) (sides : List Side) : State :=
  let s := { s with placed := mset s.placed stack (s.clock + 1) }
  match c with
  | .launch rnum node => launchNode s rnum node sides
  | .restore g => beginRestore s g sides

/-- What a Cooper places in this cycle, if anything: of a launch that both find a core for in one cycle the West Cooper disposes, which
goes first (13 R302). -/
def placesNow (s : State) (stack : Nat) : Option (Candidate × List Side) :=
  if !mayPlace s stack || !inOrder s clsCooper stack then none
  else if stack = 0 then firstPlaceable s 0
  else
    let west := if mayPlace s 0 then (firstPlaceable s 0).map (·.1) else none
    (candidates s stack).findSome? (fun c =>
      if some c.cand = west then none else (findPlace s stack c.cand).map (fun p => (c.cand, p)))

/-- A Cooper places a candidate, and has had its turn in this cycle. -/
def placeNow (s : State) (stack : Nat) (c : Candidate) (sides : List Side) : State :=
  takePlace (place s stack c sides) clsCooper stack

/-- WORKGROUP_PLACE: a Cooper places the first of its candidates that can be placed (13 R302). -/
def execWorkgroupPlace (stack : Nat) (s : State) : Out :=
  match placesNow s stack with
  | some (c, sides) => .next (placeNow s stack c sides)
  | none => .next s

/-- WORKGROUP_RESTORE: a saved workgroup that comes first among its Cooper's candidates begins its restore; one whose
restore's wakes are over may issue (14 R345). -/
def execWorkgroupRestore (stack g : Nat) (s : State) : Out :=
  match getWg s g with
  | none => .next s
  | some x =>
    match x.status with
    | .restoring =>
      let gs := restoreSet s g
      if gs.all (fun h => (getWg s h).any (restoreAwake s)) then .next (finishRestore s gs) else .next s
    | _ =>
      match placesNow s stack with
      | some (.restore h, sides) => .next (if h = g then placeNow s stack (.restore h) sides else s)
      | _ => .next s

/-! ### Victims (13 R303, R304) -/

/-- Is a workgroup BLOCKED in REC.ALLOC.w: one fragment of one of its warps is (DESIGN CHOICE, log 65)? -/
def allocBlocked (s : State) (g : Nat) : Bool :=
  (liveWarps s g).any (fun w => (getWarp s g w).any (fun p => p.frags.any (fun q => match q.2.state with
    | .blocked (.alloc _ _ _ _ _) => true
    | _ => false)))

/-- The machine as it would be with a set of workgroups gone from their cores (13 R303 item 3). -/
def departed (s : State) (gs : List Nat) : State :=
  gs.foldl (fun s g => match getWg s g with
    | some x => (padUnits x).foldl (fun s u => setLamp s u .dark) (leaveCore s g x false 0 none)
    | none => s) s

/-- Workgroups on their way off a core already. -/
def leaving (s : State) : List Nat :=
  (s.wgs.filter (fun p => match p.2.status with
    | .stopping _ => true
    | _ => false)).map (·.1)

/-- Where a candidate might go on a stack, and the cores that concerns (13 R303 item 3). -/
def sites (s : State) (stack : Nat) (c : Candidate) : List (Nat × List Nat) :=
  match c with
  | .launch rnum node =>
    if (getNode s rnum node).any (fun d => nd d.bits 346 2 ≠ 0) then
      ((coresOf stack).filter (fun k => sideOf k = 0)).map (fun k => (k, [k, twinOf k]))
    else (coresOf stack).map (fun k => (k, [k]))
  | .restore g =>
    match getWg s g with
    | some x => [(x.core, ((restoreSet s g).filterMap (getWg s)).map (·.core))]
    | none => []

/-- Can a candidate be placed at a site? -/
def placeable (s : State) (c : Candidate) (site : Nat) : Bool :=
  match c with
  | .launch rnum node => (planLaunch s rnum node site).isSome
  | .restore g => (planRestore s g).isSome

/-- A possible victim: its workgroups, and its rank among victims (13 R303 items 1 and 2, R304). -/
structure Victim where
  gs : List Nat
  prio : Nat
  rank : List Nat
  deriving DecidableEq, Repr

/-- The victims considered on some cores, in victim order; a pair is one entry, on the cores of both its sides. -/
def victimsOn (s : State) (c : Candidate) (prio : Nat) (cores : List Nat) : List Victim :=
  let reserve := match c with
    | .launch rnum node => isReserve s rnum node
    | .restore _ => false
  let vs := s.wgs.filterMap (fun p =>
    let gs := floorFirst s (restoreSet s p.1)
    let v := prioOf s p.2.rnum
    let blocked := reserve && gs.any (allocBlocked s) && v ≤ prio
    let resident := gs.all (fun h => (getWg s h).any (fun x => match x.status with
      | .resident => true
      | _ => false))
    let here := gs.any (fun h => (getWg s h).any (fun x => cores.contains x.core))
    if gs.headD p.1 = p.1 && resident && here && (v < prio || blocked) && imageRoom s gs then
      some (⟨gs, v, [if blocked then 0 else 1, v, 2 ^ 64 - p.2.launch, 480 - p.2.core, p.1]⟩ : Victim)
    else none)
  (vs.map (fun v => ((vs.filter (fun u => lexLt u.rank v.rank)).length, v)) |> sortBy (·.1)).map (·.2)

/-- Take victims in order until the candidate can be placed at the site (13 R303 item 3). -/
def takeVictims (s : State) (c : Candidate) (site : Nat) : List Victim → List Victim → Option (List Victim)
  | [], _ => none
  | v :: rest, taken =>
    let vs := taken ++ [v]
    let gs := vs.flatMap (·.gs)
    if !imageRoom s gs then takeVictims s c site rest taken
    else if placeable (departed s (gs ++ leaving s)) c site then some vs
    else takeVictims s c site rest vs

/-- The set of victims chosen for a candidate (13 R303 item 4). -/
def chooseVictims (s : State) (stack : Nat) (c : Candidate) (prio : Nat) : Option (List Victim) :=
  let sets := (sites s stack c).filterMap (fun k => (takeVictims s c k.1 (victimsOn s c prio k.2) []).map (fun vs => (k.1, vs)))
  (leastBy (fun q => [q.2.foldl (fun m v => max m v.prio) 0, (q.2.flatMap (·.gs)).length, 480 - q.1]) lexLt sets).map (·.2)

/-- The count of PREDLY of a candidate starts again (13 R303). -/
def restartDelay (s : State) (c : Candidate) : State :=
  match c with
  | .launch rnum node => modNode s rnum node (fun n => { n with pending := n.pending.map (fun l => { l with since := s.clock }) })
  | .restore g => (restoreSet s g).foldl (fun s h => modWg s h (fun x => match x.status with
    | .saved p a (some _) => { x with status := .saved p a (some s.clock) }
    | _ => x)) s

/-- PREEMPT_VICTIMS: a candidate that has been pending for PREDLY without being placed makes its Cooper choose victims,
unless workgroups that are leaving already make room for it (13 R303, R304). The count of PREDLY starts again also where it has
chosen: DESIGN CHOICE, log 65. -/
def execPreemptVictims (stack : Nat) (cand : Candidate) (s : State) : Out :=
  match (candidates s stack).find? (fun c => c.cand = cand) with
  | none => .next s
  | some c =>
    if s.clock < c.since + preDlyOf s c.rnum || (findPlace s stack cand).isSome then .next s
    else
      let s' := departed s (leaving s)
      if (sites s stack cand).any (fun k => placeable s' cand k.1) then .next s
      else match chooseVictims s stack cand (prioOf s c.rnum) with
        | none => .next (restartDelay s cand)
        | some vs => if !(vs.flatMap (·.gs)).all (withdrawTurn s) then .next s else .next (restartDelay ((vs.flatMap (·.gs)).foldl (fun s g => stopWg s false g) s) cand)

/-- CLUSTER_POWER_GATE: an idle cluster is gated; a placement ends that (13 R306). How long a cluster is idle first is open, so the
order of turns decides it: DESIGN CHOICE, log 65. -/
def execClusterPowerGate (cluster : Nat) (s : State) : Out :=
  if s.wgs.any (fun p => p.2.onCore && clusterOf p.2.core = cluster) || s.gated.contains cluster then .next s
  else .next { s with gated := s.gated ++ [cluster] }

/-! ### Doorbells (13 R307, 15 R357) -/

/-- Page number of a requester's doorbell. -/
def bellOf (who : Requester) : Nat :=
  match who with
  | .pf => 0
  | .tdi t => t
  | .hart h => 17 + h

/-- The doorbell page of a requester. -/
def getBell (s : State) (who : Requester) : Bell := mgetD s.bells (bellOf who) ⟨0, 0⟩

/-- SRC of a requester's records (13 R294, 15 R367). -/
def srcOf (who : Requester) : Nat :=
  match who with
  | .hart h => 0x0401 + h
  | _ => 0x0400

/-- A doorbell is discarded: counted, and the PF's vector 2 fires (13 R307, 15 R357, 16 R389). -/
def discardBell (s : State) (who : Requester) : State :=
  let b := getBell s who
  let s := { s with bells := mset s.bells (bellOf who) { b with drops := (b.drops + 1) % 65536 }
                    obs := { s.obs with dbdrop := s.obs.dbdrop + 1 } }
  fireMsix s 2

/-- The runs of a TDI's assigned memory: base address and bytes, unused ones left out (15 R359). -/
def tdiRuns (d : Tdi) : List (Nat × Nat) :=
  ((List.range 16).map (fun i => (tdiField d (0x40 + 8 * i) 0 18 * 2 ^ 21, tdiField d (0x40 + 8 * i) 32 18 * 2 ^ 21))).filter
    (fun r => 0 < r.2)

/-- The device physical address of a TDI's BAR2 offset, run by run (15 R354). -/
def tdiAddr (rs : List (Nat × Nat)) (off : Nat) : Option Nat :=
  match rs with
  | [] => none
  | r :: rest => if off < r.2 then some (r.1 + off) else tdiAddr rest (off - r.2)

/-- The device physical address of a requester's staging or BAR2 offset; none beyond its memory, of a TDI beyond the 64 GiB of its
BAR or beyond device memory (15 R354, R357). -/
def stagingAddr (s : State) (who : Requester) (off : Nat) : Option Nat :=
  match who with
  | .tdi t => if off < 2 ^ 36 then (tdiAddr (tdiRuns (getTdi s t)) off).filter (fun a => a < Config.hbmBytes) else none
  | _ => if off < Config.hbmBytes then some off else none

/-- May a requester name a region: for a TDI, one whose ASID is bound to it (15 R357)? -/
def mayName (s : State) (who : Requester) (rnum : Nat) : Bool :=
  match who with
  | .tdi t => (tdiAsids (getTdi s t)).contains (asidOf s rnum)
  | _ => true

/-- A doorbell joins the pending ones in the order of arrival; those of one cycle stand in the order of their requesters (15 R372). -/
def joinRing (q : Ring) : List Ring → List Ring
  | [] => [q]
  | r :: rest => if r.came = q.came && bellOf q.who < bellOf r.who then q :: r :: rest else r :: joinRing q rest

/-- A write to DBTRIG (13 R307, 15 R357, R372, 16 R383): where it makes one doorbell too many, the last in order is discarded. One
whose staged records lie beyond device memory is discarded and counted, of the PF or a hart too: DESIGN CHOICE, log 65. -/
def ringBell (who : Requester) (word : Word64) (s : State) : State :=
  let rnum := bits word.toNat 0 12
  let node := bits word.toNat 12 10
  let n := bits word.toNat 22 9
  let addr := (getBell s who).addr.toNat / 32 * 32
  match getNode s rnum node with
  | none => discardBell s who
  | some d =>
    let last := addr + n * recSize d.bits - 1
    let inside := (stagingAddr s who addr).isSome && (stagingAddr s who last).isSome
    if n = 0 || 256 < n || !s.host.ctxSet || !mayName s who rnum || !inside then discardBell s who
    else
      let rs := joinRing ⟨who, addr, rnum, node, n, s.nextId, s.clock⟩ s.rings
      let s := { s with rings := rs.take Config.maxDoorbells, nextId := s.nextId + 1 }
      match rs.drop Config.maxDoorbells with
      | q :: _ => discardBell s q.who
      | [] => s

/-- The staged bytes of a record, at the memory-side slices (15 R357). -/
def stagedByte (s : State) (who : Requester) (off : Nat) : Byte :=
  ((stagingAddr s who off).map (fun a => pocByte s (hbmKey a))).getD 0

/-- Copy the staged records into the slots allocated for them, and commit them (13 R307). -/
def commitBell (s : State) (q : Ring) (asid a bytes : Nat) : State :=
  let s := askAll s ((List.range ((q.addr % 128 + bytes + 127) / 128)).filterMap (fun i =>
    (stagingAddr s q.who (q.addr / 128 * 128 + 128 * i)).map hbmKey))
  let s := contextWrite s asid a ((List.range bytes).map (fun i => stagedByte s q.who (q.addr + i)))
  commitAll s asid (srcOf q.who) 0 q.rnum q.node a q.n 0

/-- The Cooper whose agent copies a region's records in: the first that the region's STK names. -/
def cooperOf (s : State) (rnum : Nat) : Nat := if (stkOf s rnum).testBit 0 then 0 else 1

/-- DOORBELL_COMMIT: the doorbell that arrived first is served: it takes its slots, before the core's allocations of its cycle, or
waits for them, and its records are copied in and committed, once their slots' memory waits for nothing (13 R306, R307, 14 R346).
None is served in the cycle of its arrival, where another may still come before it (15 R372), or during a checkpoint (16 R381). -/
def execDoorbellCommit (s : State) : Out :=
  match s.rings with
  | [] => .next s
  | q :: rest =>
    if s.ckpt.busy = 1 || s.clock ≤ q.came || !inOrder s clsAlloc 0 then .next s
    else match getNode s q.rnum q.node with
      | none => .next (discardBell { s with rings := rest } q.who)
      | some d =>
        let mine (v : Waiter) : Bool := v = .bell q.ticket
        let first := match d.waiters with
          | [] => true
          | v :: _ => mine v
        if first && ringTakes d q.n then
          let d := { d with waiters := d.waiters.filter (fun v => !mine v) }
          let (d', a) := ringTake d q.n
          let asid := asidOf s q.rnum
          let who := cooperWho (cooperOf s q.rnum)
          let pages := contextMiss s asid who a (q.n * recSize d.bits)
          if !pages.isEmpty then .next (askPieces s (120 * (2 * cooperOf s q.rnum)) asid who pages)
          else
          let s := modNode { s with rings := rest } q.rnum q.node (fun _ => freeSlots d')
          .next (pieceDone (commitBell s q asid a (q.n * recSize d.bits)) who)
        else if d.waiters.any mine then .next s
        else .next (modNode s q.rnum q.node (fun d => { d with waiters := d.waiters ++ [.bell q.ticket] }))

end Sys2Proof.Machine
end

