-- ==== Sys2Proof/Machine/Translate.lean ====
section
/-!
DEFINITION. Translation (14 R346 to R349, 15 R356): page walks, ATS, PRI, and the invalidation of translations.
-/

namespace Sys2Proof.Machine

/-- MTYPE of a cached ATS page of a host page of MTYPE m. -/
def atsMtype (m : Nat) : Nat := m + 4

/-- Change a walk. -/
def setWalk (s : State) (id : Nat) (st : WalkState) : State :=
  { s with walks := s.walks.map (fun k => if k.id = id then { k with state := st } else k) }

/-- Remove a walk. -/
def endWalk (s : State) (id : Nat) : State := { s with walks := s.walks.filter (fun k => k.id ≠ id) }

/-- Cache a translation in the core's TLB and in the stack's (14 R348). -/
def fillTlb (s : State) (core asid size va pa mtype : Nat) (r w x : Bool) : State :=
  let e (holder : Nat) : Tlb := ⟨holder, asid, size, va / 2 ^ size, pa, mtype, r, w, x⟩
  tlbInsert (tlbInsert s (e core)) (e (480 + stackOf core))

/-- Has a walk one of the 96 walkers of its stack (14 R348): fewer walks have been asked for before it? -/
def walks (s : State) (k : Walk) : Bool :=
  (s.walks.filter (fun j => j.state = .walking && stackOf j.core = stackOf k.core && j.id < k.id)).length < Config.walkers

/-- PAGE_WALK_COMPLETE: a walk reads the tables and ends in a leaf, a fault, or an ATS Translation Request (14 R346, R349). -/
def execPageWalkComplete (id : Nat) (s : State) : Out :=
  match s.walks.find? (fun k => k.id = id && k.state = .walking && walks s k) with
  | none => .next s
  | some k =>
    let va := 4096 * k.va
    match walkContext s k.asid va with
    | .hole => .fault .physicalHole
    | .fault sub => .next (setWalk (walkReads s k.asid va) id (.failed sub))
    | .leaf size pa mtype r w x =>
      let s := walkReads s k.asid va
      let s := if (tlbFind s k.core k.asid va false).isSome then s
        else fillTlb s k.core k.asid size va (leafAddr s pa mtype) mtype r w x
      if mtype = 1 ∨ mtype = 2 then
        if ctxBits s k.asid 399 1 = 0 then .next (setWalk s id (.failed 5))
        else if (tlbFind s k.core k.asid va true).isSome then .next (endWalk s id)
        else .next (setWalk s id (.ats mtype))
      else .next (endWalk s id)

/-- Walks that wait on one PCIe request: those of the same PASID and page (14 R349). -/
def sameRequest (s : State) (k j : Walk) : Bool := ctxBits s k.asid 400 20 = ctxBits s j.asid 400 20 && k.va = j.va

/-- ATS_COMPLETION: a Translation Completion grants the access, reports the page not present, or neither (14 R349). -/
def execAtsCompletion (id : Nat) (r : AtsResult) (s : State) : Out :=
  match s.walks.find? (fun k => k.id = id) with
  | none => .next s
  | some k =>
    match k.state, r with
    | .ats mtype, .granted pa rd wr =>
      let page := (k.asid, k.va, pa / 4096 % 2 ^ 52)
      let s := if mtype = 1 then { s with atsPages := page :: s.atsPages.filter (fun p => p ≠ page) } else s
      .next (endWalk (tlbInsert s
        ⟨480 + stackOf k.core, k.asid, 12, k.va, pa / 4096 * 4096 % 2 ^ 64, atsMtype mtype, rd, wr, false⟩) id)
    | .ats mtype, .notPresent =>
      -- one Page Request for the PASID and page: the walks that wait on it are the ones in this state
      .next (setWalk s id (.pri mtype))
    | .ats _, .refused => .next (setWalk s id (.failed 5))
    | _, _ => .next s

/-- PRI_RESPONSE: success repeats the Translation Request of every access that waits on the page, a failure ends each in
TRANSLATION PRI (14 R349). -/
def execPriResponse (id : Nat) (ok : Bool) (s : State) : Out :=
  match s.walks.find? (fun k => k.id = id) with
  | none => .next s
  | some k =>
    match k.state with
    | .pri _ =>
      .next { s with walks := s.walks.map (fun j =>
        match j.state with
        | .pri m => if sameRequest s k j then { j with state := if ok then .ats m else .failed 6 } else j
        | _ => j) }
    | _ => .next s

/-! ### Invalidation -/

/-- What an invalidation covers: every translation, those of one ASID, or those of one ASID that meet a range. -/
def covered (form asid addr len : Nat) (e : Tlb) : Bool :=
  form = 0 || (e.asid = asid && (form = 1 || (e.vpn * 2 ^ e.size < addr + len && addr < (e.vpn + 1) * 2 ^ e.size)))

/-- Drop covered translations from every TLB of the device, and restart the walks in flight (14 R348). -/
def dropTlb (s : State) (p : Tlb → Bool) : State :=
  { s with tlb := s.tlb.filter (fun e => !p e)
           walks := s.walks.map (fun k => match k.state with
             | .failed _ => k
             | _ => { k with state := .walking }) }

/-- The translations made after an invalidation under R348 see the link windows as they stand (15 R364). -/
def renewWindows (s : State) : State := { s with windowsSeen := s.windows }

/-- A write to TLBCMD of a stack, 0 West, 1 East (14 R348, 15 R356): discarded while BUSY, and for FORM 3. -/
def tlbWrite (stack : Nat) (v : Word64) (s : State) : State :=
  let form := v.toNat % 4
  let asid := bits v.toNat 2 11
  if mgetD s.host.tlbBusy stack 0 ≠ 0 || form = 3 then s
  else
    let h := { s.host with tlbAsid := mset s.host.tlbAsid stack asid, tlbBusy := mset s.host.tlbBusy stack (form + 1) }
    renewWindows (dropTlb { s with host := h }
      (covered form asid (mgetD s.host.tlbAddr stack 0).toNat (mgetD s.host.tlbLen stack 0).toNat))

/-- TLB_INVALIDATE_ALL: FORM 0 (14 R348). -/
def execTlbInvalidateAll (stack : Nat) (v : Word64) (s : State) : Out :=
  .next (if v.toNat % 4 = 0 then tlbWrite stack v s else s)
/-- TLB_INVALIDATE_ASID: FORM 1 (14 R348). -/
def execTlbInvalidateAsid (stack : Nat) (v : Word64) (s : State) : Out :=
  .next (if v.toNat % 4 = 1 then tlbWrite stack v s else s)
/-- TLB_INVALIDATE_RANGE: FORM 2 (14 R348). -/
def execTlbInvalidateRange (stack : Nat) (v : Word64) (s : State) : Out :=
  .next (if v.toNat % 4 = 2 then tlbWrite stack v s else s)

/-- Has a workgroup's context an ASID; a workgroup that is gone may have had any. -/
def mayBeOf (s : State) (g asid : Nat) : Bool :=
  match getWg s g with
  | some x => x.asid = asid
  | none => true

/-- Are accesses under way that used a translation of a context, or of any with `all` (14 R348)? -/
def usesPending (s : State) (all : Bool) (asid : Nat) : Bool :=
  s.stores.any (fun e => all || mayBeOf s e.g asid) || s.atoms.any (fun a => !a.done && (all || mayBeOf s a.g asid))

/-- Read again the descriptors of the contexts that an invalidation covers (14 R321). -/
def rereadContexts (s : State) (all : Bool) (asid : Nat) : State :=
  { s with contexts := s.contexts.map (fun p => if all || p.1 = asid then (p.1, ⟨readContext s p.1⟩) else p) }

/-- TLB_INVALIDATION_COMPLETE: no TLB holds a covered translation and every access that used one has been performed (14 R348);
the descriptors are read again (14 R321). -/
def execTlbInvalidationComplete (stack : Nat) (s : State) : Out :=
  let b := mgetD s.host.tlbBusy stack 0
  let asid := mgetD s.host.tlbAsid stack 0
  if b = 0 || usesPending s (b = 1) asid then .next s
  else .next (rereadContexts { s with host := { s.host with tlbBusy := mset s.host.tlbBusy stack 0 } } (b = 1) asid)

/-- ATS_INVALIDATION: an Invalidation Request of the host drops the ATS translations of a PASID that meet a range, and completes once
the accesses that used them are performed (14 R348, R349). -/
def execAtsInvalidation (pasid va len : Nat) (s : State) : Out :=
  .next (dropTlb { s with atsInvs := s.atsInvs ++ [(pasid, va, len)] } (fun e => 4 ≤ e.mtype && ctxBits s e.asid 400 20 = pasid &&
    e.vpn * 2 ^ e.size < va + len && va < (e.vpn + 1) * 2 ^ e.size))

/-- Do accesses of a context of a PASID await their performance? -/
def pasidPending (s : State) (pasid : Nat) : Bool :=
  s.contexts.any (fun p => ctxBits s p.1 400 20 = pasid && usesPending s false p.1)

/-- The ATS invalidations whose accesses are performed are complete, which the host is told (14 R349, R350). -/
def settleAts (s : State) : State :=
  if s.atsInvs.all (fun q => pasidPending s q.1) then s
  else { s with atsInvs := s.atsInvs.filter (fun q => pasidPending s q.1), completion := some .invalidated }

/-- FSRD_WRITE: RSEQ moves to the value written, kept between itself and WSEQ (15 R356). -/
def writeFsrd (stack : Nat) (v : Word64) (s : State) : State :=
  let f := mgetD s.faultStores stack FaultStore.empty
  { s with faultStores := mset s.faultStores stack { f with rseq := max f.rseq (min v.toNat f.wseq) } }

/-- FSRD_WRITE (15 R356). -/
def execFsrdWrite (stack : Nat) (v : Word64) (s : State) : Out := .next (writeFsrd stack v s)

end Sys2Proof.Machine
end

