-- ==== Sys2Proof/Machine/Links.lean ====
section
/-!
DEFINITION. The Blululys links (15 R361 to R365, 08 R224, R225): flits, replay, admission, peer requests, failure and training.
-/

namespace Sys2Proof.Machine

/-- Cycles of a millisecond (01 R19). -/
def msCycles : Nat := 940000

/-! ### Flits and admission -/

/-- ADMISSION_REQUEST: a destination receives a request and grants it once it has space for the whole transfer (15 R362). -/
def execAdmissionRequest (link bytes tag : Nat) (s : State) : Out := .next (admitReq s link tag bytes)

/-- A grant arrives: the flits of the transfer are sent, and an answer is given with them. -/
def granted (s : State) (link tag : Nat) : State :=
  match s.outs.find? (fun r => r.id = tag && r.link = link && !r.granted) with
  | none => s
  | some r =>
    let s := { s with outs := s.outs.map (fun q => if q.id = tag then { q with granted := true } else q)
                      completion := if r.answer.isSome then r.answer else s.completion }
    modLink s link (fun l => l.enqueue (List.replicate (flitsOf r.bytes) tag))

/-- ADMISSION_GRANT: a source receives a grant and sends the transfer (15 R362). -/
def execAdmissionGrant (link tag : Nat) (s : State) : Out := .next (if (getLink s link).up then granted s link tag else s)

/-- Have all flits of a transfer been sent and acknowledged? -/
def arrived (s : State) (r : PeerReq) : Bool :=
  let l := getLink s r.link
  r.granted && !l.queue.contains r.id && !l.replay.any (fun q => q.req = r.id)

/-- FLIT_RECEIVE: a flit whose CRC fails is answered with a negative acknowledgement; the one expected next is taken and
acknowledged, and acts by its kind (15 R361, R362). -/
def execFlitReceive (link : Nat) (fl : Flit) (s : State) : Out :=
  let l := getLink s link
  if !l.up then .next s
  else if !fl.crcOk then .next (modLink s link (fun l => { l with sent := (false, fl.seq) :: l.sent }))
  else
    let s := modLink s link (fun l => l.acked fl.ack)
    if fl.seq ≠ l.rxSeq then .next s
    else
      let s := modLink s link (fun l => { l with rxSeq := l.rxSeq + 1, sent := (true, fl.seq) :: l.sent })
      .next (match fl.kind with
        | .data => let s := modLink s link (fun l => l.payload fl.tag); grantAll (waitingGrants s) s
        | .admission => admitReq s link fl.tag fl.bytes
        | .grant => granted s link fl.tag
        | .ack => s
        | .idle => s)

/-! ### The device's own requests (15 R363) -/

/-- Is the access or the command of a request of the device still under way? -/
def PeerReq.awaited (s : State) (r : PeerReq) : Bool :=
  s.loads.any (fun l => l.id = r.acc) || s.stores.any (fun e => e.id = r.acc) || s.atoms.any (fun a => a.id = r.acc && !a.done) ||
    s.copies.any (fun c => c.id = r.acc) || s.anvs.any (fun a => a.id = r.acc) ||
    (syncAcc 0 false ≤ r.acc &&
      (syncWants s ((r.acc - syncAcc 0 false) / 2) ||
        (getWarp s ((r.acc - syncAcc 0 false) / 32) ((r.acc - syncAcc 0 false) / 2 % 16)).any (fun p => p.due.isSome)))

/-- The requests whose accesses have ended leave, and so do answers that have arrived. -/
def linkWork (s : State) : State :=
  if s.outs.isEmpty then s
  else
    let ended (r : PeerReq) : Bool := if r.answer.isSome then arrived s r else !r.awaited s
    let s' := { s with outs := s.outs.filter (fun r => !ended r) }
    (s.outs.filter (fun r => ended r && r.answer.isNone)).foldl endReq s'

/-! ### Failure (15 R365) -/

/-- A free yes or no. -/
def freeBool (s : State) : Bool × State :=
  let (v, s) := freshFree s
  (v.getLsbD 0, s)

/-- A load whose requests were on the failed link: POISON LOAD in their lanes. -/
def cutLoad (s : State) (l : Load) (keys : List Nat) : State :=
  faultLoad s l ((l.reads.filter (fun r => keys.contains (r.2.2.1 / 4096))).map (fun r => (r.1, r.2.1))) 0x0B 1

/-- A store on the failed link is performed or lost. -/
def cutStore (s : State) (e : Store) : State :=
  let (done, s) := freeBool s
  if done then performStore s e
  else tokenDone (dropStore s e.id) e.g e.w e.token

/-- An atomic on the failed link: POISON ATOMIC, applied once or not at all. -/
def cutAtom (s : State) (a : Atom) : State :=
  let (done, s) := freeBool s
  let s := if done then applyAtom s { a with dst := none } else { s with atoms := s.atoms.filter (fun x => x.id ≠ a.id) }
  atomLate s a

/-- A copy command with a request on the failed link ends with CAUSE 4 (10 R248): what it has moved stands, and a long row that has been
read whole is written. The address and the space of its summary are the source operand's: DESIGN CHOICE, log 52. -/
def cutCopy (s : State) (c : Copy) : State :=
  let whole := c.rowRead && !c.late.isEmpty
  let s := if whole then engStore s c.core (c.late.flatMap (·.2)) else s
  let word := doneOf c (if whole then c.moved + 1 else c.moved) % 2 ^ 24 * 2 ^ 40 + c.num % 2 ^ 32 * 2 ^ 8 + 4 * 2 ^ 4 + 1
  let bars := if c.bar then ((getWg s c.g).bind (fun x => (arrivalPhase (getBar x c.barNum)).map (fun p => (c.barNum, p)))).toList else []
  finishCopy (recordSummary s c.g c.w false { word := BitVec.ofNat 64 word, num := c.num, faddr := c.a, space := c.src, pc := c.pc,
                                              delivered := false, bars := bars, warp := c.w, token := c.token }) c

/-- Entries of a device leave the deduplication tables without acknowledgement (08 R225). -/
def retirePeer (s : State) (p : Nat → Nat → Bool) : State :=
  let gone (d : Dedup) : Bool := match d.source with
    | .peer dev _ _ epoch => p dev epoch
    | .device _ => false
    | .hart _ _ => false
  { s with dedup := s.dedup.filter (fun d => !gone d)
           obs := { s.obs with ddretire := s.obs.ddretire + (s.dedup.filter gone).length } }

/-- A failed link is taken out of every window that names it (15 R365). -/
def cutWindow (link : Nat) (w : BitVec 128) : BitVec 128 := w &&& ~~~(1#128 <<< (98 + link))

/-- Take a link out of the windows: of the table, and of the entries that translations were made with. What an access has asked of a
link that has failed and was served has no space to come back to, and needs none (15 R365). -/
def cutWindows (s : State) (link : Nat) : State :=
  let cut (e : Tlb) : Tlb := if e.mtype = 3 && e.pa.testBit (64 + 98 + link) then { e with pa := e.pa - 2 ^ (64 + 98 + link) } else e
  { s with windows := s.windows.map (fun p => (p.1, cutWindow link p.2))
           windowsSeen := s.windowsSeen.map (fun p => (p.1, cutWindow link p.2))
           tlb := s.tlb.map cut }

/-- A link fails: the requests on it whose flits were not all acknowledged end as 15 R365 says, it leaves the windows, its grants
lapse, and the entries of a peer that no link reaches any more are retired (08 R225). -/
def failLink (s : State) (link : Nat) : State :=
  let s := linkWork s
  let l := getLink s link
  let lost := s.outs.filter (fun r => r.link = link && !arrived s r)
  let keysOf (acc : Nat) : List Nat := (lost.filter (fun r => r.acc = acc && r.answer.isNone)).map (·.key / 4096)
  let copies := s.copies.filter (fun c => lost.any (fun r => r.acc = c.id))
  let kept := (s.outs.filter (fun r => r.link ≠ link || arrived s r)).map (fun r => if r.link = link then { r with back := 0 } else r)
  let s := cutWindows { s with outs := kept } link
  let s := modLink s link (fun l => { l with up := false, replay := [], queue := [], admitted := [], grants := [], sent := [], storms := [] })
  let s := (s.loads.filter (fun l => !(keysOf l.id).isEmpty)).foldl (fun s l => cutLoad s l (keysOf l.id)) s
  let s := (s.stores.filter (fun e => !(keysOf e.id).isEmpty)).foldl cutStore s
  let s := (s.atoms.filter (fun a => !a.done && !(keysOf a.id).isEmpty)).foldl cutAtom s
  let s := copies.foldl cutCopy s
  let s := if s.links.any (fun q => q.2.up && q.2.peer = l.peer) then s else retirePeer s (fun dev _ => dev = l.peer)
  reapAll s

/-- LINK_FAILED (15 R365). -/
def execLinkFailed (link : Nat) (s : State) : Out := .next (if (getLink s link).up then failLink s link else s)

/-- NEGATIVE_ACKNOWLEDGEMENT: the transmitter replays from that flit, in order; a flit replayed 8 times within 1 ms fails the
link, 256 replays on it within 1 ms freeze the recorders (15 R361, 16 R380, R389). -/
def execNegativeAcknowledgement (link seq : Nat) (s : State) : Out :=
  let l := getLink s link
  let from' := l.replay.dropWhile (fun q => q.seq.toNat ≠ seq)
  if !l.up || from'.isEmpty then .next s
  else
    let recent (ts : List Nat) : List Nat := (s.clock :: ts).filter (fun t => s.clock < t + msCycles)
    let kept := l.replay.take (l.replay.length - from'.length)
    let again := from'.map (fun q => { q with times := recent q.times })
    let storms := (List.replicate again.length s.clock ++ l.storms).filter (fun t => s.clock < t + msCycles)
    let s := modLink s link (fun l => { l with replay := kept ++ again, storms := storms })
    let s := { s with obs := { s.obs with lreplay := mset s.obs.lreplay link (mgetD s.obs.lreplay link 0 + again.length) } }
    let s := if 256 ≤ storms.length then freeze s 5 else s
    .next (if again.any (fun q => 8 ≤ q.times.length) then failLink s link else s)

/-! ### Peer requests (15 R363, 08 R224) -/

/-- Links over which a response may go back to a device. -/
def linksTo (s : State) (device epoch : Nat) : List Nat :=
  (s.links.filter (fun q => q.2.up && q.2.peer = device && q.2.epoch = epoch)).map (·.1)

/-- A response of n bytes goes back over one of the links to a device, a free choice: it asks for admission first, and is given once the
requester has granted the space (15 R362). -/
def respond (s : State) (ls : List Nat) (pa n : Nat) (c : Completion) : State :=
  let (i, s) := pickFree ls 0 s
  askAdmission (observe s (3 + i) 0 pa) ⟨0, 0, ownTag s 0, hbmKey pa, i, n, 0, 0, false, some c⟩

/-- The tag as the source of a deduplication entry. -/
def peerSource (t : PeerTag) : DedupSource := .peer t.device t.agent t.seq t.epoch

/-- An atomic of a peer at the hub die: once for a tag, its old value recorded (08 R224). -/
def peerAtomic (s : State) (tag : PeerTag) (ls : List Nat) (pa op type : Nat) (data swap : Word64) : State :=
  let n := atomBytes type
  let key := hbmKey pa
  match s.dedup.find? (fun d => d.source = peerSource tag) with
  | some d => respond s ls pa n (.data ((d.olds.head?.map (fun o => o.2.toNat)).getD 0))
  | none =>
    let s := askAll s [key]
    if poisonedAt s key n then respond s ls pa n .poisoned
    else
      let old : Word64 := BitVec.ofNat 64 (pocNat s key n)
      let s := putCells s (cellsOf key n (atomNew op type old data swap).toNat)
      let s := { s with dedup := s.dedup ++ [⟨s.nextId, hubOf key, peerSource tag, [(0, old)]⟩], nextId := s.nextId + 1 }
      respond s ls pa n (.data old.toNat)

/-- Bytes of a peer request. -/
def peerBytes (op : PeerOp) : Nat :=
  match op with
  | .load n => n
  | .store d => d.length
  | .atomic _ t _ _ => atomBytes t

/-- The pseudo-channels that a peer's request needs LIT. -/
def peerUnits (pa : Nat) (op : PeerOp) : List Nat := nub ((List.range (peerBytes op)).map (fun i => hbmUnit (pa + i)))

/-- May a peer's request be performed: its pseudo-channels are LIT, no access waits there that arrived before it (07 R180), and the hub
die of an atomic has an entry for it or room for one (08 R224)? -/
def peerReady (s : State) (id : Nat) (tag : PeerTag) (pa : Nat) (op : PeerOp) : Bool :=
  !lampHeld s (peerWho id) (peerUnits pa op) && (match op with
    | .atomic _ _ _ _ => s.dedup.any (fun d => d.source = peerSource tag) || 1 ≤ dedupFree s (hubOf (hbmKey pa))
    | _ => true)

/-- A peer's request is performed at this device's memory-side slices, and answered over a link to the peer (15 R363). -/
def servePeer (s : State) (tag : PeerTag) (pa : Nat) (op : PeerOp) : State :=
  let ls := linksTo s tag.device tag.epoch
  let n := peerBytes op
  if ls.isEmpty then s
  else
    let s := touchAll s (peerUnits pa op)
    match op with
    | .load n =>
      let s := askAll s (List.range n |>.map (fun i => hbmKey (pa + i)))
      respond s ls pa n (if (List.range n).any (fun i => poisonedAt s (hbmKey (pa + i)) 1) then .poisoned
        else .data (pocNat s (hbmKey pa) n))
    | .store d => respond (pocWrite s ((List.range n).map (fun i => (hbmKey (pa + i), d.getD i 0)))) ls pa 0 (.data 0)
    | .atomic o t data swap => peerAtomic s tag ls pa o t data swap

/-- The requests of peers that wait are performed as far as they can be, in the order of their arrival; one whose links have failed is
dropped (log 39). -/
def peerWork (s : State) : State :=
  s.peerq.foldl (fun s q =>
    if peerReady s q.1 q.2.1 q.2.2.1 q.2.2.2 then
      servePeer (lampLeave { s with peerq := s.peerq.filter (fun p => p.1 ≠ q.1) } (peerWho q.1)) q.2.1 q.2.2.1 q.2.2.2
    else if s.lampq.any (fun p => p.who = peerWho q.1) then s
    else lampJoin s (peerWho q.1) (peerUnits q.2.2.1 q.2.2.2)) s

/-- PEER_REQUEST: a load, store or atomic of a peer is performed at this device's memory-side slices (15 R363), or waits in the queue of
its pseudo-channels (07 R180), or for room in the deduplication table. -/
def execPeerRequest (tag : PeerTag) (pa : Nat) (op : PeerOp) (s : State) : Out :=
  if (linksTo s tag.device tag.epoch).isEmpty || s.peerq.any (fun q => q.2.1 = tag) then .next s
  else if !inHbm pa (peerBytes op) then .fault .physicalHole
  else if peerReady s s.nextId tag pa op then .next (servePeer s tag pa op)
  else .next (lampJoin { s with peerq := s.peerq ++ [(s.nextId, tag, pa, op)], nextId := s.nextId + 1 } (peerWho s.nextId) (peerUnits pa op))

/-- LINK_TRAIN: a link, which fails first where it was up, trains to a peer, which announces its epoch, as the device announces its own;
entries of the peer with an older one are retired (08 R225). -/
def execLinkTrain (link peer epoch : Nat) (s : State) : Out :=
  if 12 ≤ link then .next s
  else
    let s := if (getLink s link).up then failLink s link else s
    let s := modLink s link (fun l =>
      { Link.reset with up := true, peer := peer, epoch := epoch % 65536, served := l.served, announced := s.epoch })
    .next (retirePeer s (fun dev e => dev = peer && e ≠ epoch % 65536))

end Sys2Proof.Machine
end

