-- ==== Sys2Proof/Machine/Power.lean ====
section
/-!
DEFINITION. The Bellows (16 R373 to R376): the cap, the power levels, and the hardware limits.
-/

namespace Sys2Proof.Machine

/-- Number of lane groups of the device (01 R16). -/
def numLgs : Nat := 4 * Config.numCores

/-- Change the lane groups of the cores that a test names. -/
def modLgs (s : State) (p : Nat → Bool) (f : Lg → Lg) : State :=
  { s with lgs := (List.range numLgs).filterMap (fun k =>
      if p (k / 4) then
        let l := f (mgetD s.lgs k Lg.empty)
        if l = Lg.empty then none else some (k, l)
      else (mget s.lgs k).map (fun l => (k, l))) }

/-- The cap within the range that CAPW keeps (16 R374). -/
def clampCap (v : BitVec 16) : Nat := max 1200 (min 3200 (bits v.toNat 0 12))

/-- CAPW: the node manager writes the cap. The firmware applies it; without firmware the hardware holds every lane group at
level 3 until the firmware does (16 R374, R376). -/
def execCapw (v : BitVec 16) (s : State) : Out :=
  let c := clampCap v
  if s.bellows.firmware then .next { s with bellows := { s.bellows with capw := c, cap := c } }
  else .next (modLgs { s with bellows := { s.bellows with capw := c, hwCap := true } } (fun _ => true) (fun l => { l with plevel := 3 }))

/-- Is the level of a core's lane groups held at 3 (16 R376)? -/
def levelHeld (s : State) (core : Nat) : Bool := s.bellows.hwCap || tripped s (dieOf core)

/-- PLEVEL_CHANGE: the Bellows grants a lane group another level (16 R373), unless the hardware holds it at 3. -/
def execPlevelChange (core lg level : Nat) (s : State) : Out :=
  if Config.numCores ≤ core || 4 ≤ lg || 4 ≤ level || (levelHeld s core && level ≠ 3) then .next s
  else .next (modLg s core lg (fun l => { l with plevel := level }))

/-- SUPPLY_DROOP: issue on the island halts (16 R376). The islands are the clusters. -/
def execSupplyDroop (island : Nat) (s : State) : Out :=
  if s.bellows.droops.contains island then .next s
  else .next { s with bellows := { s.bellows with droops := s.bellows.droops ++ [island] } }

/-- SUPPLY_RECOVER: issue on the island goes on (16 R376). -/
def execSupplyRecover (island : Nat) (s : State) : Out :=
  .next { s with bellows := { s.bellows with droops := s.bellows.droops.filter (· ≠ island) } }

/-- A die's lane groups move to level 3 and near-threshold operation (16 R376, 07 R186). -/
def clampDie (s : State) (die : Nat) : State :=
  modLgs s (fun core => dieOf core = die) (fun l => { l with plevel := 3, near := true })

/-- THERMAL_TRIP: a die is above its trip temperature (16 R376, 07 R186). -/
def execThermalTrip (die : Nat) (s : State) : Out :=
  if 4 ≤ die || tripped s die then .next s
  else .next (clampDie { s with bellows := { s.bellows with trips := s.bellows.trips ++ [die] } } die)

/-- THERMAL_TRIP_END: lane groups whose workgroups do not allow near-threshold operation leave it (07 R186). -/
def execThermalTripEnd (die : Nat) (s : State) : Out :=
  if tripped s die then
    let s := { s with bellows := { s.bellows with trips := s.bellows.trips.filter (· ≠ die) } }
    .next { s with lgs := s.lgs.map (fun p =>
      if dieOf (p.1 / 4) = die && !nearAllowed s (p.1 / 4) (p.1 % 4) then (p.1, { p.2 with near := false }) else p) }
  else .next s

/-- May the image of a firmware slot run (16 R384)? -/
def slotValid (f : Fw) (slot : Nat) : Bool := !f.bad.contains slot && f.rollback ≤ mgetD f.vers slot 0

/-- The active slot of an image, as FWVER numbers slots (16 R391). -/
def activeSlot (f : Fw) (image : Nat) : Nat := 2 * image + (if (if image = 0 then f.bSlot else f.chSlot) then 1 else 0)

/-- The other slot of an image. -/
def otherSlot (f : Fw) (image : Nat) : Nat := 4 * image + 1 - activeSlot f image

/-- Start an image from its active slot: a version that starts for the first time raises the rollback counter (16 R391). -/
def startImage (f : Fw) (image : Nat) : Fw :=
  if f.fresh.contains image then
    { f with rollback := max f.rollback (mgetD f.vers (activeSlot f image) 0), fresh := f.fresh.filter (· ≠ image) }
  else f

/-- The newer valid image of the Bellows' pair becomes the active one (16 R376). -/
def pickNewer (f : Fw) : Fw :=
  let a := activeSlot f 0
  let o := otherSlot f 0
  if slotValid f o && (mgetD f.vers a 0 < mgetD f.vers o 0 || !slotValid f a) then { f with bSlot := !f.bSlot } else f

/-- The Bellows firmware runs from its active slot, if that holds a valid image, and applies the cap last written; an image that is
not valid is never run (16 R376, R384). -/
def runBellows (s : State) : State :=
  if slotValid s.fw (activeSlot s.fw 0) then
    { s with bellows := { s.bellows with firmware := true, cap := s.bellows.capw, hwCap := false }, fw := startImage s.fw 0 }
  else s

/-- BELLOWS_WATCHDOG_RESTART (16 R376): firmware that has not serviced the watchdog is stopped and its restart begins, which
freezes the recorders (16 R380); when the restart is over the newer valid image runs. -/
def execBellowsWatchdogRestart (s : State) : Out :=
  if s.bellows.firmware then .next (freeze { s with bellows := { s.bellows with firmware := false } } 4)
  else if s.fw.boot = 0 then .next s
  else .next (runBellows { s with fw := pickNewer s.fw })

/-- The next step of bring-up (16 R383): the root of trust verifies the Bellows firmware, which runs; the islands are powered and HBM
is trained; the counting-house firmware is verified and runs. An image that is not valid is never run (16 R384). -/
def bootStep (s : State) : State :=
  match s.fw.boot with
  | 0 =>
    let t := runBellows s
    if t.bellows.firmware then { t with fw := { t.fw with boot := 1 } } else s
  | 1 => { s with fw := { s.fw with boot := 2 } }
  | 2 =>
    if slotValid s.fw (activeSlot s.fw 1) then { s with fw := { startImage s.fw 1 with boot := 3, house := true } }
    else { s with fw := { s.fw with boot := 3 } }
  | _ => s

/-- CAPSTAT (16 R386). -/
def capStat (s : State) : Nat :=
  s.bellows.cap + (if s.bellows.hwCap then 4096 else 0) + (if s.bellows.trips.isEmpty then 0 else 8192)

/-- A read of a register of the Bellows' I3C target by the node manager: 0x10 CAPW, 0x12 CAPRD (16 R374). -/
def nodeRead (reg : Nat) (s : State) : State :=
  match reg with
  | 0x10 => { s with completion := some (.data s.bellows.capw) }
  | 0x12 => { s with completion := some (.data (capStat s % 65536)) }
  | _ => s

end Sys2Proof.Machine
end

