-- ==== Sys2Proof/Machine/Observe.lean ====
section
/-!
DEFINITION. Observation (16 R377 to R380, R386 to R389): samples, the sampling registers, ICINV, HCLR and UNFREEZE; and the errors of
the arrays (14 R337).
-/

namespace Sys2Proof.Machine

/-! ### Samples (16 R377) -/

/-- The resident warp that a scheduler samples next: the first in slot order from its place on, else the lowest slot. -/
def nextSampled (s : State) (core lg : Nat) : Option (Nat × Warp) :=
  let ws := sortBy (fun p => p.2.slot) (warpsOn s core lg)
  match ws.find? (fun p => (getLg s core lg).sample ≤ p.2.slot) with
  | some p => some p
  | none => ws.head?

/-- The fragment of a warp that comes next: the READY one that has waited longest, else a free choice. -/
def nextFrag (p : Warp) (s : State) : Option (Nat × Frag) × State :=
  let ready := p.frags.filter (fun q => q.2.state = .ready)
  match leastBy (fun q => [255 - q.2.age, q.1]) lexLt ready with
  | some q => (some q, s)
  | none => match p.frags with
    | [] => (none, s)
    | q :: _ => let (r, s) := pickFree p.frags q s; (some r, s)

/-- The stall code of a BLOCKED or waiting fragment; none where the table has no code for its wait. -/
def waitCode (f : FragState) : Option Nat :=
  match f with
  | .blocked (.sleep _) => some 14
  | .blocked (.bar _ _) => some 3
  | .blocked (.timeline _ _) => some 4
  | .blocked (.notify _ _ _ _) => some 5
  | .blocked (.lit _ _) => some 12
  | .blocked (.alloc _ _ _ _ _) => some 20
  | _ => none

/-- Do some accesses of a fragment to .p meet banks that another warp's span holds (08 R233)? -/
def spanMeets (s : State) (a : Agent) (space n : Nat) (ls : List (Nat × Word64)) : Bool :=
  space = 2 && ls.any (fun l => match chkLane s a 2 n .read false l.1 l.2 with
    | .ok p => p.key.any (fun k => spanHolds s a.core a.who k n)
    | _ => false)

/-- Does the span of another warp hold an instruction: an access to its banks, or a BANKLOCK of them (08 R233)? -/
def spanStalls (s : State) (c : Ctx) (op : Op) (f : WarpWord) : Bool :=
  let at' (space n : Nat) : Bool := spanMeets s c.agent space n (laneAddrs s c f space)
  let atomic : Bool := at' (if f.l then extBits f 37 2 else 0) (atomBytes (typeCode f))
  match op with
  | .ld => at' (spaceCode f) (accessBytes f)
  | .st => at' (spaceCode f) (accessBytes f)
  | .atom => atomic
  | .atomCas => atomic
  | .red => atomic
  | .sld => spanMeets s c.agent (spaceCode f) (scaBytes f) (scaAddr c f .sld)
  | .sst => spanMeets s c.agent (spaceCode f) (scaBytes f) (scaAddr c f .sst)
  | .banklock => (getCore s c.wg.core).spans.any (fun sp => sp.open s.clock && sp.warp ≠ warpKey c.g c.w &&
      sp.banks &&& (sB c .banklock f).setWidth 32 ≠ 0)
  | _ => false

/-- What an instruction waits for, as far as its operation says. -/
def opCode (s : State) (c : Ctx) (op : Op) (f : WarpWord) : Option Nat :=
  let core := c.wg.core
  let licence := if holdsLic s c.g then none else some 7
  let queue := if anvRoom s core then none else some 10
  match op with
  | .twWait => if (twinFlag s core f.a.toNat - (sB c .twWait f).setWidth 32).toNat < 2 ^ 31 then none else some 6
  | .licAcq => licence
  | .copyL => if (copyRoom s core c.g).isNone then some 9 else none
  | .copyG => if (copyRoom s core c.g).isNone then some 9 else none
  | .copyT => if (copyRoom s core c.g).isNone then some 9 else none
  | .copyFill => if (copyRoom s core c.g).isNone then some 9 else none
  | .anvMma => none
  | .anvZero => queue
  | .anvDrain => queue
  | .anvLoadz => queue
  | .obRes => queue
  | .obFree => queue
  | _ => if spanStalls s c op f then some 19 else none

/-- What a member waits for in the latch: the rest of the gang, then the licence, then room in the anvil queue (11 R261). -/
def latchCode (s : State) (g : Nat) (x : Wg) (l : Latch) : Option Nat :=
  if !(warpsOf x.gang).all (fun w => l.waiting.any (fun m => m.w = w)) then some 8
  else if !holdsLic s g then some 7
  else if !anvRoom s x.core then some 10
  else none

/-- The stall code of a READY fragment that does not issue, where State says why: YIELD, the half rate, the latch, a wake, a
translation, the fetch, its operands, loads in flight, or what its operation waits for (16 R377). -/
def readyCode (s : State) (g w e : Nat) : Option Nat :=
  match getWg s g, ctxOf s ⟨g, w, e⟩ 0 with
  | some x, some c =>
    let lane := getLg s x.core c.warp.lg
    if lane.yielded = some (warpKey g w, e) then some 14
    else if inNear s x.core c.warp.lg && lane.lastAt.any (fun t => t + 1 = s.clock) then some 16
    else if x.latch.any (fun l => l.waiting.any (fun m => m.w = w)) then x.latch.bind (latchCode s g x)
    else if s.lampq.any (fun q => q.who = fragWho g w e) then some 12
    else if s.walks.any (fun k => k.who = warpKey g w) then some 13
    else match fetchWord { s with issuer := some ⟨g, w, e⟩ } x (warpKey g w) c.pc.toNat with
      | .hold _ => some 21
      | .ok v _ => match decodeWord (BitVec.ofNat 64 v) (BitVec.ofNat 64 (v / 2 ^ 64)) with
        | .instr ins => match ins.word? with
          | some (op, f) =>
            match ctxOf s ⟨g, w, e⟩ f.guard with
            | some c =>
              if interlocked s c op f then some 1
              else if takesFlight op && Config.maxLoads ≤ inFlight s g w then some 11
              else opCode s c op f
            | none => none
          | none => none
        | _ => none
      | _ => none
  | _, _ => none

/-- The stall code of a long-word thread: a wake, a translation, the half rate, the fetch, its wait mask, an s-register that a load of
its scalar slot writes or a register that is washed, loads in flight, another warp's span, else an engine command that is not
accepted; none where State does not say (16 R377). -/
def lwCode (s : State) (g w : Nat) : Option Nat :=
  match lwCtxOf s ⟨g, w, 0⟩ with
  | none => none
  | some c =>
    let lane := getLg s c.wg.core c.warp.lg
    if s.lampq.any (fun q => q.who = fragWho g w 0) then some 12
    else if s.walks.any (fun k => k.who = warpKey g w) then some 13
    else if inNear s c.wg.core c.warp.lg && lane.lastAt.any (fun t => t + 1 = s.clock) then some 16
    else match fetchBundle { s with issuer := some ⟨g, w, 0⟩ } c.wg (warpKey g w) c.lw.pc.toNat with
      | .hold _ => some 21
      | .ok v _ =>
        let b := decodeBundle (BitVec.ofNat 1024 v)
        if (List.range 8).any (fun k => b.wait.getLsbD k && mgetD c.lw.tokens k 0 ≠ 0) then some 17
        else if sldPending s c b || bundleWashing s c b then some 1
        else if (b.scalar.op = 0x10 || b.engine.op = 1) && Config.maxLoads ≤ inFlight s g w then some 11
        else if (b.engine.op = 1 || b.engine.op = 2) && spanMeets s c.agent (b.engine.mod.toNat % 4) 4 (lwAddrs c b.engine) then some 19
        else if b.engine.op ≠ 0 && ((b.engine.te && 255 ≤ mgetD c.lw.tokens b.engine.tk.toNat 0) ||
            (3 ≤ b.engine.op.toNat && (engineDo s s c b.engine).holds)) then some 18
        else none
      | _ => none

/-- A code that the table leaves to the device, of a warp that could issue and was not picked: a free one of those that a resident warp
that has not issued may have (log 4). -/
def codeOr (c : Option Nat) (s : State) : Nat × State :=
  match c with
  | some n => (n, s)
  | none => let (v, s) := freshFree s; (1 + v.toNat % 21, s)

/-- The safe-point ordinal of a thread: that of the table entry of the last safe point that it passed (02 R57); a free value
before the first, or where the table has no entry. -/
def ordinal (s : State) (x : Wg) (l : Lw) : Nat × State :=
  let nb := nodeBits s x
  let e (i k n : Nat) : Nat := contextNat s x.asid (nd nb 192 64 + 16 * i + k) n
  match (List.range (nd nb 256 16)).find? (fun i => e i 8 8 = l.lastSafe.toNat && l.lastSafe ≠ 0) with
  | some i => (e i 4 4, s)
  | none => let (v, s) := freshFree s; (v.toNat, s)

/-- The sample of a warp (16 R377). -/
def sampleOf (s : State) (core lg k : Nat) (p : Warp) : Nat × State :=
  let g := k / 16
  let w := k % 16
  let issued := (getLg s core lg).lastAt = some s.clock && (getLg s core lg).last.any (fun q => q.1 = k)
  let head := s.clock % 2 ^ 32 * 2 ^ 96 + core * 2 ^ 76 + lg * 2 ^ 74 + p.slot * 2 ^ 70 + (if issued then 2 ^ 69 else 0)
  match p.lw, getWg s g with
  | some l, some x =>
    let (o, s) := ordinal s x l
    let (c, s) := if issued then (0, s) else codeOr (if p.bank.isSome then some 15 else lwCode s g w) s
    (head + 2 ^ 85 + c * 2 ^ 64 + o, s)
  | _, _ =>
    let (q, s) := nextFrag p s
    let pc := match p.bank, q with
      | some b, _ => b.pc.toNat
      | none, some q => q.2.pc.toNat
      | none, none => 0
    let code : Option Nat :=
      if issued then some 0
      else if lwOn s core lg then some 2
      else if p.bank.isSome then some 15
      else match q with
        | some q => if q.2.state = .ready then readyCode s g w q.1 else waitCode q.2.state
        | none => none
    let (c, s) := codeOr code s
    (head + c * 2 ^ 64 + pc, s)

/-- Address in a ring of 2^log bytes at which the bytes numbered from a pointer on lie (16 R387). -/
def ringAt (base : Word64) (log ptr : Nat) : Nat := base.toNat / 2 ^ log * 2 ^ log + ptr % 2 ^ log

/-- Address of a sample that is taken now, when those before it have been written (16 R387). -/
def sampleAddr (s : State) : Nat := ringAt s.obs.sampBase s.obs.sampLog (s.obs.sampPtr + 16 * s.obs.samples.length)

/-- The cycle of a lane group's next sample: N cycles after that of its last one, or after sampling began (16 R377); N as it was
then, so that a write to N while EN is 1 applies from that sample on (16 R387). -/
def nextSample (s : State) (k : Nat) : Nat := mgetD s.obs.sampAt k s.obs.sampFrom

/-- Is a lane group's next sample due (16 R377)? -/
def sampleDue (s : State) (k : Nat) : Bool := nextSample s k ≤ s.clock

/-- A lane group's scheduler takes a sample; its next one is due N cycles later (16 R377). -/
def takeSample (core lg : Nat) (s : State) : State :=
  let (v, t) := match nextSampled s core lg with
    | none => (22 * 2 ^ 64, s)
    | some (k, p) => sampleOf (modLg s core lg (fun l => { l with sample := (p.slot + 1) % 16 })) core lg k p
  { t with obs := { t.obs with
      sampAt := mset t.obs.sampAt (4 * core + lg) (s.clock + s.obs.sampN)
      samples := t.obs.samples ++ [⟨4 * core + lg, v, s.obs.sampBase, s.obs.sampLog⟩] } }

/-- The oldest samples taken are written, whole, at the memory-side slices, up to one that waits for its pseudo-channel; those behind
it wait for it (16 R387, 07 R180). A sample whose place is outside HBM is written nowhere. -/
def writeSamples : Nat → State → State
  | 0, s => s
  | n + 1, s => match s.obs.samples with
    | [] => s
    | p :: ps =>
      let a := ringAt p.base p.log s.obs.sampPtr
      if inHbm a 16 && lampHeld s (sampleWho p.lg) [hbmUnit a] then lampJoin s (sampleWho p.lg) [hbmUnit a]
      else
        let t := lampLeave s (sampleWho p.lg)
        let t := if inHbm a 16 then pocWrite (touch t (hbmUnit a)) (cellsOf (hbmKey a) 16 p.val) else t
        writeSamples n { t with obs := { t.obs with sampPtr := t.obs.sampPtr + 16, samples := ps } }

/-- SAMPLE_WRITE: a lane group's scheduler takes a sample, and the samples taken are written (16 R377, R387). -/
def execSampleWrite (core lg : Nat) (s : State) : Out :=
  if !s.obs.sampEn || Config.numCores ≤ core || 4 ≤ lg || !sampleDue s (4 * core + lg) then .next s
  else if !inHbm (sampleAddr s) 16 then .fault .physicalHole
  else
    let s := takeSample core lg s
    .next (writeSamples s.obs.samples.length s)

/-- The samples that are due are taken, and those taken are written, as a cycle ends (16 R377, log 3). -/
def settleSamples (s : State) : State :=
  let s := if s.obs.sampEn then (List.range (4 * Config.numCores)).foldl (fun s k => match execSampleWrite (k / 4) (k % 4) s with
      | .next t => t
      | _ => s) s
    else s
  if s.obs.samples.isEmpty then s else writeSamples s.obs.samples.length s

/-! ### Errors of the arrays (14 R337) -/

/-- Who issued a copy or anvil command: its workgroup, warp and core, the PC of its issue, and the ORIGIN of its traps. -/
structure Issued where
  g : Nat
  w : Nat
  core : Nat
  pc : Word64
  origin : Nat
  deriving DecidableEq, Repr

/-- The command of a handle. -/
def commandOf (s : State) (id : Nat) : Option Issued :=
  ((s.copies.find? (fun c => c.id = id)).map (fun c => ⟨c.g, c.w, c.core, c.pc, 3⟩)).orElse (fun _ =>
    (s.anvs.find? (fun a => a.id = id)).map (fun a => ⟨a.g, a.w, a.core, a.pc, 4⟩))

/-- The key of the byte that an agent reads at an address of a space, where it may read there. -/
def placeKey (s : State) (a : Agent) (space : Nat) (need : Need) (addr : Word64) : Option Nat :=
  match chkLane s a space 1 need false 0 (spaceAddr space addr) with
  | .ok p => p.key
  | _ => none

/-- The key that a reader reads; none where it can read nothing there. -/
def Reader.key (s : State) (sub : Nat) : Reader → Option Nat
  | .warp g w space addr => (getWg s g).bind (fun x =>
      placeKey s ⟨x.core, x.asid, warpKey g w, g, fragWho g w 0⟩ space (if sub = 3 then .fetch else .read) addr)
  | .command id space addr => (commandOf s id).bind (fun q =>
      if space = 4 then some (obKey q.core (addr.toNat % 2 ^ 18))
      else (getWg s q.g).bind (fun x => placeKey s ⟨q.core, x.asid, engWho id, q.g, engWho id⟩ space .read addr))
  | .agent _ asid addr => contextKey s asid addr.toNat

/-- A record of TYPE 3 or 4 about a workgroup's read: POISON with a subcode, an ORIGIN, and the space and address read (14 R324, R342).
TYPE 3 is reported to the fault domain. -/
def errorOf (s : State) (g w type sub origin space : Nat) (pc addr : Word64) : State :=
  match getWg s g with
  | none => s
  | some x =>
    let s' := writeFaultRec s (stackOf x.core)
      { type := type, cause := 0x0B + sub * 2 ^ 8 + space * 2 ^ 16 + origin * 2 ^ 20, faddr := addr, pc := pc, wgid := x.wgid
        asid := x.asid, rnum := x.rnum, node := x.node, core := x.core, warp := w }
    if type = 3 then reportFault s' x.rnum else s'

/-- The record of a reader's error (14 R342). That of an agent without a workgroup names no region, and is reported to the domain of the
lowest region of its context; a command's has the cause POISON LOAD and its own ORIGIN: DESIGN CHOICE, log 66. -/
def Reader.report (s : State) (type sub : Nat) : Reader → State
  | .warp g w space addr => errorOf s g w type sub (if sub = 3 then 1 else 2) space (warpPc s g w) (spaceAddr space addr)
  | .command id space addr => match commandOf s id with
    | some q => errorOf s q.g q.w type 1 q.origin space q.pc (spaceAddr space addr)
    | none => s
  | .agent stack asid addr =>
    let s' := writeFaultRec s stack { type := type, cause := 0x10B, faddr := addr, asid := asid }
    match s.regions.find? (fun p => asidOf s p.1 = asid) with
    | some p => if type = 3 then reportFault s' p.1 else s'
    | none => s'

/-- A transient error is counted, and freezes the recorders (14 R337, 16 R380). -/
def countTransient (s : State) : State := freeze { s with obs := { s.obs with ctrans := s.obs.ctrans + 1 } } 1

/-- An error of an array becomes known; a turn of the machine (14 R337, log 3): what its retry does not correct is marked poisoned, and
the reader meets the mark (14 R338). An error where nothing is read is none. -/
def errorStep (e : MemError) (s : State) : State :=
  match e with
  | .corrected => { s with obs := { s.obs with cecc := s.obs.cecc + 1 } }
  | .memory r sub lasts => match r.key s sub with
    | some k => if lasts then r.report (markPoison s k) 3 sub else r.report (countTransient s) 4 sub
    | none => s
  | .tile id elem lasts => match s.anvs.find? (fun a => a.id = id), (s.anvs.find? (fun a => a.id = id)).bind Anv.tile with
    | some a, some z =>
      if lasts then errorOf (modTile s a.core z (fun t =>
        if t.poisoned.contains elem then t else { t with poisoned := t.poisoned ++ [elem] })) a.g a.w 3 1 4 15 a.pc 0
      else errorOf (countTransient s) a.g a.w 4 1 4 15 a.pc 0
    | _, _ => s
  | .register g w reg lane lasts =>
    if lasts then errorOf (modWarp s g w (fun x =>
      if x.poisoned.contains (32 * reg + lane) then x else { x with poisoned := x.poisoned ++ [32 * reg + lane] }))
        g w 3 4 0 15 (warpPc s g w) 0
    else errorOf (countTransient s) g w 4 4 0 15 (warpPc s g w) 0

/-! ### Registers -/

/-- A write to SAMPCTL (16 R387). -/
def writeSampctl (v : Word64) (s : State) : State :=
  let n := max 256 (bits v.toNat 8 24)
  let en := v.getLsbD 0
  let s := if en && !s.obs.sampEn then { s with obs := { s.obs with sampPtr := 0, sampAt := [], sampFrom := s.clock + n } } else s
  { s with obs := { s.obs with sampN := n, sampEn := en } }

/-- SAMPCTL_WRITE (16 R387). -/
def execSampctlWrite (v : Word64) (s : State) : Out := .next (writeSampctl v s)

/-- ICINV: a write of 1 to DBGCTL.ICINV (16 R378). -/
def execIcinv (s : State) : Out := .next (dropAllI s)

/-- A write to DBGCTL (16 R378, R386). -/
def writeDbgctl (v : Word64) (s : State) : State :=
  let s := { s with obs := { s.obs with dbgen := v.getLsbD 0 } }
  if v.getLsbD 1 then dropAllI s else s

/-- A write to HCLR: the histograms of the classes named are cleared (16 R388). -/
def clearHist (v : Word64) (s : State) : State :=
  { s with obs := { s.obs with hist := s.obs.hist.filter (fun p => !(p.1 / 16 < 15 && v.getLsbD (p.1 / 16))) } }

/-- HCLR (16 R388). -/
def execHclr (v : Word64) (s : State) : Out := .next (clearHist v s)

/-- A write of 1 to UNFREEZE (16 R389). -/
def unfreezeAll (s : State) : State := { s with obs := { s.obs with frozen := false, fcause := 0 } }

/-- UNFREEZE (16 R389). -/
def execUnfreeze (s : State) : Out := .next (unfreezeAll s)

end Sys2Proof.Machine
end

