-- ==== Sys2Proof/Machine/Checkpoint.lean ====
section
/-!
DEFINITION. The checkpoint engine (16 R381, R390): START, RESTORE and CHECKPOINT_DONE.
-/

namespace Sys2Proof.Machine

/-- Window of field k of CKPTWIN, where it is used. -/
def ckptWindow (s : State) (k : Nat) : Option Nat :=
  if s.ckpt.win.getLsbD (24 + k) then some (bits s.ckpt.win.toNat (6 * k) 6) else none

/-- Is some window of the tier usable: used, valid, with a link that is up (15 R364)? -/
def ckptWindowUp (s : State) : Bool :=
  (List.range 4).any (fun k => (ckptWindow s k).any (fun i =>
    let e := (mgetD s.windows i 0).toNat
    e.testBit 0 && windowUp s e))

/-- TIER of CKPTDST. -/
def ckptTier (s : State) : Nat := s.ckpt.dst.toNat % 4

/-- Is the destination bad (16 R390)? -/
def ckptBad (s : State) : Bool := 2 ≤ ckptTier s || (ckptTier s = 1 && !ckptWindowUp s)

/-- A command ends with an error code (16 R390). -/
def ckptEnd (s : State) (err : Nat) (mib : Nat) : State :=
  { s with ckpt := { s.ckpt with busy := 0, stopped := false, done := true, err := BitVec.ofNat 4 err, mib := mib } }

/-- The lowest free block of the checkpoint image area (16 R390). -/
def freeCkptBlock (s : State) : Option Nat :=
  (List.range (bits s.ckpt.img.toNat 0 16)).find? (fun j => !s.wgs.any (fun p => p.2.ckptBlock = some j))

/-- Is a workgroup one that a checkpoint has yet to stop? -/
def Wg.running (x : Wg) : Bool :=
  match x.status with
  | .resident => true
  | _ => false

/-- Stop a workgroup for a checkpoint; none where there is no room for its image (16 R381 step 2). -/
def ckptStopOne (s : State) (g : Nat) : Option State :=
  match getWg s g with
  | none => some s
  | some x =>
    if !x.running then some s
    else if !(freeImageBlocks s x.asid 1).isEmpty then some (stopWg s false g)
    else (freeCkptBlock s).map (fun j => modWg (stopWg s false g) g (fun y => { y with ckptBlock := some j }))

/-- Stop a workgroup with its partner; false where there is no room for both images, and then no further one is stopped. -/
def ckptStop (q : State × Bool) (g : Nat) : State × Bool :=
  if !q.2 then q
  else match (wgSet q.1 g).foldlM ckptStopOne q.1 with
    | some s => (s, true)
    | none => (q.1, false)

/-- Stop every resident workgroup; a checkpoint without image room ends (16 R381 step 2, R390). -/
def ckptStopAll (s : State) : State :=
  let (s, ok) := s.wgs.foldl (fun q p => ckptStop q p.1) (s, true)
  if ok then s else ckptEnd s 2 0

/-- Begin a checkpoint command: 1 START, 2 RESTORE (16 R381, R390). -/
def ckptBegin (cmd : Nat) (s : State) : State :=
  if s.ckpt.busy ≠ 0 then s
  else if ckptBad s then ckptEnd s 1 0
  else
    let s := { s with ckpt := { s.ckpt with busy := cmd, stopped := true, err := 0, mib := 0, blocks := 0 } }
    if cmd = 1 then ckptStopAll s else s

/-- START (16 R381). -/
def execStart (s : State) : Out := .next (ckptBegin 1 s)

/-- RESTORE (16 R381). -/
def execRestore (s : State) : Out := .next (ckptBegin 2 s)

/-- MiB that a checkpoint copies: 512 GiB and 2,880 MiB (16 R381). -/
def ckptMib : Nat := 524288 + 2880

/-- Is a key one of HBM or of a vault? -/
def ckptKey (k : Nat) : Bool := k < 2 ^ 57

/-- Is a granule of poison one of HBM or of a vault (14 R338)? -/
def ckptGranule (gr : Nat) : Bool := if gr < 2 ^ 200 then ckptKey (32 * gr) else ckptKey (64 * (gr - 2 ^ 200))

/-- Bytes that a checkpoint copies: HBM, then the vaults (16 R381). -/
def ckptSize : Nat := ckptMib * 2 ^ 20

/-- The place of a byte of HBM or of a vault in that order. -/
def ckptOff (k : Nat) : Nat := if k < vaultKey 0 then k - hbmKey 0 else Config.hbmBytes + (k - vaultKey 0)

/-- The byte of HBM or of a vault at a place. -/
def ckptAt (off : Nat) : Nat := if off < Config.hbmBytes then hbmKey off else vaultKey (off - Config.hbmBytes)

/-- The entries of the windows that a windowed tier uses, in the order of CKPTWIN's fields: those that are valid. -/
def tierWindows (s : State) : List Nat :=
  ((List.range 4).filterMap (fun k => (ckptWindow s k).map (fun i => (mgetD s.windows i 0).toNat))).filter (fun e => e.testBit 0)

/-- Where a place of the copy lies on the tier: in host memory from CKPTDST on, or in the used windows by turns of 4 KiB (DESIGN
CHOICE, log 57). -/
def tierKey (s : State) (off : Nat) : Nat :=
  if ckptTier s = 0 then hostKey (s.ckpt.dst.toNat / 4096 * 4096 + off)
  else
    let ws := tierWindows s
    let e := ws.getD (off / 4096 % ws.length) 0
    peerKey (bits e 86 12) ((2 * bits e 1 63 + off) % 2 ^ 64)

/-- The place of the copy that a byte of the tier holds. -/
def tierOff (s : State) (k : Nat) : Option Nat :=
  let base (b : Nat) : Option Nat := if b ≤ k && k < b + ckptSize && tierKey s (k - b) = k then some (k - b) else none
  if ckptTier s = 0 then base (tierKey s 0)
  else (tierWindows s).findSome? (fun e => base (peerKey (bits e 86 12) (2 * bits e 1 63)))

/-- Is the tier still reached: the host over a PCIe link that has trained, or every window that it uses over a link that is up (16
R390)? -/
def tierReached (s : State) : Bool := if ckptTier s = 0 then s.host.width ≠ 0 else (tierWindows s).all (windowUp s)

/-- Replace the bytes of memory that a test picks by others; with `mix`, each byte is the old or the new one, as free values say (16
R390, log 4). -/
def replaceCells (s : State) (mix : Bool) (p : Nat → Bool) (new : List Host.Cell) : State :=
  let old := s.mem.filter (fun c => p c.1)
  let ks := nub (old.map (·.1) ++ new.map (·.1))
  let pick (i : Nat) : Bool := !mix || (Config.freeValue (s.freeCtr + i / 64)).getLsbD (i % 64)
  let cs := ((List.range ks.length).zip ks).map (fun q => (q.2, if pick q.1 then readByte new q.2 else readByte old q.2))
  { s with mem := writeCells s.mem cs, freeCtr := s.freeCtr + (if mix then ks.length / 64 + 1 else 0) }

/-- The saved workgroups with their warps. -/
def savedSets (s : State) : List (Nat × Wg × List (Nat × Warp)) :=
  (s.wgs.filter (fun p => p.2.isSaved)).map (fun p => (p.1, p.2, s.warps.filter (fun q => q.1 / 16 = p.1)))

/-- What the checkpoint at a destination keeps beside the bytes. -/
def keptAt (s : State) : Option Kept := s.ckpt.sets.find? (fun k => k.dst = s.ckpt.dst && k.win = s.ckpt.win)

/-- A copy that succeeds has asked the memory-side slices for every line of HBM: one over link windows block by block, as it went on
(16 R379). -/
def copyAsks (ok : Bool) (s : State) : State := if ok && ckptTier s = 0 then askRange s (hbmKey 0) Config.hbmBytes else s

/-- The copy of a START to the tier (16 R381 steps 3 and 4); a destination that fails holds a mixture (16 R390). -/
def ckptCopyTo (ok : Bool) (s : State) : State :=
  let cells := (s.mem.filter (fun c => ckptKey c.1)).map (fun c => (tierKey s (ckptOff c.1), c.2))
  let t := replaceCells (copyAsks ok s) (!ok) (fun k => (tierOff s k).isSome) cells
  if ok then
    let kept : Kept := ⟨s.ckpt.dst, s.ckpt.win, s.poison.filter ckptGranule, savedSets s⟩
    ckptEnd { t with ckpt := { t.ckpt with sets := kept :: t.ckpt.sets.filter (fun k => !(k.dst = s.ckpt.dst && k.win = s.ckpt.win)) } }
      0 ckptMib
  else ckptEnd t 3 t.ckpt.mib

/-- The copy of a START, to a tier that is reached or not. -/
def ckptCopy (s : State) : State := ckptCopyTo (tierReached s) s

/-- A saved workgroup of the tier becomes a restore candidate again, unless a workgroup of its own is on a core (16 R381). -/
def ckptRevive (s : State) (q : Nat × Wg × List (Nat × Warp)) : State :=
  let onCore := (getWg s q.1).any (fun y => y.onCore)
  if onCore || (mget s.regions q.2.1.rnum).isNone then s
  else
    let st := match q.2.1.status with
      | .saved _ a _ => WgStatus.saved false a (some s.clock)
      | t => t
    let s := { s with warps := s.warps.filter (fun p => p.1 / 16 ≠ q.1) }
    let s := { s with warps := q.2.2.foldl (fun m p => mset m p.1 p.2) s.warps }
    setWg s q.1 { q.2.1 with status := st }

/-- The copy of a RESTORE from the tier (16 R381); from a tier that fails it is a mixture (16 R390). -/
def ckptReturnFrom (ok : Bool) (s : State) : State :=
  let cells := s.mem.filterMap (fun c => (tierOff s c.1).map (fun off => (ckptAt off, c.2)))
  let t := replaceCells (copyAsks ok s) (!ok) ckptKey cells
  if ok then
    let (marks, sets) := match keptAt s with
      | some k => (k.poison, k.wgs)
      | none => ([], [])
    ckptEnd (sets.foldl ckptRevive { t with poison := t.poison.filter (fun gr => !ckptGranule gr) ++ marks }) 0 ckptMib
  else ckptEnd t 3 t.ckpt.mib

/-- The copy of a RESTORE, from a tier that is reached or not. -/
def ckptReturn (s : State) : State := ckptReturnFrom (tierReached s) s

/-- Does a checkpoint command copy: a RESTORE, or a START once no workgroup is on a core (16 R381)? -/
def copying (s : State) : Bool := s.ckpt.busy = 2 || (s.ckpt.busy = 1 && !s.wgs.any (fun p => p.2.onCore))

/-- Blocks of 4 KiB in a copy. -/
def ckptBlocks : Nat := 256 * ckptMib

/-- Has a copy over link windows, all of which are reached, blocks to move (15 R362)? -/
def blocksLeft (s : State) : Bool := ckptTier s = 1 && tierReached s && s.ckpt.blocks < ckptBlocks

/-- The next block of a copy over link windows asks for admission, or, once its request has left, has been moved (15 R362, R363). -/
def moveBlock (s : State) : State :=
  if !blocksLeft s then s
  else
    let off := 4096 * s.ckpt.blocks
    let k := tierKey s off
    let acc := syncAcc ckptWho true
    if reqGone s acc k then
      let s := if off < Config.hbmBytes then askRange s (hbmKey off) 4096 else s
      let s := endAccess s acc
      { s with ckpt := { s.ckpt with blocks := s.ckpt.blocks + 1, mib := (s.ckpt.blocks + 1) / 256 } }
    else
      let ws := tierWindows s
      let links := bits (ws.getD (s.ckpt.blocks % ws.length) 0) 98 12
      askPeer s acc (syncAgent ckptWho) links k (if s.ckpt.busy = 1 then 4096 else 0) (if s.ckpt.busy = 1 then 0 else 4096)

/-- The copy under way goes on, a turn of the machine: MiB are copied, which MIB counts, over link windows as far as their requests have
left, or the destination fails (16 R390). -/
def ckptMove (mib : Option Nat) (s : State) : State :=
  if !copying s then s
  else match mib with
    | some n => if ckptTier s = 1 then (List.range (256 * n)).foldl (fun s _ => moveBlock s) s
      else { s with ckpt := { s.ckpt with mib := min (s.ckpt.mib + n) ckptMib } }
    | none => if s.ckpt.busy = 1 then ckptCopyTo false s else ckptReturnFrom false s

/-- A copy that has moved its blocks ends; one that has not goes on. -/
def ckptGoOn (s : State) : State :=
  if blocksLeft s then moveBlock s else if s.ckpt.busy = 1 then ckptCopy s else ckptReturn s

/-- CHECKPOINT_DONE: a START waits until no workgroup is on a core; the copy is made, over link windows once its blocks have moved; a
command ends (16 R381, R390). -/
def execCheckpointDone (s : State) : Out :=
  if s.ckpt.busy = 1 then
    let s := ckptStopAll s
    .next (if copying s then ckptGoOn s else s)
  else if s.ckpt.busy = 2 then .next (ckptGoOn s)
  else .next s

end Sys2Proof.Machine
end

