-- ==== Sys2Proof/Machine/Firmware.lean ====
section
/-!
DEFINITION. The firmware mailbox (16 R384, R391) and attestation (16 R385).
-/

namespace Sys2Proof.Machine

/-- A write to FWCMD (16 R391): discarded while BUSY; UPDATE of a reserved image, of more than 64 MiB, or from beyond device memory, is
refused (log 67). -/
def writeFwcmd (v : Word64) (s : State) : State :=
  if s.fw.busy then s
  else
    let f := { s.fw with image := bits v.toNat 2 2 }
    if v.toNat % 4 ≠ 1 then { s with fw := f }
    else if 2 ≤ f.image || 2 ^ 26 < f.len || Config.hbmBytes < f.src.toNat + f.len then { s with fw := { f with status := 1 } }
    else { s with fw := { f with busy := true } }

/-- UPDATE: a write to FWCMD with OP 1 (16 R391). -/
def execUpdate (v : Word64) (s : State) : Out := .next (if v.toNat % 4 = 1 then writeFwcmd v s else s)

/-- The image of a slot as one number. -/
def slotImage (s : State) (slot : Nat) : Nat := readNat s.mem (fwKey slot 0) (mgetD s.fw.lens slot 0)

/-- The version that the staged image carries. -/
def stagedVersion (s : State) : Nat := (Config.imageVersion s.fw.len (readNat s.mem (hbmKey s.fw.src.toNat) s.fw.len)).toNat

/-- The staged image is written to the inactive slot of IMAGE (16 R391); where that fails, each byte of the slot is the one before or
the one written, as free values say (log 67). -/
def writeSlot (s : State) (fails : Bool) : State :=
  let o := otherSlot s.fw s.fw.image
  let src := hbmKey s.fw.src.toNat
  let new := (s.mem.filter (fun c => src ≤ c.1 && c.1 < src + s.fw.len)).map (fun c => (c.1 - src + fwKey o 0, c.2))
  let t := replaceCells (askRange s src s.fw.len) fails (fun k => fwKey o 0 ≤ k && k < fwKey (o + 1) 0) new
  { t with fw := { t.fw with lens := mput t.fw.lens o s.fw.len 0 } }

/-- The slot of an image that an update has written; on success it becomes the active one (16 R391). -/
def finishUpdate (f : Fw) (status version : Nat) : Fw :=
  let o := otherSlot f f.image
  let f := { f with busy := false, status := BitVec.ofNat 4 status, vers := mput f.vers o version 0
                    bad := f.bad.filter (· ≠ o) }
  if status = 0 then
    let fresh := if f.fresh.contains f.image then f.fresh else f.fresh ++ [f.image]
    if f.image = 0 then { f with bSlot := !f.bSlot, fresh := fresh } else { f with chSlot := !f.chSlot, fresh := fresh }
  else if status = 3 then f
  else { f with bad := f.bad ++ [o] }

/-- FIRMWARE_UPDATE_DONE: the staged image has been copied to the inactive slot and verified: 0 verified, 2 the signature failed, 4 the
write of the slot failed. A version below the rollback counter is refused (16 R384, R391). The version is the one that the staged image
carries, whatever the event says; that of a slot whose check or write failed is a free value (log 67). -/
def execFirmwareUpdateDone (status _version : Nat) (s : State) : Out :=
  let v := stagedVersion s
  if !s.fw.busy then .next s
  else if status = 2 || status = 4 then
    let (w, s) := freshFree (writeSlot s (status = 4))
    .next { s with fw := finishUpdate s.fw status (w.toNat % 65536) }
  else
    let s := writeSlot s false
    .next { s with fw := finishUpdate s.fw (if v < s.fw.rollback then 3 else 0) v }

/-- What GET_MEASUREMENTS measures (16 R385): the ROM, both images that are active with the versions of all slots, the rollback counter
and the locked entry of each TDI. -/
def evidenceOf (s : State) : Evidence where
  rom := Config.romMeasure
  images := [0, 1].map (fun i => let slot := activeSlot s.fw i; Config.imageMeasure (mgetD s.fw.lens slot 0) (slotImage s slot))
  vers := s.fw.vers
  rollback := s.fw.rollback
  entries := (s.tdis.filter (fun p => p.2.state ≠ .unlocked)).map (fun p => (p.1, p.2.entry))

/-- GET_MEASUREMENTS (16 R385). -/
def execGetMeasurements (s : State) : Out := .next { s with fw := { s.fw with evidence := some (evidenceOf s) } }

end Sys2Proof.Machine
end

