-- ==== Sys2Proof/Machine/Tdi.lean ====
section
/-!
DEFINITION. Trusted device interfaces (15 R358 to R360): sessions, keys, LOCK_INTERFACE, START_INTERFACE, the entry into
ERROR, and the return to CONFIG_UNLOCKED.
-/

namespace Sys2Proof.Machine

/-- Is t the number of a TDI (15 R353)? -/
def isTdi (t : Nat) : Bool := 1 ≤ t && t ≤ 16

/-- Change a TDI. -/
def modTdi (s : State) (t : Nat) (f : Tdi → Tdi) : State := { s with tdis := mset s.tdis t (f (getTdi s t)) }

/-! ### Sessions and keys (15 R358, R360) -/

/-- SPDM_SESSION_START (15 R358). -/
def execSpdmSessionStart (s : State) : Out := .next (if s.spdm then s else { s with spdm := true, spdmBeat := s.clock })

/-- SPDM_HEARTBEAT: the heartbeat period starts again (15 R360). -/
def execSpdmHeartbeat (s : State) : Out := .next (if s.spdm then { s with spdmBeat := s.clock } else s)

/-- IDE_KM: a TDI's stream is keyed within the session (15 R358); a TDI in ERROR accepts no request (15 R360). -/
def execIdeKm (t : Nat) (s : State) : Out :=
  if !s.spdm || !isTdi t || (getTdi s t).state = .error then .next s
  else .next (modTdi s t (fun d => { d with keyed := true, ideUp := true }))

/-! ### Locking (15 R359) -/

/-- Do two runs of device memory overlap? -/
def overlap (a b : Nat × Nat) : Bool := a.1 < b.1 + b.2 && b.1 < a.1 + a.2

/-- Does a list of runs hold two that overlap? -/
def selfOverlap : List (Nat × Nat) → Bool
  | [] => false
  | r :: rest => rest.any (overlap r) || selfOverlap rest

/-- Has an entry a reserved bit set? -/
def tdiReserved (d : Tdi) : Bool :=
  (List.range 8).any (fun i => tdiField d (0x28 + 2 * i) 11 4 ≠ 0) || tdiField d 0x38 0 64 ≠ 0 ||
  (List.range 16).any (fun i => tdiField d (0x40 + 8 * i) 18 14 ≠ 0 || tdiField d (0x40 + 8 * i) 50 14 ≠ 0)

/-- Is an entry one that LOCK_INTERFACE refuses (15 R359)? -/
def lockRefused (s : State) (t : Nat) : Bool :=
  let d := getTdi s t
  let rs := tdiRuns d
  rs.any (fun r => Config.hbmBytes < r.1 + r.2) || selfOverlap rs ||
  s.tdis.any (fun p => p.1 ≠ t && p.2.state ≠ .unlocked && (tdiRuns p.2).any (fun r => rs.any (overlap r))) ||
  2 ^ 36 < (rs.map (·.2)).foldl (· + ·) 0 || tdiReserved d || (tdiAsids d).any (fun a => ctxRefused (readContext s a))

/-- The answer to a TDISP message. -/
def tdispAnswer (s : State) (ok : Bool) : State := { s with completion := some (.tdisp ok) }

/-- LOCK_INTERFACE: a checked entry is frozen, or the answer is a TDISP error (15 R358, R359). A TDISP message outside an SPDM session
has no effect and no answer: DESIGN CHOICE, log 43. -/
def execLockInterface (t : Nat) (s : State) : Out :=
  if !s.spdm || !isTdi t then .next s
  else if (getTdi s t).state ≠ .unlocked || lockRefused s t then .next (tdispAnswer s false)
  else .next (tdispAnswer (modTdi s t (fun d => { d with state := .locked })) true)

/-- START_INTERFACE: a locked TDI goes to RUN (15 R358); outside a session: DESIGN CHOICE, log 43. -/
def execStartInterface (t : Nat) (s : State) : Out :=
  if !s.spdm || !isTdi t then .next s
  else if (getTdi s t).state ≠ .locked then .next (tdispAnswer s false)
  else .next (tdispAnswer (modTdi s t (fun d => { d with state := .run })) true)

/-! ### ERROR (15 R360) -/

/-- Is a key one of host memory? -/
def ofHost (k : Nat) : Bool := 2 ^ 65 ≤ k && k < 2 ^ 67

/-- Is a workgroup one of some contexts? -/
def ofAsids (s : State) (as : List Nat) (g : Nat) : Bool := (getWg s g).any (fun x => as.contains x.asid)

/-- A load of host memory becomes a late fault PERMISSION TDI. -/
def barLoad (s : State) (l : Load) : State :=
  faultLoad s l ((l.reads.filter (fun r => ofHost r.2.2.1)).map (fun r => (r.1, r.2.1))) 3 7

/-- A store loses its bytes of host memory. -/
def barStore (s : State) (e : Store) : State :=
  let left := e.cells.filter (fun c => !ofHost c.1)
  if left.isEmpty then tokenDone (dropStore s e.id) e.g e.w e.token
  else { s with stores := s.stores.map (fun x => if x.id = e.id then { x with cells := left } else x) }

/-- Is a pending entry of the store queue one that reaches host memory? -/
def storesToHost (e : Store) : Bool :=
  e.cells.any (fun c => ofHost c.1) || (match e.kind with
    | .flush _ => true
    | .st => false)

/-- Transfers of some contexts to and from host memory are aborted (15 R360 item 1); their copy commands meet PERMISSION TDI
when they next translate, which is CAUSE 2. -/
def barTransfers (s : State) (as : List Nat) : State :=
  let mine (g : Nat) : Bool := ofAsids s as g
  let s' := (s.loads.filter (fun l => mine l.g && l.reads.any (fun r => ofHost r.2.2.1))).foldl barLoad s
  let s' := (s.stores.filter (fun e => mine e.g && storesToHost e)).foldl barStore s'
  (s.atoms.filter (fun a => mine a.g && !a.done && ofHost a.key)).foldl (fun s a => refuseAtom s a 3 7) s'

/-- A workgroup of a bound context ends, wherever it is (15 R360 item 4). -/
def barWg (s : State) (g : Nat) : State :=
  match getWg s g with
  | none => s
  | some x => match x.status with
    | .killed _ _ _ _ _ _ => s
    | .ending => s
    | _ => killWg s g 0 2 0 (3 + 7 * 2 ^ 8) 0 0

/-- A triggered doorbell leaves, and its place in its queue's order of waiting with it. -/
def dropRing (s : State) (q : Ring) : State :=
  let s := { s with rings := s.rings.filter (fun r => r.ticket ≠ q.ticket) }
  discardBell (modNode s q.rnum q.node (fun d => { d with waiters := d.waiters.filter (fun v => v ≠ .bell q.ticket) })) q.who

/-- The regions of some contexts launch nothing further (15 R360 item 4). -/
def barRegions (s : State) (as : List Nat) : State :=
  let bar (p : Nat × Region) : Nat × Region :=
    if as.contains (asidOf s p.1) then (p.1, { p.2 with barred := true }) else p
  { s with regions := s.regions.map bar }

/-- A TDI in CONFIG_LOCKED or RUN enters ERROR (15 R360). -/
def tdiError (s : State) (t : Nat) : State :=
  let d := getTdi s t
  if d.state ≠ .locked && d.state ≠ .run then s
  else
    let as := tdiAsids d
    let s := modTdi s t (fun d => { d with state := .error, keyed := false, ideUp := false })
    let s := barTransfers s as
    let s := s.wgs.foldl (fun s p => if as.contains p.2.asid then barWg s p.1 else s) s
    let s := barRegions s as
    reapAll ((s.rings.filter (fun q => q.who = .tdi t)).foldl dropRing s)

/-- STOP_INTERFACE (15 R360); outside a session: DESIGN CHOICE, log 43. -/
def execStopInterface (t : Nat) (s : State) : Out :=
  if !s.spdm || !isTdi t then .next s else .next (tdispAnswer (tdiError s t) true)

/-- IDE_INTEGRITY_FAILURE: on the stream of a TDI that is keyed (15 R360). -/
def execIdeIntegrityFailure (t : Nat) (s : State) : Out :=
  if isTdi t && (getTdi s t).ideUp then .next (tdiError s t) else .next s

/-- The end of the session: every TDI keyed in it goes to ERROR, and its keys are erased (15 R360). -/
def endSpdm (s : State) : State :=
  if !s.spdm then s
  else
    let keyed := (s.tdis.filter (fun p => p.2.keyed)).map (·.1)
    keyed.foldl (fun s t => modTdi (tdiError s t) t (fun d => { d with keyed := false, ideUp := false })) { s with spdm := false }

/-- END_SESSION (15 R360). -/
def execEndSession (s : State) : Out := .next (endSpdm s)

/-- KEY_UPDATE: a failed one ends the session (15 R360). -/
def execKeyUpdate (ok : Bool) (s : State) : Out := .next (if ok then s else endSpdm s)

/-- SPDM_HEARTBEAT_MISSED (15 R360). -/
def execSpdmHeartbeatMissed (s : State) : Out := .next (endSpdm s)

/-! ### Back to CONFIG_UNLOCKED (15 R360) -/

/-- Is something of a workgroup of some contexts left on the device's engines? -/
def boundLeft (s : State) (as : List Nat) : Bool :=
  s.wgs.any (fun p => as.contains p.2.asid && (match p.2.status with
    | .killed _ _ _ _ _ _ => true
    | _ => false)) || as.any (fun a => usesPending s false a)

/-- TDI_UNLOCK_COMPLETE: a TDI in ERROR, or one being reset, has its memory zeroed and its contexts' translations dropped, and
is in CONFIG_UNLOCKED (15 R360); a reset reinitialises its entry (00 R6, 16 R382). -/
def execTdiUnlockComplete (t : Nat) (s : State) : Out :=
  let d := getTdi s t
  let as := tdiAsids d
  if !isTdi t || !(d.state = .error || d.unlocking) || boundLeft s as then .next s
  else
    let s := (tdiRuns d).foldl (fun s r => zeroRange s (hbmKey r.1) r.2) s
    let s := renewWindows (dropTlb s (fun e => as.contains e.asid))
    .next (modTdi s t (fun d => { d with state := .unlocked, unlocking := false, keyed := false, ideUp := false
                                         entry := if d.unlocking then 0 else d.entry }))

end Sys2Proof.Machine
end

