-- ==== Sys2Proof/Machine/Domains.lean ====
section
/-!
DEFINITION. The counting house's domains (15 R368 to R370): tags, the domain table, and the commands of DOMCMD.
-/

namespace Sys2Proof.Machine

/-- Tag of the 64 KiB page that holds a physical address (15 R368). -/
def pageTag (s : State) (pa : Nat) : Nat := mgetD s.dom.tags (pa / 65536) 0

/-- Domain of a hart (15 R368). -/
def hartDomain (s : State) (h : Nat) : Nat := mgetD s.dom.harts h 0

/-- Grant mask of a domain. -/
def grantMask (s : State) (d : Nat) : BitVec 256 := mgetD s.dom.grants d 0

/-- May a hart access a physical address (15 R368)? -/
def domainAllows (s : State) (h pa : Nat) : Bool :=
  pageTag s pa = hartDomain s h || (grantMask s (hartDomain s h)).getLsbD (pageTag s pa)

/-- Page that RETAG and READTAG name. -/
def domPage (s : State) : Nat := s.dom.addr.toNat / 65536

/-- Is the page in HBM? -/
def domPageOk (s : State) : Bool := inHbm (65536 * domPage s) 65536

/-- A domain command is accepted, with its status. -/
def domStart (s : State) (status : Nat) : State :=
  { s with dom := { s.dom with busy := true, status := BitVec.ofNat 8 status } }

/-- The posted writes of harts to a page are performed (15 R369). -/
def flushPage (s : State) (pg : Nat) : State :=
  let meets (q : Requester × Posted) : Bool := match q with
    | (.hart _, .memory as _) => as.any (fun a => a / 65536 = pg)
    | _ => false
  (s.posted.filter meets).foldl (fun s q => match q.2 with
    | .memory as data => pocWrite s ((as.map hbmKey).zip data)
    | _ => s) { s with posted := s.posted.filter (fun q => !meets q) }

/-- RETAG (15 R369, R370): the harts' accesses accepted before it are performed, and away from tag 1 the page is zeroed first. -/
def retagPage (s : State) (tag : Nat) : State :=
  if !domPageOk s then domStart s 1
  else
    let pg := domPage s
    let s := flushPage s pg
    let s := if mgetD s.dom.tags pg 0 = 1 && tag ≠ 1 then zeroRange s (hbmKey (65536 * pg)) 65536 else s
    domStart { s with dom := { s.dom with tags := mput s.dom.tags pg tag 0 } } 0

/-- SETHART (15 R370). -/
def setHart (s : State) (hart d : Nat) : State :=
  domStart { s with dom := { s.dom with harts := mput s.dom.harts hart d 0 } } 0

/-- RELOAD of a domain's table entry (15 R370); a sandbox domain's bits 0 and 1 are held at zero (15 R368). -/
def reloadDomain (s : State) (d : Nat) : State :=
  let a := s.dom.base.toNat / 16384 * 16384 + 64 * d
  if !inHbm a 64 then domStart s 1
  else
    let e := physNat s a 64
    if bits e 257 255 ≠ 0 then domStart s 2
    else
      let sand := e.testBit 256
      let mask : BitVec 256 := BitVec.ofNat 256 (if sand then bits e 0 256 / 4 * 4 else bits e 0 256)
      domStart { s with dom := { s.dom with
        grants := mput s.dom.grants d mask 0
        sandbox := if sand then nub (s.dom.sandbox ++ [d]) else s.dom.sandbox.filter (· ≠ d) } } 0

/-- READTAG (15 R370). -/
def readTag (s : State) : State :=
  if !domPageOk s then domStart s 1
  else domStart { s with dom := { s.dom with tag := BitVec.ofNat 8 (mgetD s.dom.tags (domPage s) 0) } } 0

/-- A write to DOMCMD (15 R370): discarded while BUSY. -/
def writeDomcmd (v : Word64) (s : State) : State :=
  if s.dom.busy then s
  else
    let s := { s with dom := { s.dom with cmd := v &&& 0xFFF00 } }
    let arg := bits v.toNat 8 8
    match v.toNat % 8 with
    | 0 => s
    | 1 => retagPage s arg
    | 2 => setHart s (bits v.toNat 16 4) arg
    | 3 => reloadDomain s arg
    | 4 => readTag s
    | _ => { s with dom := { s.dom with status := 3 } }

/-- RETAG: a write to DOMCMD with OP 1 (15 R369, R370). -/
def execRetag (v : Word64) (s : State) : Out := .next (if v.toNat % 8 = 1 then writeDomcmd v s else s)
/-- SETHART: a write to DOMCMD with OP 2 (15 R370). -/
def execSethart (v : Word64) (s : State) : Out := .next (if v.toNat % 8 = 2 then writeDomcmd v s else s)
/-- RELOAD: a write to DOMCMD with OP 3 (15 R370). -/
def execDomReload (v : Word64) (s : State) : Out := .next (if v.toNat % 8 = 3 then writeDomcmd v s else s)
/-- READTAG: a write to DOMCMD with OP 4 (15 R370). -/
def execReadtag (v : Word64) (s : State) : Out := .next (if v.toNat % 8 = 4 then writeDomcmd v s else s)

/-- DOMCMD_COMPLETE: the command under way is over (15 R370). -/
def execDomcmdComplete (s : State) : Out := .next { s with dom := { s.dom with busy := false } }

end Sys2Proof.Machine
end

