-- ==== Sys2Proof/Machine/HostPort.lean ====
section
/-!
DEFINITION. The host's and the harts' way into the device (15 R353 to R357, R359, R366, R367, R371, 16 R386 to R391): the
control registers of PF BAR0, the BARs, the notify windows, and the harts' accesses.
-/

namespace Sys2Proof.Machine

/-! ### Doorbell pages (15 R357) -/

/-- A read of a requester's doorbell page. -/
def bellRead (s : State) (who : Requester) (off : Nat) : Nat :=
  let b := getBell s who
  match off with
  | 0 => b.addr.toNat
  | 0x10 => (s.rings.filter (fun q => q.who = who)).length % 65536 * 65536 + b.drops % 65536
  | _ => 0

/-- A write to a requester's doorbell page. -/
def bellWrite (who : Requester) (off : Nat) (v : Word64) (s : State) : State :=
  match off with
  | 0 => { s with bells := mset s.bells (bellOf who) { getBell s who with addr := v &&& ~~~31 } }
  | 8 => ringBell who v s
  | _ => s

/-! ### Notify windows (15 R371) -/

/-- The register and the form that an offset of a notify page names: set or add. -/
def notifySlot (off : Nat) : Option (Nat × Bool) :=
  if off % 8 ≠ 0 || 0x1000 ≤ off then none else some (off % 0x800 / 8, 0x800 ≤ off)

/-- May a requester reach a notify register (15 R371)? -/
def notifyAllowed (s : State) (who : Requester) (j : Nat) : Bool :=
  match who with
  | .pf => true
  | .tdi t => (tdiField (getTdi s t) 8 j 1) = 1
  | .hart h => hartDomain s h = 0 || (grantMask s (hartDomain s h)).getLsbD j

/-- A write from outside to a notify register: as NTF.POST, where the requester reaches it (15 R371). -/
def notifyWrite (who : Requester) (j : Nat) (v : Word64) (add : Bool) (s : State) : State :=
  if j < 256 && notifyAllowed s who j then postNotify s j v add else s

/-- A read of a notify register. -/
def notifyRead (s : State) (who : Requester) (j : Nat) : Nat :=
  if j < 256 && notifyAllowed s who j then (mgetD s.notify j 0).toNat else 0

/-- Does a requester's write arrive at all: a TDI in ERROR discards it (15 R360)? -/
def arrives (s : State) (who : Requester) : Bool :=
  match who with
  | .tdi t => (getTdi s t).state ≠ .error
  | _ => true

/-! ### Register groups: reads -/

/-- Bit of a flag. -/
def bit (b : Bool) : Nat := if b then 1 else 0

/-- TDISP state as CTL reads it (15 R359). -/
def TdiState.code : TdiState → Nat
  | .unlocked => 0
  | .locked => 1
  | .run => 2
  | .error => 3

/-- A read of a TDI's entry (15 R359). -/
def tdiRead (s : State) (t off : Nat) : Nat :=
  let d := getTdi s t
  if off = 0 then d.state.code + 4 * bit d.ideUp
  else if off < 0xC0 then tdiField d off 0 64
  else 0

/-- The translation command registers and the fault-store pointers of a stack (15 R356). -/
def stackRead (s : State) (off : Nat) : Nat :=
  let k := off / 0x100 % 16
  if 2 ≤ k then 0
  else
    let f := mgetD s.faultStores k FaultStore.empty
    match off / 0x1000, off % 0x100 with
    | 4, 0 => (mgetD s.host.tlbAddr k 0).toNat
    | 4, 8 => (mgetD s.host.tlbLen k 0).toNat
    | 4, 0x10 => bit (mgetD s.host.tlbBusy k 0 ≠ 0) * 2 ^ 63 + mgetD s.host.tlbAsid k 0 * 4
    | 5, 0 => f.rseq
    | 5, 8 => f.wseq
    | 5, 0x10 => f.drops
    | _, _ => 0

/-- The domain registers (15 R370). -/
def domRead (s : State) (off : Nat) : Nat :=
  match off with
  | 0 => s.dom.base.toNat
  | 8 => s.dom.addr.toNat
  | 0x10 => s.dom.cmd.toNat
  | 0x18 => bit s.dom.busy * 65536 + s.dom.status.toNat * 256 + s.dom.tag.toNat
  | _ => 0

/-- PWRSTAT (16 R386): word m of the levels. -/
def pwrRead (s : State) (m : Nat) : Nat :=
  (List.range 32).foldl (fun n i => n + (mgetD s.lgs (32 * m + i) Lg.empty).plevel % 4 * 2 ^ (2 * i)) 0

/-- Triggers and histograms (16 R388). -/
def trigRead (s : State) (off : Nat) : Nat :=
  if off < 0x40 then (mgetD s.obs.trigs (off / 8) 0).toNat
  else if 0x100 ≤ off && off < 0x100 + 128 * 15 then mgetD s.obs.hist ((off - 0x100) / 8) 0
  else 0

/-- Recorder control and error counters (16 R389). -/
def recRead (s : State) (off : Nat) : Nat :=
  match off with
  | 0 => s.obs.fcause.toNat * 256 + bit s.obs.frozen
  | 8 => s.obs.recsel.toNat
  | 0x10 => (List.range 4).foldl (fun n r => n + mgetD s.obs.recptr r 0 % 256 * 2 ^ (8 * r)) 0
  | 0x100 => s.obs.cecc
  | 0x108 => s.obs.ctrans
  | 0x170 => s.obs.dbdrop
  | 0x178 => s.obs.ddretire
  | _ => if 0x110 ≤ off && off < 0x170 then mgetD s.obs.lreplay ((off - 0x110) / 8) 0 else 0

/-- The checkpoint registers (16 R390). -/
def ckptRead (s : State) (off : Nat) : Nat :=
  match off with
  | 8 => s.ckpt.dst.toNat
  | 0x10 => s.ckpt.win.toNat
  | 0x18 => s.ckpt.img.toNat
  | 0x20 => s.ckpt.mib * 2 ^ 32 + s.ckpt.err.toNat * 16 + bit s.ckpt.done * 2 + bit (s.ckpt.busy ≠ 0)
  | _ => 0

/-- The firmware mailbox (16 R391). -/
def fwRead (s : State) (off : Nat) : Nat :=
  match off with
  | 0 => s.fw.image * 4
  | 8 => s.fw.src.toNat
  | 0x10 => s.fw.len
  | 0x18 => s.fw.rollback * 2 ^ 32 + bit s.fw.chSlot * 512 + bit s.fw.bSlot * 256 + s.fw.status.toNat * 16 + bit s.fw.busy
  | 0x20 => (List.range 4).foldl (fun n i => n + mgetD s.fw.vers i 0 % 65536 * 2 ^ (16 * i)) 0
  | _ => 0

/-- An aligned 8-byte read of the registers from 0x100_0000 on (16 R386). -/
def houseRead (s : State) (off : Nat) : Nat :=
  let o := off % 0x1000
  match off / 0x1000 - 0x1000 with
  | 0 => if o < 480 then pwrRead s (o / 8) else 0
  | 1 => if o = 0 then capStat s else 0
  | 2 => if o = 0 then bit s.obs.dbgen else 0
  | 3 => match o with
    | 0 => s.obs.sampN * 256 + bit s.obs.sampEn
    | 8 => s.obs.sampBase.toNat + s.obs.sampLog
    | 0x10 => s.obs.sampPtr
    | _ => 0
  | 4 => trigRead s o
  | 5 => recRead s o
  | 6 => ckptRead s o
  | 7 => fwRead s o
  | k => if k < 12 then bits (mgetD s.obs.entries (256 * (k - 8) + o / 16) 0).toNat (64 * (o / 8 % 2)) 64 else 0

/-- An aligned 8-byte read of PF BAR0 by a requester (15 R355). -/
def regRead (s : State) (who : Requester) (off : Nat) : Nat :=
  let o := off % 0x1000
  if 0x1000000 ≤ off then houseRead s off % 2 ^ 64
  else if 0xD100 ≤ off && off < 0xE100 then tdiRead s ((off - 0xD000) / 256) (off % 256)
  else match off / 0x1000 with
    | 1 => if o = 0 then s.host.rcmdAddr.toNat else if o = 8 then s.host.rcmdStatus.toNat * 256 + bit s.host.rcmdBusy * 128 else 0
    | 2 => bellRead s who o
    | 3 => if o = 0 then s.host.ctxBase.toNat else 0
    | 4 => stackRead s off
    | 5 => stackRead s off % 2 ^ 64
    | 8 => bits (mgetD (mgetD s.faultStores 0 FaultStore.empty).recs (o / 64) 0).toNat (o % 64 * 8) 64
    | 9 => bits (mgetD (mgetD s.faultStores 1 FaultStore.empty).recs (o / 64) 0).toNat (o % 64 * 8) 64
    | 10 => match notifySlot o with
      | some (j, _) => notifyRead s who j
      | none => 0
    | 11 => if o < 1024 then bits (mgetD s.windows (o / 16) 0).toNat (64 * (o / 8 % 2)) 64 else 0
    | 12 => domRead s o
    | _ => 0

/-! ### Register groups: writes -/

/-- A write to a link window entry (15 R364). -/
def windowWrite (i half : Nat) (v : Word64) (s : State) : State :=
  let old := mgetD s.windows i 0
  let new : BitVec 128 :=
    if half = 0 then BitVec.ofNat 128 (old.toNat / 2 ^ 64 * 2 ^ 64 + v.toNat)
    else BitVec.ofNat 128 (old.toNat % 2 ^ 64 + bits v.toNat 22 24 * 2 ^ 86)
  { s with windows := mput s.windows i new 0 }

/-- What a write to a word of an entry stores: of a run word, not its reserved fields (00 R5, 15 R359). -/
def tdiMask (off : Nat) (v : Word64) : Word64 := if 0x40 ≤ off then v &&& 0x0003FFFF0003FFFF else v

/-- A write to a TDI's entry (15 R359): in any state but CONFIG_UNLOCKED it is discarded and moves the TDI to ERROR. A write to CTL or
to bytes 0xC0 to 0xFF is discarded and leaves the state as it is, of a locked entry too: DESIGN CHOICE, log 72. -/
def tdiWrite (t off : Nat) (v : Word64) (s : State) : State :=
  if off < 8 || 0xC0 ≤ off then s
  else if (getTdi s t).state ≠ .unlocked then tdiError s t
  else if off = 0x38 then s
  else modTdi s t (fun d =>
    let k := 2 ^ (8 * (off - 8))
    let e := d.entry.toNat
    { d with entry := BitVec.ofNat 1472 (e - bits e (8 * (off - 8)) 64 * k + (tdiMask off v).toNat * k) })

/-- Writes to the translation command registers and the fault-store pointers of a stack (15 R356). -/
def stackWrite (off : Nat) (v : Word64) (s : State) : State :=
  let k := off / 0x100 % 16
  if 2 ≤ k then s
  else match off / 0x1000, off % 0x100 with
    | 4, 0 => { s with host := { s.host with tlbAddr := mput s.host.tlbAddr k v 0 } }
    | 4, 8 => { s with host := { s.host with tlbLen := mput s.host.tlbLen k v 0 } }
    | 4, 0x10 => tlbWrite k v s
    | 5, 0 => writeFsrd k v s
    | _, _ => s

/-- Writes to the sampling registers (16 R387). -/
def sampWrite (off : Nat) (v : Word64) (s : State) : State :=
  match off with
  | 0 => writeSampctl v s
  | 8 => { s with obs := { s.obs with sampBase := v &&& 0x000FFFFFFFFFF000, sampLog := max 12 (min 30 (bits v.toNat 0 5)) } }
  | _ => s

/-- Writes to the triggers and to HCLR (16 R388). -/
def trigWrite (off : Nat) (v : Word64) (s : State) : State :=
  if off < 0x40 then
    let old := mgetD s.obs.trigs (off / 8) 0
    { s with obs := { s.obs with trigs := mset s.obs.trigs (off / 8) ((old &&& 0xFFFFFFFF00000000) ||| (v &&& 0x1FFF)) } }
  else if off = 0x40 then clearHist v s
  else s

/-- Writes to the recorder control (16 R389). -/
def recWrite (off : Nat) (v : Word64) (s : State) : State :=
  match off with
  | 0 => if v.getLsbD 1 then unfreezeAll s else s
  | 8 => { s with obs := { s.obs with recsel := (v &&& 0x9F9F9F9F).setWidth 32 } }
  | _ => s

/-- Writes to the checkpoint registers (16 R390). -/
def ckptWrite (off : Nat) (v : Word64) (s : State) : State :=
  match off with
  | 0 => if v.toNat % 4 = 1 then ckptBegin 1 s else if v.toNat % 4 = 2 then ckptBegin 2 s else s
  | 8 => { s with ckpt := { s.ckpt with dst := v &&& 0xFFFFFFFFFFFFF003 } }
  | 0x10 => { s with ckpt := { s.ckpt with win := (v &&& 0xFFFFFFF).setWidth 28 } }
  | 0x18 => { s with ckpt := { s.ckpt with img := v &&& 0xFFFFFFFFFFE0FFFF } }
  | 0x20 => if v.getLsbD 1 then { s with ckpt := { s.ckpt with done := false } } else s
  | _ => s

/-- Writes to the firmware mailbox (16 R391). -/
def fwWrite (off : Nat) (v : Word64) (s : State) : State :=
  match off with
  | 0 => writeFwcmd v s
  | 8 => { s with fw := { s.fw with src := v &&& 0xFFFFFFFFFFFFF000 } }
  | 0x10 => { s with fw := { s.fw with len := bits v.toNat 0 32 } }
  | _ => s

/-- Writes to the domain registers (15 R370). -/
def domWrite (off : Nat) (v : Word64) (s : State) : State :=
  match off with
  | 0 => { s with dom := { s.dom with base := v &&& 0xFFFFFFFFFFFFC000 } }
  | 8 => { s with dom := { s.dom with addr := v &&& 0xFFFFFFFFFFFF0000 } }
  | 0x10 => writeDomcmd v s
  | _ => s

/-- An aligned 8-byte write to the registers from 0x100_0000 on (16 R386). -/
def houseWrite (off : Nat) (v : Word64) (s : State) : State :=
  let o := off % 0x1000
  match off / 0x1000 - 0x1000 with
  | 2 => if o = 0 then writeDbgctl v s else s
  | 3 => sampWrite o v s
  | 4 => trigWrite o v s
  | 5 => recWrite o v s
  | 6 => ckptWrite o v s
  | 7 => fwWrite o v s
  | _ => s

/-- An aligned 8-byte write to PF BAR0 by a requester (15 R355). -/
def regWrite (who : Requester) (off : Nat) (v : Word64) (s : State) : State :=
  let o := off % 0x1000
  if 0x1000000 ≤ off then houseWrite off v s
  else if 0xD100 ≤ off && off < 0xE100 then tdiWrite ((off - 0xD000) / 256) (off % 256) v s
  else match off / 0x1000 with
    | 1 => if o = 0 then (if s.host.rcmdBusy then s else { s with host := { s.host with rcmdAddr := v &&& ~~~255 } })
           else if o = 8 then rcmdWrite v s else s
    | 2 => bellWrite who o v s
    | 3 => if o = 0 then { s with host := { s.host with ctxBase := v &&& 0xFFFFFFFFFFFE0000, ctxSet := true } } else s
    | 4 => stackWrite off v s
    | 5 => stackWrite off v s
    | 10 => match notifySlot o with
      | some (j, add) => notifyWrite who j v add s
      | none => s
    | 11 => if o < 1024 then windowWrite (o / 16) (o / 8 % 2) v s else s
    | 12 => domWrite o v s
    | _ => s

/-! ### BARs (15 R353, R354) -/

/-- All ones in n bytes. -/
def ones (n : Nat) : Nat := 2 ^ (8 * n) - 1

/-- Answer a requester. -/
def answer (s : State) (c : Completion) : State := { s with completion := some c }

/-- The device physical addresses of n bytes of a BAR2, from an offset on; none where a byte is not mapped. -/
def barAddrs (s : State) (who : Requester) (off n : Nat) : Option (List Nat) :=
  (List.range n).foldr (fun i acc => match stagingAddr s who (off + i), acc with
    | some a, some l => some (a :: l)
    | _, _ => none) (some [])

/-- The bytes at some physical addresses, as a little-endian number. -/
def bytesAt (s : State) (as : List Nat) : Nat := as.foldr (fun a n => (pocByte s (hbmKey a)).toNat + 256 * n) 0

/-- A read of device memory for the host or a hart is performed, at the memory-side slices. -/
def physRead (s : State) (as : List Nat) : State :=
  let s := touchAll (askAll s (as.map hbmKey)) (nub (as.map hbmUnit))
  answer s (if as.any (fun a => poisonedAt s (hbmKey a) 1) then .poisoned else .data (bytesAt s as))

/-- The page of a VF's BAR0 that an 8-byte aligned offset lies in (15 R354): doorbells, notify registers, or nothing. -/
def vfRead (s : State) (t off : Nat) : Nat :=
  if off < 0x1000 then bellRead s (.tdi t) off
  else if off < 0x2000 then (match notifySlot (off - 0x1000) with
    | some (j, _) => notifyRead s (.tdi t) j
    | none => 0)
  else ones 8

/-- A write to a VF's BAR0. -/
def vfWrite (t off : Nat) (v : Word64) (s : State) : State :=
  if off < 0x1000 then bellWrite (.tdi t) off v s
  else if off < 0x2000 then (match notifySlot (off - 0x1000) with
    | some (j, add) => notifyWrite (.tdi t) j v add s
    | none => s)
  else s

/-! ### Requests that wait (08 R219, R220, 07 R180) -/

/-- A hart's atomic at the hub die (08 R220, R224): applied once, its old value recorded until the hart acknowledges the response. -/
def hartAtomic (s : State) (h pa n op type : Nat) (data : Word64) : State :=
  let key := hbmKey pa
  let s := touchAll (askAll s [key]) (nub ((List.range n).map (fun i => hbmUnit (pa + i))))
  if poisonedAt s key n then answer s .poisoned
  else
    let old : Word64 := BitVec.ofNat 64 (pocNat s key n)
    let s := putCells s (cellsOf key n (atomNew op type old data 0).toNat)
    answer { s with dedup := s.dedup ++ [⟨s.nextId, hubOf key, .hart h s.nextId, [(0, old)]⟩], nextId := s.nextId + 1 } (.data old.toNat)

/-- A load-reserved: a load that holds a reservation on its bytes (08 R220; log 58). -/
def hartReserve (s : State) (h pa n : Nat) : State :=
  let as := (List.range n).map (pa + ·)
  let t := physRead s as
  { t with hartRes := mset t.hartRes h (pa, n, bytesAt s as) }

/-- A write to device memory at the memory-side slices. -/
def physWrite (s : State) (as : List Nat) (data : List Byte) : State :=
  pocWrite (touchAll s (nub (as.map hbmUnit))) ((as.map hbmKey).zip data)

/-- A store-conditional: where the reservation is held on its bytes and they are as they were it may store, a free choice (log 58); it
answers 0 if it has stored, 1 if not, and the reservation is gone. -/
def hartConditional (s : State) (h pa n : Nat) (data : List Byte) : State :=
  let as := (List.range n).map (pa + ·)
  let held := mget s.hartRes h = some (pa, n, bytesAt s as)
  let (v, s) := freshFree { s with hartRes := mdel s.hartRes h }
  if held && v.getLsbD 0 then answer (physWrite s as data) (.data 0) else answer s (.data 1)

/-- An aligned 8-byte write to a requester's registers: the PF's BAR0, a VF's, or a hart's map. -/
def writeReg (who : Requester) (off : Nat) (v : Word64) (s : State) : State :=
  match who with
  | .tdi t => vfWrite t off v s
  | w => regWrite w off v s

/-- The physical addresses that a request touches. -/
def Posted.addrs (p : Posted) : List Nat :=
  match p with
  | .memory as _ => as
  | .read as => as
  | .amo pa n _ _ _ => (List.range n).map (pa + ·)
  | .reserve pa n => (List.range n).map (pa + ·)
  | .conditional pa n _ => (List.range n).map (pa + ·)
  | .register _ _ => []

/-- The pseudo-channels that a request needs LIT (07 R180). -/
def Posted.units (p : Posted) : List Nat := nub (p.addrs.map hbmUnit)

/-- May a request be performed: its pseudo-channels are LIT, no access waits there that arrived before it (07 R180), and an AMO's
hub die has room for its entry (08 R224)? -/
def postReady (s : State) (who : Requester) (p : Posted) : Bool :=
  !lampHeld s (reqWho who) p.units && (match p with
    | .amo pa _ _ _ _ => dedupRoom s (hubOf (hbmKey pa))
    | _ => true)

/-- A request is performed, at the memory-side slices or in a register (08 R219, R220); what a TDI in ERROR asks is discarded, and a
read of it is answered poisoned (15 R360). -/
def doPosted (s : State) (who : Requester) (p : Posted) : State :=
  let s := lampLeave s (reqWho who)
  let h := match who with
    | .hart h => h
    | _ => 0
  if !arrives s who then (match p with
    | .read _ => answer s .poisoned
    | _ => s)
  else match p with
    | .memory as data => physWrite s as data
    | .register off v => writeReg who off v s
    | .read as => physRead s as
    | .amo pa n op type data => hartAtomic s h pa n op type data
    | .reserve pa n => hartReserve s h pa n
    | .conditional pa n data => hartConditional s h pa n data

/-- Has a requester requests that wait? -/
def hasPosted (s : State) (who : Requester) : Bool := s.posted.any (fun q => q.1 = who)

/-- A request that cannot be performed waits behind its requester's earlier ones; the first of them joins the queue of its
pseudo-channels (07 R180). -/
def await (s : State) (who : Requester) (p : Posted) : State :=
  let t := if hasPosted s who then s else lampJoin s (reqWho who) p.units
  { t with posted := t.posted ++ [(who, p)] }

/-- A request is performed, or waits. -/
def post (s : State) (who : Requester) (p : Posted) : State :=
  if !hasPosted s who && postReady s who p then doPosted s who p else await s who p

/-- The requests that wait, in their order, are performed as far as they can be, and the others wait on. -/
def settlePosted : List (Requester × Posted) → State → State
  | [], s => s
  | q :: rest, s => settlePosted rest (post s q.1 q.2)

/-- Requests whose pseudo-channels have woken are performed. -/
def postedWork (s : State) : State := if s.posted.isEmpty then s else settlePosted s.posted { s with posted := [] }

/-- Bytes of a requester's BAR0. -/
def bar0Size (who : Requester) : Nat :=
  match who with
  | .pf => 2 ^ 26
  | _ => 0x2000

/-- Is a request to a TDI in RUN one that its keyed stream does not protect (15 R358)? -/
def unprotected (s : State) (who : Requester) (ide : Bool) : Bool :=
  match who with
  | .tdi t => (getTdi s t).state = .run && !(ide && (getTdi s t).ideUp)
  | _ => false

/-- Is a requester a function of the port: the PF, or a VF? -/
def isFunction (who : Requester) : Bool :=
  match who with
  | .pf => true
  | .tdi t => isTdi t
  | .hart _ => false

/-- Has the PCIe link trained (16 R383)? -/
def linked (s : State) : Bool := s.host.width ≠ 0

/-- May a requester make a request at all: a function of the port once the link has trained, a hart once the counting house runs (16
R383)? -/
def mayAsk (s : State) (who : Requester) : Bool :=
  match who with
  | .hart h => h < 16 && s.fw.house
  | w => isFunction w && linked s

/-- The word of the bytes of a write, the lowest first. -/
def wordOf (data : List Byte) : Word64 := BitVec.ofNat 64 (bytesNat data)

/-- Bytes that one write request carries at most (15 R353). -/
def maxPayload : Nat := 512

/-- A write that a function of the port receives: Unsupported Request where the stream of a TDI in RUN does not protect it (15 R358),
discarded by a TDI in ERROR (15 R360). -/
def hostWrite (who : Requester) (ide : Bool) (p : Posted) (s : State) : State :=
  if !mayAsk s who || !arrives s who then s
  else if unprotected s who ide then answer s .unsupported
  else post s who p

/-- REGISTER_WRITE: the PF writes a control register (15 R355); a misaligned or unmapped one is discarded. -/
def execRegisterWrite (off : Nat) (v : Word64) (s : State) : Out :=
  .next (if off % 8 = 0 && off < 2 ^ 26 then hostWrite .pf false (.register off v) s else s)

/-- Offset of DBTRIG in a requester's BAR0 or map (15 R354, R355). -/
def bellOffset (who : Requester) : Nat :=
  match who with
  | .tdi _ => 8
  | _ => 0x2008

/-- DOORBELL: a write to a requester's DBTRIG (13 R307, 15 R357, R358, R360). -/
def execDoorbell (sender : Sender) (word : Word64) (s : State) : Out :=
  .next (hostWrite sender.who sender.ide (.register (bellOffset sender.who) word) s)

/-- Offset of the set or the add address of a notify register in a requester's BAR0 or map (15 R354, R355, R371). -/
def notifyOffset (who : Requester) (j : Nat) (add : Bool) : Nat :=
  (match who with
   | .tdi _ => 0x1000
   | _ => 0xA000) + 8 * j + (if add then 0x800 else 0)

/-- A write to the notify window (15 R371): a hart that its domain does not let reach the register takes the access fault. -/
def notifyPost (who : Requester) (j : Nat) (v : Word64) (add ide : Bool) (s : State) : State :=
  let barred : Bool := match who with
    | .hart _ => !notifyAllowed s who j
    | _ => false
  if 256 ≤ j then s
  else if mayAsk s who && barred then answer s (.accessFault .store)
  else hostWrite who ide (.register (notifyOffset who j add) v) s

/-- NOTIFY_WINDOW_SET (15 R371). -/
def execNotifyWindowSet (sender : Sender) (j : Nat) (v : Word64) (s : State) : Out :=
  .next (notifyPost sender.who j v false sender.ide s)
/-- NOTIFY_WINDOW_ADD (15 R371). -/
def execNotifyWindowAdd (sender : Sender) (j : Nat) (v : Word64) (s : State) : Out :=
  .next (notifyPost sender.who j v true sender.ide s)

/-- HOST_BAR_READ: the host reads n bytes of a BAR (15 R353 to R360), behind its posted writes (08 R219). -/
def execHostBarRead (who : Requester) (bar off n : Nat) (ide : Bool) (s : State) : Out :=
  if !isFunction who || !linked s || hasPosted s who then .next s
  else if !arrives s who then .next (answer s .poisoned)
  else if unprotected s who ide then .next (answer s .unsupported)
  else match bar with
    | 0 =>
      if n ≠ 8 || off % 8 ≠ 0 || bar0Size who < off + 8 then .next (answer s (.data (ones n)))
      else .next (answer s (.data (match who with
        | .tdi t => vfRead s t off
        | w => regRead s w off)))
    | 2 => match barAddrs s who off n with
      | some as => .next (post s who (.read as))
      | none => .next (answer s (.data (ones n)))
    | _ => .next (answer s (.data (ones n)))

/-- HOST_BAR_WRITE: the host writes bytes to a BAR (08 R219, 15 R353 to R360); a request of more than 512 bytes is none that the port
takes. -/
def execHostBarWrite (who : Requester) (bar off : Nat) (data : List Byte) (ide : Bool) (s : State) : Out :=
  if !isFunction who || maxPayload < data.length then .next s
  else match bar with
    | 0 =>
      let v := wordOf data
      if data.length ≠ 8 || off % 8 ≠ 0 || bar0Size who < off + 8 then
        .next (if unprotected s who ide && linked s && arrives s who then answer s .unsupported else s)
      else .next (hostWrite who ide (.register off v) s)
    | 2 => match barAddrs s who off data.length with
      | some as => .next (hostWrite who ide (.memory as data) s)
      | none => .next (if unprotected s who ide && linked s && arrives s who then answer s .unsupported else s)
    | _ => .next s

/-- HOST_ATOMICOP: an AtomicOp to a BAR is an Unsupported Request and changes nothing (15 R353). -/
def execHostAtomicop (who : Requester) (_bar _off : Nat) (s : State) : Out :=
  .next (if isFunction who && linked s then answer s .unsupported else s)

/-- The rates of PCIe 7.0, in units of 100 MT/s: 2.5, 5, 8, 16, 32, 64 and 128 GT/s (15 R353). -/
def pcieRates : List Nat := [25, 50, 80, 160, 320, 640, 1280]

/-- PCIE_LINK_TRAIN: x16, x8 or x4, at 128 GT/s or a lower rate, in flit mode above 32 GT/s (15 R353); after the counting house's
firmware in bring-up (16 R383). -/
def execPcieLinkTrain (width rate : Nat) (s : State) : Out :=
  if s.fw.boot = 3 && (width = 16 || width = 8 || width = 4) && pcieRates.contains rate then
    .next { s with host := { s.host with width := width, rate := rate, flit := 320 < rate } }
  else .next s

/-! ### Harts (15 R366 to R368, R371, 08 R220) -/

/-- The kind of a hart's access fault: an AMO's and a store-conditional's is a store's, a load-reserved's a load's. -/
def faultKind (op : HartOp) : FaultKind :=
  match op with
  | .load => .load
  | .lr _ => .load
  | .fetch => .fetch
  | _ => .store

/-- Subcode of PERMISSION for a kind of access (14 R323). -/
def accessSub (k : FaultKind) : Nat :=
  match k with
  | .load => 1
  | .store => 2
  | .fetch => 3

/-- A hart's access that its domain forbids: the access fault of its kind, recorded in the West fault store (15 R368, 14 R342). -/
def domainFault (s : State) (h : Nat) (kind : FaultKind) (pa : Nat) : State :=
  answer (writeFaultRec s 0 { type := 6, cause := 3 + accessSub kind * 256, faddr := BitVec.ofNat 64 pa, core := 0x1F0 + h })
    (.accessFault kind)

/-- A hart's access to device memory: each byte of it checked against the page's tag (15 R368). -/
def hartMemory (s : State) (h : Nat) (op : HartOp) (pa n : Nat) (data : List Byte) : State :=
  let as := (List.range n).map (pa + ·)
  match as.find? (fun a => !domainAllows s h a) with
  | some a => domainFault s h (faultKind op) a
  | none =>
    match op with
    | .load => post s (.hart h) (.read as)
    | .fetch => post s (.hart h) (.read as)
    | .store => post s (.hart h) (.memory as data)
    | .amo o sg _ _ => post s (.hart h) (.amo pa n o ((if n = 8 then 2 else 0) + sg.toNat) (wordOf data))
    | .lr _ => post s (.hart h) (.reserve pa n)
    | .sc _ => post s (.hart h) (.conditional pa n data)
    | .fence => s
    | .reset => s

/-- A hart's access to the control layout (15 R366, R367, R371): loads and stores alone; registers take no other access. -/
def hartControl (s : State) (h : Nat) (op : HartOp) (off n : Nat) (data : List Byte) : State :=
  let page := off / 0x1000
  let free := page = 2 || (page = 10 && (notifySlot (off % 0x1000 / 8 * 8)).any (fun q => notifyAllowed s (.hart h) q.1))
  if hartDomain s h ≠ 0 && !free then answer s (.accessFault (faultKind op))
  else match op with
    | .load => if n ≠ 8 || off % 8 ≠ 0 then answer s (.data (ones n)) else answer s (.data (regRead s (.hart h) off))
    | .store => if n ≠ 8 || off % 8 ≠ 0 then s else post s (.hart h) (.register off (wordOf data))
    | op => answer s (.accessFault (faultKind op))

/-- Does a hart's operation give bytes: a store, an AMO and a store-conditional do? -/
def hartGives (op : HartOp) : Bool :=
  match op with
  | .store => true
  | .amo _ _ _ _ => true
  | .sc _ => true
  | _ => false

/-- Does a hart's operation wait for its earlier stores: all but a store do (08 R220)? -/
def hartWaits (op : HartOp) : Bool :=
  match op with
  | .store => false
  | _ => true

/-- HART_ACCESS: what a hart does to n bytes at a physical address of its map (15 R366 to R368): a hart's operations are performed in
its order, so that its fences and its acquires and releases are met (08 R220). A reset of the hart acknowledges its entries in the
deduplication tables (08 R225). -/
def execHartAccess (hart : Nat) (op : HartOp) (pa n : Nat) (data : List Byte) (s : State) : Out :=
  if !mayAsk s (.hart hart) || (hartGives op && data.length ≠ n) || (hartWaits op && hasPosted s (.hart hart)) then .next s
  else match op with
    | .fence => .next s
    | .reset => .next { s with
        dedup := s.dedup.filter (fun d => match d.source with
          | .hart h _ => h ≠ hart
          | _ => true)
        hartRes := mdel s.hartRes hart }
    | op =>
      if pa + n ≤ Config.hbmBytes then .next (hartMemory s hart op pa n data)
      else if 0xF000000000 ≤ pa && pa + n ≤ 0xF000000000 + 2 ^ 26 then .next (hartControl s hart op (pa - 0xF000000000) n data)
      else .next (answer s (.accessFault (faultKind op)))

end Sys2Proof.Machine
end

