-- ==== Sys2Proof/Machine/Reset.lean ====
section
/-!
DEFINITION. The resets (16 R382, R389).
-/

namespace Sys2Proof.Machine

/-- Is a byte one of memory outside the device, of the host or of a peer, or of a firmware slot? -/
def outside (k : Nat) : Bool := (2 ^ 65 ≤ k && k < 2 ^ 66) || (2 ^ 70 ≤ k && k < 2 ^ 71) || (2 ^ 80 ≤ k && k < 2 ^ 100)

/-- The firmware after a reset: registers at their reset values, bring-up before its first step; images, slots, versions and the fused
counter stay (16 R383, R384, R391). -/
def Fw.restart (f : Fw) : Fw :=
  { Fw.reset with chSlot := f.chSlot, bSlot := f.bSlot, rollback := f.rollback, vers := f.vers, lens := f.lens, fresh := f.fresh, bad := f.bad }

/-- The machine after a reset that reaches every block but what is outside the device and the firmware images: the model's own
fields go on, dies and supplies are as hot and as low as they were, and the link epoch has been incremented (08 R225). -/
def resetAll (s : State) : State :=
  let b := { Bellows.reset with trips := s.bellows.trips, droops := s.bellows.droops }
  let t := { State.reset with
    sched := s.sched
    freeCtr := s.freeCtr
    nextId := s.nextId
    mem := s.mem.filter (fun c => outside c.1)
    poison := s.poison.filter (fun gr => 2 ^ 200 ≤ gr && outside (64 * (gr - 2 ^ 200)))
    bellows := b
    ckpt := { Ckpt.reset with sets := s.ckpt.sets }
    epoch := s.epoch + 1
    fw := s.fw.restart }
  s.bellows.trips.foldl clampDie t

/-- POWER_ON_RESET (16 R382). -/
def execPowerOnReset (s : State) : Out := .next (resetAll s)

/-- PCIE_FUNDAMENTAL_RESET, and PF FLR: the error counters stay, since this reset does not reach every block (16 R382, R389). -/
def execPcieFundamentalReset (s : State) : Out :=
  let t := resetAll s
  .next { t with obs := { t.obs with cecc := s.obs.cecc, ctrans := s.obs.ctrans, lreplay := s.obs.lreplay
                                     dbdrop := s.obs.dbdrop, ddretire := s.obs.ddretire }
                 fw := { t.fw with evidence := s.fw.evidence } }

/-- VF_FLR: a TDI returns to CONFIG_UNLOCKED, from a locked state or RUN by way of ERROR (15 R360, 16 R382). -/
def execVfFlr (t : Nat) (s : State) : Out :=
  if !isTdi t then .next s
  else
    let s := tdiError s t
    let s := (s.rings.filter (fun q => q.who = .tdi t)).foldl dropRing s
    .next (modTdi { s with bells := mdel s.bells (bellOf (.tdi t)) } t (fun d => { d with unlocking := true }))

end Sys2Proof.Machine
end

