-- ==== Sys2Proof/Machine/Dispatch.lean ====
section
/-!
DEFINITION. Dispatch: the meaning of each constructor of Instr, by one direct call.
-/

namespace Sys2Proof.Machine

/-- The effect of an instruction, or of a step of another agent. -/
def exec (i : Instr) (s : State) : Host.Outcome State Fault Refusal :=
  match i with
  | .nop f => Sys2Proof.Machine.execNop f s
  | .bra f => Sys2Proof.Machine.execBra f s
  | .brx f => Sys2Proof.Machine.execBrx f s
  | .join f => Sys2Proof.Machine.execJoin f s
  | .call f => Sys2Proof.Machine.execCall f s
  | .ret f => Sys2Proof.Machine.execRet f s
  | .exit f => Sys2Proof.Machine.execExit f s
  | .yield f => Sys2Proof.Machine.execYield f s
  | .sleep f => Sys2Proof.Machine.execSleep f s
  | .sleepExpiry g w e => Sys2Proof.Machine.execSleepExpiry g w e s
  | .ballot f => Sys2Proof.Machine.execBallot f s
  | .vote f => Sys2Proof.Machine.execVote f s
  | .mskOp f => Sys2Proof.Machine.execMskOp f s
  | .mskSave f => Sys2Proof.Machine.execMskSave f s
  | .mskWset f => Sys2Proof.Machine.execMskWset f s
  | .popcM f => Sys2Proof.Machine.execPopcM f s
  | .firstM f => Sys2Proof.Machine.execFirstM f s
  | .leader f => Sys2Proof.Machine.execLeader f s
  | .shfl f => Sys2Proof.Machine.execShfl f s
  | .bcast f => Sys2Proof.Machine.execBcast f s
  | .lscan f => Sys2Proof.Machine.execLscan f s
  | .lred f => Sys2Proof.Machine.execLred f s
  | .getsr f => Sys2Proof.Machine.execGetsr f s
  | .setsr f => Sys2Proof.Machine.execSetsr f s
  | .modeLw f => Sys2Proof.Machine.execModeLw f s
  | .modeLwUnblock core => Sys2Proof.Machine.execModeLwUnblock core s
  | .iadd f => Sys2Proof.Machine.execIadd f s
  | .isub f => Sys2Proof.Machine.execIsub f s
  | .iaddc f => Sys2Proof.Machine.execIaddc f s
  | .imul f => Sys2Proof.Machine.execImul f s
  | .imulh f => Sys2Proof.Machine.execImulh f s
  | .imad f => Sys2Proof.Machine.execImad f s
  | .imin f => Sys2Proof.Machine.execImin f s
  | .imax f => Sys2Proof.Machine.execImax f s
  | .iabsd f => Sys2Proof.Machine.execIabsd f s
  | .ishl f => Sys2Proof.Machine.execIshl f s
  | .ishr f => Sys2Proof.Machine.execIshr f s
  | .ishra f => Sys2Proof.Machine.execIshra f s
  | .fshf f => Sys2Proof.Machine.execFshf f s
  | .bool3 f => Sys2Proof.Machine.execBool3 f s
  | .bfx f => Sys2Proof.Machine.execBfx f s
  | .bfi f => Sys2Proof.Machine.execBfi f s
  | .clz f => Sys2Proof.Machine.execClz f s
  | .popc f => Sys2Proof.Machine.execPopc f s
  | .brev f => Sys2Proof.Machine.execBrev f s
  | .icmp f => Sys2Proof.Machine.execIcmp f s
  | .sel f => Sys2Proof.Machine.execSel f s
  | .idp4 f => Sys2Proof.Machine.execIdp4 f s
  | .mov f => Sys2Proof.Machine.execMov f s
  | .movi f => Sys2Proof.Machine.execMovi f s
  | .bysel f => Sys2Proof.Machine.execBysel f s
  | .fadd f => Sys2Proof.Machine.execFadd f s
  | .fsub f => Sys2Proof.Machine.execFsub f s
  | .fmul f => Sys2Proof.Machine.execFmul f s
  | .ffma f => Sys2Proof.Machine.execFfma f s
  | .fmin f => Sys2Proof.Machine.execFmin f s
  | .fmax f => Sys2Proof.Machine.execFmax f s
  | .fcmp f => Sys2Proof.Machine.execFcmp f s
  | .frcp f => Sys2Proof.Machine.execFrcp f s
  | .frsq f => Sys2Proof.Machine.execFrsq f s
  | .fsqrt f => Sys2Proof.Machine.execFsqrt f s
  | .fdiv f => Sys2Proof.Machine.execFdiv f s
  | .fexp2 f => Sys2Proof.Machine.execFexp2 f s
  | .flog2 f => Sys2Proof.Machine.execFlog2 f s
  | .fsinpi f => Sys2Proof.Machine.execFsinpi f s
  | .fcospi f => Sys2Proof.Machine.execFcospi f s
  | .ftanh f => Sys2Proof.Machine.execFtanh f s
  | .fclass f => Sys2Proof.Machine.execFclass f s
  | .frnd f => Sys2Proof.Machine.execFrnd f s
  | .fscale f => Sys2Proof.Machine.execFscale f s
  | .cvt f => Sys2Proof.Machine.execCvt f s
  | .pack f => Sys2Proof.Machine.execPack f s
  | .unpack f => Sys2Proof.Machine.execUnpack f s
  | .qblk f => Sys2Proof.Machine.execQblk f s
  | .dqblk f => Sys2Proof.Machine.execDqblk f s
  | .sadd f => Sys2Proof.Machine.execSadd f s
  | .ssub f => Sys2Proof.Machine.execSsub f s
  | .smul f => Sys2Proof.Machine.execSmul f s
  | .smulh f => Sys2Proof.Machine.execSmulh f s
  | .sand f => Sys2Proof.Machine.execSand f s
  | .sor f => Sys2Proof.Machine.execSor f s
  | .sxor f => Sys2Proof.Machine.execSxor f s
  | .sshl f => Sys2Proof.Machine.execSshl f s
  | .sshr f => Sys2Proof.Machine.execSshr f s
  | .sshra f => Sys2Proof.Machine.execSshra f s
  | .smin f => Sys2Proof.Machine.execSmin f s
  | .smax f => Sys2Proof.Machine.execSmax f s
  | .scmp f => Sys2Proof.Machine.execScmp f s
  | .ssel f => Sys2Proof.Machine.execSsel f s
  | .smov f => Sys2Proof.Machine.execSmov f s
  | .sli f => Sys2Proof.Machine.execSli f s
  | .sld f => Sys2Proof.Machine.execSld f s
  | .sst f => Sys2Proof.Machine.execSst f s
  | .sbfx f => Sys2Proof.Machine.execSbfx f s
  | .sclz f => Sys2Proof.Machine.execSclz f s
  | .spopc f => Sys2Proof.Machine.execSpopc f s
  | .v2s f => Sys2Proof.Machine.execV2s f s
  | .ld f => Sys2Proof.Machine.execLd f s
  | .loadLands id => Sys2Proof.Machine.execLoadLands id s
  | .st f => Sys2Proof.Machine.execSt f s
  | .pref f => Sys2Proof.Machine.execPref f s
  | .cctl f => Sys2Proof.Machine.execCctl f s
  | .hflush f => Sys2Proof.Machine.execHflush f s
  | .hinv f => Sys2Proof.Machine.execHinv f s
  | .hinvComplete g w e => Sys2Proof.Machine.execHinvComplete g w e s
  | .phase f => Sys2Proof.Machine.execPhase f s
  | .padq f => Sys2Proof.Machine.execPadq f s
  | .atom f => Sys2Proof.Machine.execAtom f s
  | .atomCas f => Sys2Proof.Machine.execAtomCas f s
  | .red f => Sys2Proof.Machine.execRed f s
  | .atomicRequest id => Sys2Proof.Machine.execAtomicRequest id s
  | .dedupAck id => Sys2Proof.Machine.execDedupAck id s
  | .fence f => Sys2Proof.Machine.execFence f s
  | .barInit f => Sys2Proof.Machine.execBarInit f s
  | .barArrive f => Sys2Proof.Machine.execBarArrive f s
  | .barWait f => Sys2Proof.Machine.execBarWait f s
  | .barSync f => Sys2Proof.Machine.execBarSync f s
  | .barQuery f => Sys2Proof.Machine.execBarQuery f s
  | .barrierPhaseComplete g b => Sys2Proof.Machine.execBarrierPhaseComplete g b s
  | .banklock f => Sys2Proof.Machine.execBanklock f s
  | .banklockSpanEnd core g w => Sys2Proof.Machine.execBanklockSpanEnd core g w s
  | .tlwait f => Sys2Proof.Machine.execTlwait f s
  | .tlread f => Sys2Proof.Machine.execTlread f s
  | .copyT f => Sys2Proof.Machine.execCopyT f s
  | .copyL f => Sys2Proof.Machine.execCopyL f s
  | .copyG f => Sys2Proof.Machine.execCopyG f s
  | .copyFill f => Sys2Proof.Machine.execCopyFill f s
  | .copyStat f => Sys2Proof.Machine.execCopyStat f s
  | .copyComplete id => Sys2Proof.Machine.execCopyComplete id s
  | .copyFault id => Sys2Proof.Machine.execCopyFault id s
  | .obRes f => Sys2Proof.Machine.execObRes f s
  | .obResZeroDone id => Sys2Proof.Machine.execObResZeroDone id s
  | .obFree f => Sys2Proof.Machine.execObFree f s
  | .obFreeRelease id => Sys2Proof.Machine.execObFreeRelease id s
  | .anvMma f => Sys2Proof.Machine.execAnvMma f s
  | .anvStepStart id => Sys2Proof.Machine.execAnvStepStart id s
  | .anvStepCommit id => Sys2Proof.Machine.execAnvStepCommit id s
  | .anvZero f => Sys2Proof.Machine.execAnvZero f s
  | .anvZeroComplete id => Sys2Proof.Machine.execAnvZeroComplete id s
  | .anvDrain f => Sys2Proof.Machine.execAnvDrain f s
  | .anvDrainComplete id => Sys2Proof.Machine.execAnvDrainComplete id s
  | .anvLoadz f => Sys2Proof.Machine.execAnvLoadz f s
  | .anvLoadzComplete id => Sys2Proof.Machine.execAnvLoadzComplete id s
  | .anvFault id => Sys2Proof.Machine.execAnvFault id s
  | .gangSet f => Sys2Proof.Machine.execGangSet f s
  | .licAcq f => Sys2Proof.Machine.execLicAcq f s
  | .licRel f => Sys2Proof.Machine.execLicRel f s
  | .licQuery f => Sys2Proof.Machine.execLicQuery f s
  | .licenceTransferDone pair => Sys2Proof.Machine.execLicenceTransferDone pair s
  | .licenceIdleFree pair => Sys2Proof.Machine.execLicenceIdleFree pair s
  | .licenceUrgentHandover pair => Sys2Proof.Machine.execLicenceUrgentHandover pair s
  | .twSig f => Sys2Proof.Machine.execTwSig f s
  | .twWait f => Sys2Proof.Machine.execTwWait f s
  | .recAlloc f => Sys2Proof.Machine.execRecAlloc f s
  | .recCommit f => Sys2Proof.Machine.execRecCommit f s
  | .recAbort f => Sys2Proof.Machine.execRecAbort f s
  | .recInfo f => Sys2Proof.Machine.execRecInfo f s
  | .spawn f => Sys2Proof.Machine.execSpawn f s
  | .pendingSpawnStart core => Sys2Proof.Machine.execPendingSpawnStart core s
  | .regGive f => Sys2Proof.Machine.execRegGive f s
  | .regClaim f => Sys2Proof.Machine.execRegClaim f s
  | .ntfPost f => Sys2Proof.Machine.execNtfPost f s
  | .ntfWait f => Sys2Proof.Machine.execNtfWait f s
  | .trap f => Sys2Proof.Machine.execTrap f s
  | .brk f => Sys2Proof.Machine.execBrk f s
  | .trapRet f => Sys2Proof.Machine.execTrapRet f s
  | .vary f => Sys2Proof.Machine.execVary f s
  | .bundleIssue b => Sys2Proof.Machine.execBundleIssue b s
  | .resultLanding g w => Sys2Proof.Machine.execResultLanding g w s
  | .lwLdComplete id => Sys2Proof.Machine.execLwLdComplete id s
  | .lwStComplete id => Sys2Proof.Machine.execLwStComplete id s
  | .modeSimtDrainDone g w => Sys2Proof.Machine.execModeSimtDrainDone g w s
  | .safePointWatchdog g w => Sys2Proof.Machine.execSafePointWatchdog g w s
  | .limewashGranuleClear core lg => Sys2Proof.Machine.execLimewashGranuleClear core lg s
  | .lampColdThreshold u => Sys2Proof.Machine.execLampColdThreshold u s
  | .lampWakeComplete u => Sys2Proof.Machine.execLampWakeComplete u s
  | .lampRelease u => Sys2Proof.Machine.execLampRelease u s
  | .nearThresholdEnter core lg => Sys2Proof.Machine.execNearThresholdEnter core lg s
  | .nearThresholdLeave core lg => Sys2Proof.Machine.execNearThresholdLeave core lg s
  | .parkWorkgroup g => Sys2Proof.Machine.execParkWorkgroup g s
  | .batchTimerExpiry rnum node => Sys2Proof.Machine.execBatchTimerExpiry rnum node s
  | .workgroupPlace stack => Sys2Proof.Machine.execWorkgroupPlace stack s
  | .preemptVictims stack cand => Sys2Proof.Machine.execPreemptVictims stack cand s
  | .preemptSave g => Sys2Proof.Machine.execPreemptSave g s
  | .workgroupRestore stack g => Sys2Proof.Machine.execWorkgroupRestore stack g s
  | .activate v => Sys2Proof.Machine.execActivate v s
  | .reload v => Sys2Proof.Machine.execReload v s
  | .deactivate v => Sys2Proof.Machine.execDeactivate v s
  | .doorbell sender word => Sys2Proof.Machine.execDoorbell sender word s
  | .trapEntry g w => Sys2Proof.Machine.execTrapEntry g w s
  | .lateFault id cause sub => Sys2Proof.Machine.execLateFault id cause sub s
  | .pageWalkComplete id => Sys2Proof.Machine.execPageWalkComplete id s
  | .atsCompletion id r => Sys2Proof.Machine.execAtsCompletion id r s
  | .priResponse id ok => Sys2Proof.Machine.execPriResponse id ok s
  | .atsInvalidation pasid va len => Sys2Proof.Machine.execAtsInvalidation pasid va len s
  | .tlbInvalidateAll stack v => Sys2Proof.Machine.execTlbInvalidateAll stack v s
  | .tlbInvalidateAsid stack v => Sys2Proof.Machine.execTlbInvalidateAsid stack v s
  | .tlbInvalidateRange stack v => Sys2Proof.Machine.execTlbInvalidateRange stack v s
  | .tlbInvalidationComplete stack => Sys2Proof.Machine.execTlbInvalidationComplete stack s
  | .fsrdWrite stack v => Sys2Proof.Machine.execFsrdWrite stack v s
  | .hostBarRead who bar off n ide => Sys2Proof.Machine.execHostBarRead who bar off n ide s
  | .hostBarWrite who bar off data ide => Sys2Proof.Machine.execHostBarWrite who bar off data ide s
  | .hostAtomicop who bar off => Sys2Proof.Machine.execHostAtomicop who bar off s
  | .pcieLinkTrain width rate => Sys2Proof.Machine.execPcieLinkTrain width rate s
  | .lockInterface t => Sys2Proof.Machine.execLockInterface t s
  | .stopInterface t => Sys2Proof.Machine.execStopInterface t s
  | .ideIntegrityFailure t => Sys2Proof.Machine.execIdeIntegrityFailure t s
  | .keyUpdate ok => Sys2Proof.Machine.execKeyUpdate ok s
  | .tdiUnlockComplete t => Sys2Proof.Machine.execTdiUnlockComplete t s
  | .flitReceive link fl => Sys2Proof.Machine.execFlitReceive link fl s
  | .negativeAcknowledgement link seq => Sys2Proof.Machine.execNegativeAcknowledgement link seq s
  | .linkFailed link => Sys2Proof.Machine.execLinkFailed link s
  | .admissionRequest link bytes tag => Sys2Proof.Machine.execAdmissionRequest link bytes tag s
  | .admissionGrant link tag => Sys2Proof.Machine.execAdmissionGrant link tag s
  | .peerRequest tag pa op => Sys2Proof.Machine.execPeerRequest tag pa op s
  | .linkTrain link peer epoch => Sys2Proof.Machine.execLinkTrain link peer epoch s
  | .hartAccess hart op pa n data => Sys2Proof.Machine.execHartAccess hart op pa n data s
  | .retag v => Sys2Proof.Machine.execRetag v s
  | .sethart v => Sys2Proof.Machine.execSethart v s
  | .domReload v => Sys2Proof.Machine.execDomReload v s
  | .readtag v => Sys2Proof.Machine.execReadtag v s
  | .notifyWindowSet sender j v => Sys2Proof.Machine.execNotifyWindowSet sender j v s
  | .notifyWindowAdd sender j v => Sys2Proof.Machine.execNotifyWindowAdd sender j v s
  | .capw v => Sys2Proof.Machine.execCapw v s
  | .plevelChange core lg level => Sys2Proof.Machine.execPlevelChange core lg level s
  | .supplyDroop island => Sys2Proof.Machine.execSupplyDroop island s
  | .supplyRecover island => Sys2Proof.Machine.execSupplyRecover island s
  | .thermalTrip die => Sys2Proof.Machine.execThermalTrip die s
  | .thermalTripEnd die => Sys2Proof.Machine.execThermalTripEnd die s
  | .sampleWrite core lg => Sys2Proof.Machine.execSampleWrite core lg s
  | .sampctlWrite v => Sys2Proof.Machine.execSampctlWrite v s
  | .hclr v => Sys2Proof.Machine.execHclr v s
  | .update v => Sys2Proof.Machine.execUpdate v s
  | .firmwareUpdateDone status version => Sys2Proof.Machine.execFirmwareUpdateDone status version s
  | .vfFlr t => Sys2Proof.Machine.execVfFlr t s
  | .registerWrite off v => Sys2Proof.Machine.execRegisterWrite off v s
  | .storePerformed id => Sys2Proof.Machine.execStorePerformed id s
  | .clusterPowerGate cluster => Sys2Proof.Machine.execClusterPowerGate cluster s
  | .startInterface t => Sys2Proof.Machine.execStartInterface t s
  | .ideKm t => Sys2Proof.Machine.execIdeKm t s
  | .doorbellCommit => Sys2Proof.Machine.execDoorbellCommit s
  | .endSession => Sys2Proof.Machine.execEndSession s
  | .spdmHeartbeatMissed => Sys2Proof.Machine.execSpdmHeartbeatMissed s
  | .getMeasurements => Sys2Proof.Machine.execGetMeasurements s
  | .bellowsWatchdogRestart => Sys2Proof.Machine.execBellowsWatchdogRestart s
  | .icinv => Sys2Proof.Machine.execIcinv s
  | .unfreeze => Sys2Proof.Machine.execUnfreeze s
  | .start => Sys2Proof.Machine.execStart s
  | .restore => Sys2Proof.Machine.execRestore s
  | .checkpointDone => Sys2Proof.Machine.execCheckpointDone s
  | .powerOnReset => Sys2Proof.Machine.execPowerOnReset s
  | .pcieFundamentalReset => Sys2Proof.Machine.execPcieFundamentalReset s
  | .spdmSessionStart => Sys2Proof.Machine.execSpdmSessionStart s
  | .spdmHeartbeat => Sys2Proof.Machine.execSpdmHeartbeat s
  | .rcmdComplete => Sys2Proof.Machine.execRcmdComplete s
  | .domcmdComplete => Sys2Proof.Machine.execDomcmdComplete s

end Sys2Proof.Machine
end

