-- ==== Sys2Proof/Machine/Issue.lean ====
section
/-!
DEFINITION. Issue (04 R96 to R98, 07 R186, 14 R325, 16 R376): which fragments may issue, in what order a scheduler tries them,
fetching and running one instruction or bundle; and the turns of the machine (log 3).
-/

namespace Sys2Proof.Machine

/-! ### One attempt -/

/-- A word that is no instruction (02 R32, R33): breakpoint, else ILLEGAL with a subcode. -/
def illegalWord (s : State) (i : Issuer) (w ext : Word64) (sub : Nat) : Out :=
  let f := wordFields w ext
  match ctxOf s i f.guard with
  | none => .next s
  | some c =>
    let site := siteOf s c w none f (sub = 2)
    -- the capture of an EMULATE word reads its registers (14 R331)
    if sub = 2 && regsPending s c [f.a.toNat, f.b.toNat, f.c.toNat] [f.a.toNat, f.b.toNat, f.c.toNat] then .next s
    else if f.d && s.obs.dbgen && c.warp.bank.isNone then takeTrap s { cause := 8, sub := 1 } site
    else takeTrap s { cause := 1, sub := sub } site

/-- The exchange results of an instruction that a lane group has issued get the cycle in which they are written, twice as far away in
near-threshold operation (11 R278, 05 R116, 01 R19). -/
def stamp (s : State) (i : Issuer) (ins : Instr) (o : Out) : Out :=
  match o, ins.word? with
  | .next t, some (op, f) =>
    .next (xissue t (if inNear s (coreOf s i.g) (((getWarp s i.g i.w).map (·.lg)).getD 0) then 2 * latency op f else latency op f))
  | o, _ => o

/-- Run the word that a fragment has fetched. -/
def runFetched (s : State) (i : Issuer) (v : Nat) : Out :=
  let w : Word64 := BitVec.ofNat 64 v
  let ext : Word64 := BitVec.ofNat 64 (v / 2 ^ 64)
  match decodeWord w ext with
  | .instr ins => stamp s i ins (exec ins s)
  | .reserved => illegalWord s i w ext 1
  | .emulate => illegalWord s i w ext 2
  | .short => .next s

/-- The trap that a warp has just met: one that is due, one whose handler it has entered, or the one that ended its workgroup: its
cause and subcode. -/
def takenTrap (t : State) (i : Issuer) : Option Trap :=
  let ofWord (n : Nat) : Trap := { cause := n % 2 ^ 8, sub := n / 2 ^ 8 % 2 ^ 8 }
  match getWg t i.g, getWarp t i.g i.w with
  | some x, q =>
    match x.status, q with
    | .killed _ _ cause _ _ _, _ => some (ofWord cause)
    | _, some p => (p.due.map (·.1)) <|> (p.bank.map (fun b => ofWord (mgetD b.sregs 57 0).toNat))
    | _, none => none
  | none, _ => none

/-- Extension words that stand for all: every offset of an address and of a target as a misalignment sees it, every scale, both
displacements of BRX, an atomic's spaces, every range record, every tile with every format, and the MMA word of the workgroup's
latch. -/
def someExts (x : Wg) : List Word64 :=
  0 :: 0x10000000000 :: ((x.latch.map (·.word)).toList ++
    ([0, 8, 32, 33, 34, 35, 36, 64, 65, 66, 67, 68].flatMap (fun h =>
      (List.range 16).map (fun l => BitVec.ofNat 64 (l + h * 2 ^ 32)))) ++
    ((List.range 32).map (fun h => BitVec.ofNat 64 (h * 2 ^ 32))))

/-- Offsets that bring the first of some addresses to where a space begins: if any offset keeps them all within the limits of the
space, one of these does (07 R173, R176, R191). -/
def edgeOffsets (space : Nat) (as : List Word64) : List Word64 :=
  let low (a : Word64) : Word64 := a &&& 0xFFFFFF
  match space with
  | 0 => 0x80000000 :: as.map (fun a => (0xFF00000000000000 - a) &&& 0xFFFFFFFF)
  | 1 => as.flatMap (fun a => as.map (fun b => (0 - low a - ((b - low a) - low (b - low a))) &&& 0xFFFFFFFF))
  | _ => as.map (fun a => (0 - a) &&& 0xFFFFFFFF)

/-- The extension words that decide whether every offset leads an access beyond the limits of its space, by scale. -/
def edgeExts (s : State) (c : Ctx) (op : Op) (f : WarpWord) : List Word64 :=
  match op with
  | .sld => edgeOffsets (spaceCode f) [sA c f]
  | .sst => edgeOffsets (spaceCode f) [sA c f]
  | _ =>
    if op = .ld ∨ op = .st then
      (List.range 5).flatMap (fun h =>
        let e : Word64 := BitVec.ofNat 64 (h * 2 ^ 32)
        (edgeOffsets (spaceCode f) ((lanesOf c.p).map (laneAddr s c { f with ext := e } 0))).map (· ||| e))
    else []

/-- The condition of execution that an instruction meets whatever its extension word holds, of a higher rank than a trap, with an
extension word under which it meets it; none when there is none (02 R33, 14 R325). It is the one of the lowest rank among those that
the extension words show, since each of them shows it or one that comes before it. Beyond the limits of spaces an access depends on
its extension word. -/
def shownExt (s : State) (i : Issuer) (c : Ctx) (op : Op) (f : WarpWord) (t : Trap) : Option Word64 :=
  let met (e : Word64) : Option Nat := match exec (op.instr { f with ext := e }) s with
    | .next u => (takenTrap u i).map trapRank
    | _ => none
  let bound : Nat := if op = .ntfPost ∨ op = .ntfWait then trapRank t else min (trapRank t) 4
  let es := (someExts c.wg ++ edgeExts s c op f).filter (fun e => legal c.regCtx op { f with ext := e })
  if es.all (fun e => (met e).any (· < bound)) then
    es.foldl (fun best e => match best with
      | none => some e
      | some b => if (met b).getD 0 < (met e).getD 0 then some e else best) none
  else none

/-- A fragment has fetched a first word whose extension word it cannot fetch: a breakpoint, RESERVED or EMULATE, an OPERAND
condition that the first word shows under every extension, and the conditions of execution of a higher rank that the word and the
registers show under every one come first; a fetch that meets POISON ranks last (02 R33, 14 R325). The frame then has the extension
word 0, and after a condition of execution one that the entry accepts: DESIGN CHOICE, log 62. -/
def runFirst (s : State) (i : Issuer) (v : Nat) (t : Trap) : Out :=
  let w : Word64 := BitVec.ofNat 64 v
  match decodeWord w 0 with
  | .reserved => illegalWord s i w 0 1
  | .emulate => illegalWord s i w 0 2
  | .short => .next s
  | .instr ins =>
    match ins.word? with
    | none => .next s
    | some (op, f) =>
      match ctxOf s i f.guard with
      | none => .next s
      | some c =>
        let site := siteOf s c w (some op) f true
        if interlocked s c op f then .next s
        else if f.d && s.obs.dbgen && c.warp.bank.isNone then takeTrap s { cause := 8, sub := 1 } site
        else if !(someExts c.wg).any (fun e => legal c.regCtx op { f with ext := e }) then takeTrap s trapOperand site
        else match shownExt s i c op f t with
          | some e => exec (op.instr { f with ext := e }) s
          | none => takeTrap s t (boundarySite i.g i.w (some i.e) c.pc c.exec c.warp.mask c.exec 0)

/-- A fragment fetches its next instruction and runs it (02 R23, R33). -/
def issueWord (s : State) (x : Wg) (i : Issuer) : Out :=
  match ctxOf s i 0 with
  | none => .next s
  | some c =>
    match fetchWord s x (warpKey i.g i.w) c.pc.toNat with
    | .trap t u => takeTrap u t (boundarySite i.g i.w (some i.e) c.pc c.exec c.warp.mask c.exec 0)
    | .hold h => .next h
    | .stop => .fault .physicalHole
    | .part v tr t => runFirst t i v tr
    | .ok v t => runFetched t i v

/-- A long-word thread fetches its next bundle and runs it (02 R23, R36). -/
def issueThread (s : State) (x : Wg) (i : Issuer) : Out :=
  match lwCtxOf s i with
  | none => .next s
  | some c =>
    match lwBoundary s c with
    | some o => o
    | none =>
      match fetchBundle s x (warpKey i.g i.w) c.lw.pc.toNat with
      | .trap t u => takeTrap u t (lwSite c 0 false)
      | .hold h => .next h
      | .stop => .fault .physicalHole
      | .part _ _ t => .next t
      | .ok v t => exec (.bundleIssue (decodeBundle (BitVec.ofNat 1024 v))) t

/-- Is a workgroup killed? -/
def Wg.isKilled (x : Wg) : Bool :=
  match x.status with
  | .killed _ _ _ _ _ _ => true
  | _ => false

/-- Has a warp taken a trap or met one that is due, or has its workgroup ended, between two states? -/
def trapped (s t : State) (i : Issuer) : Bool :=
  match getWarp s i.g i.w, getWarp t i.g i.w with
  | some p, some q => q.tcount ≠ p.tcount || q.due.isSome || (getWg t i.g).any (·.isKilled)
  | _, _ => true

/-- A fragment of a workgroup that stops for a save stands at a boundary: where its next instruction or bundle meets a trap
condition it takes the trap, and else it stays there (14 R343, R350). -/
def standOrTrap (s : State) (i : Issuer) (o : Out) : Out :=
  match o with
  | .next t => if trapped s t i then .next t
    else
      let k := ((getWarp s i.g i.w).map (fun p => standKey p i.w i.e)).getD (i.w, i.e)
      let s := modWarp s i.g i.w (fun p => { p with lw := p.lw.map (·.resting s.clock) })
      .next (modWg s i.g (fun x => { x with stood := if x.stood.contains k then x.stood else x.stood ++ [k] }))
  | o => o

/-- Try to issue from a fragment, one that waits in REC.ALLOC.w going round its loop: the state after has no issuer when it has
issued, and keeps it when the fragment was not eligible. A trap that is due goes on. A fragment at a boundary where a trap is due
takes it first (14 R325); one of a stopping workgroup does no more, but for a long-word thread, which runs on to its safe point (06
R162). -/
def attempt (s0 : State) (i : Issuer) : Out :=
  match getWg s0 i.g, getWarp s0 i.g i.w with
  | some x, some p =>
    let s := { (if x.phase ≤ 4 then leaveNear s0 x.core p.lg else s0) with issuer := some i }
    match p.due with
    | some (t, a) => takeTrap s t a
    | none =>
    if p.bank.isNone && p.lw.isSome then
      if x.stopped && atBoundary s i.g i.w then standOrTrap s i (issueThread s x i) else issueThread s x i
    else match boundaryTrap s i.g i.w i.e with
      | some o => o
      | none =>
        if x.stopped then standOrTrap s i (issueWord s x i)
        else if p.bank.isNone && (mget p.frags i.e).any (fun f => headsQueue s i.g i.w x f.state) then serveAlloc s i.g i.w i.e
        else issueWord s x i
  | _, _ => .next { s0 with issuer := some i }

/-! ### The scheduler (04 R97) -/

/-- A fragment that a scheduler considers. -/
structure Cand where
  i : Issuer
  key : Nat
  age : Nat
  slot : Nat
  lim : Nat
  deriving DecidableEq, Repr

/-- The fragments that the scheduler of a lane group considers. -/
def laneGroupCands (s : State) (core lg : Nat) : List Cand :=
  s.warps.flatMap (fun q =>
    let g := q.1 / 16
    let w := q.1 % 16
    match getWg s g with
    | some x =>
      if x.core = core && q.2.lg = lg && x.mayIssue && !q.2.washing && mget s.marks (clsWash core lg) ≠ some (q.1 + 1) && !(q.2.lw.isNone && lwOn s core lg) then
        (warpEntries s g w x q.2).map (fun e => ⟨⟨g, w, e.1⟩, q.1, e.2, q.2.slot, ageLimOf s x.rnum⟩)
      else []
    | none => [])

/-- Rank by AGE, then warp slot, then entry. -/
def ageRank (c : Cand) : List Nat := [255 - c.age, c.slot, c.i.e]

/-- Insert by rank. -/
def insertCand (c : Cand) : List Cand → List Cand
  | [] => [c]
  | d :: t => if lexLt (ageRank c) (ageRank d) then c :: d :: t else d :: insertCand c t

/-- The order in which a scheduler tries fragments (04 R97); one that has just yielded is left out (04 R107). -/
def tryOrder (s : State) (core lg : Nat) (yielded : Option (Nat × Nat)) : List Cand :=
  let cs := ((laneGroupCands s core lg).filter (fun c => yielded ≠ some (c.key, c.i.e))).foldr insertCand []
  let last := (getLg s core lg).last
  cs.filter (fun c => c.lim ≤ c.age) ++ cs.filter (fun c => c.age < c.lim && last = some (c.key, c.i.e)) ++
    cs.filter (fun c => c.age < c.lim && last ≠ some (c.key, c.i.e))

/-- How an issue slot ends. -/
inductive Slot where
  /-- Nothing was eligible. -/
  | idle (s : State)
  /-- A fragment has issued: the fragments not tried, the state before it and after it. -/
  | issued (c : Cand) (rest : List Cand) (before after : State)
  | stop (o : Out)

/-- Try fragments in order until one issues. -/
def tryAll : List Cand → State → Slot
  | [], s => .idle s
  | c :: cs, s =>
    match attempt s c.i with
    | .next t => if t.issuer.isNone then .issued c cs s t else tryAll cs { t with issuer := none }
    | o => .stop o

/-- Is a fragment eligible in a state: would it issue? -/
def eligible (s : State) (c : Cand) : Bool :=
  match attempt s c.i with
  | .next t => t.issuer.isNone
  | _ => false

/-- A fragment that was eligible and has not issued ages (04 R96). -/
def growOlder (s : State) (c : Cand) : State :=
  modWarp s c.i.g c.i.w (fun x => { x with frags := mmod x.frags c.i.e (fun fr =>
    match fr.state with
    | .blocked _ => fr
    | _ => { fr with age := min (fr.age + 1) 255 }) })

/-- Has a lane group an issue slot in this cycle: it has issued nothing in it (04 R97), no droop of its island halts it (16
R376), and in near-threshold operation, which issues on every second cycle, nothing in the cycle before (01 R19, 06 R142)? -/
def hasSlot (s : State) (core lg : Nat) : Bool :=
  !s.bellows.droops.contains (clusterOf core) &&
    (match (getLg s core lg).lastAt with
     | some t => t ≠ s.clock && !(inNear s core lg && t + 1 = s.clock)
     | none => true)

/-- An issue slot of a lane group (04 R97). -/
def issueSlot (core lg : Nat) (s : State) : Out :=
  if !hasSlot s core lg then .next s
  else
    let y := (getLg s core lg).yielded
    let s := modLg s core lg (fun l => { l with yielded := none })
    match tryAll (tryOrder s core lg y) s with
    | .idle t => .next (modLg t core lg (fun l => { l with last := none }))
    | .stop o => o
    | .issued c rest before after =>
      let t := (rest.filter (eligible before)).foldl growOlder after
      .next (modLg t core lg (fun l => { l with last := some (c.key, c.i.e), lastAt := some t.clock }))

/-! ### Turns (log 3) -/

/-- The clock moves on; at the end of each cycle the phases complete that are due in it, of each barrier one (08 R228), and the samples
are written that are due in it (16 R377). -/
def advanceClock : Nat → State → State
  | 0, s => s
  | n + 1, s =>
    if (phasesMet s).isEmpty && !s.obs.sampEn && s.obs.samples.isEmpty then { s with clock := s.clock + n + 1, marks := [] }
    else
      let s := settleSamples ((phasesDue s).foldl (fun s p => completePhase s p.1 p.2) s)
      advanceClock n { s with clock := s.clock + 1, marks := [] }

/-- An access whose fragment is held no longer stands in a queue (log 3). -/
def freshLamps (s : State) : State := if s.lampq.isEmpty then s else { s with lampq := s.lampq.filter (fun q => q.live s) }

/-- The clock moves on: exchange results that are due are written (11 R278), the engine slots' commands whose releases are performed
have their effects (06 R149), the Coopers form launches (13 R299, R306), and what waits at the ports goes on: requests of the host,
of harts and of peers (08 R219, 15 R363), requests to peers (15 R362), the host's invalidations (14 R349), grants of vault banks (07
R184) and the ends of workgroups (13 R296). -/
def tick (n : Nat) (s : State) : State :=
  settleAts (linkWork (peerWork (postedWork (settleEnds (settleGrants (formAll (settleEngines (if n = 0 then freshLamps s else xdue (advanceClock n (freshLamps s))))))))))

/-- A turn of the machine. -/
def takeTurn (t : Turn) (s : State) : Out :=
  match t with
  | .issue n core lg => issueSlot core lg (tick n s)
  | .event n i => exec i { tick n s with issuer := none }
  | .part n c k => .next (copyPart c k { tick n s with issuer := none })
  | .cold n v => .next (programCold v { tick n s with issuer := none })
  | .error n e => .next (errorStep e { tick n s with issuer := none })
  | .boot n => .next (bootStep { tick n s with issuer := none })
  | .node n r => .next (nodeRead r { tick n s with issuer := none })
  | .ckpt n m => .next (ckptMove m { tick n s with issuer := none })

/-- Steps of the device's own agents that may be due, for the default order of turns. -/
def ownSteps (s : State) : List Instr := List.flatten [
  s.loads.map (fun l => if l.kind = .lwld then .lwLdComplete l.id else .loadLands l.id),
  s.stores.map (fun e => if e.token.isSome then .lwStComplete e.id else .storePerformed e.id),
  (s.atoms.map (fun a => if a.done then .dedupAck a.id else .atomicRequest a.id)),
  s.walks.map (fun k => .pageWalkComplete k.id),
  s.lamps.map (fun l => .lampWakeComplete l.1),
  (s.lgs.filter (fun l => !l.2.wash.isEmpty)).map (fun l => .limewashGranuleClear (l.1 / 4) (l.1 % 4)),
  s.warps.flatMap (fun p =>
    (if p.2.lw.isSome then [.resultLanding (p.1 / 16) (p.1 % 16), .modeSimtDrainDone (p.1 / 16) (p.1 % 16)] else []) ++
    (match p.2.bank.bind (·.wait) with
      | some (.sleep _) => [.sleepExpiry (p.1 / 16) (p.1 % 16) 0]
      | some (.hinv _ _ _) => [.hinvComplete (p.1 / 16) (p.1 % 16) 0]
      | _ => []) ++
    p.2.frags.flatMap (fun q => match q.2.state with
      | .blocked (.sleep _) => [.sleepExpiry (p.1 / 16) (p.1 % 16) q.1]
      | .blocked (.hinv _ _ _) => [.hinvComplete (p.1 / 16) (p.1 % 16) q.1]
      | _ => [])),
  s.copies.flatMap (fun c => [.copyComplete c.id, .copyFault c.id]),
  s.anvs.flatMap (fun a => [.obResZeroDone a.id, .obFreeRelease a.id, .anvStepStart a.id, .anvStepCommit a.id,
    .anvZeroComplete a.id, .anvDrainComplete a.id, .anvLoadzComplete a.id, .anvFault a.id]),
  s.pairs.flatMap (fun p => [.licenceTransferDone p.1, .licenceIdleFree p.1, .licenceUrgentHandover p.1]),
  s.cores.flatMap (fun c => [.pendingSpawnStart c.1, .modeLwUnblock c.1]),
  s.wgs.flatMap (fun p => match p.2.status with
    | .stopping _ => [.preemptSave p.1]
    | .restoring => [.workgroupRestore (stackOf p.2.core) p.1]
    | .resident => [.parkWorkgroup p.1]
    | _ => []),
  s.lamps.map (fun l => .lampRelease l.1),
  s.regions.flatMap (fun p => (p.2.nodes.filter (fun q => q.2.pending.isNone && q.2.recs.any (fun r => r.state = .waiting))).map
    (fun q => .batchTimerExpiry p.1 q.1)),
  [.doorbellCommit, .workgroupPlace 0, .workgroupPlace 1, .tlbInvalidationComplete 0, .tlbInvalidationComplete 1],
  (if s.host.rcmdBusy then [.rcmdComplete] else []) ++ (if s.dom.busy then [.domcmdComplete] else []),
  (if s.ckpt.busy ≠ 0 then [.checkpointDone] else []),
  (candidates s 0).map (fun c => .preemptVictims 0 c.cand) ++ (candidates s 1).map (fun c => .preemptVictims 1 c.cand)]

/-- The first of some steps that changes the state. -/
def firstChange (s : State) : List Instr → Option State
  | [] => none
  | i :: rest =>
    match exec i s with
    | .next t => if t = s then firstChange s rest else some t
    | _ => firstChange s rest

/-- The lane groups that hold warps. -/
def busyLgs (s : State) : List (Nat × Nat) :=
  nub (s.warps.filterMap (fun p => (getWg s (p.1 / 16)).map (fun x => (x.core, p.2.lg))))

/-- The issue slots of lane groups one after another, up to the first that issues something: whether one has, and the state. What
an idle slot leaves stays (04 R107). -/
def firstIssue (s : State) : List (Nat × Nat) → Bool × State
  | [] => (false, s)
  | q :: rest =>
    match issueSlot q.1 q.2 s with
    | .next t => if (getLg t q.1 q.2).lastAt = some t.clock then (true, t) else firstIssue t rest
    | _ => firstIssue s rest

/-- The turn of a machine whose order of turns is used up (log 3): a cycle, with an issue, or else with a step of the device's own
agents if one is due. -/
def idleTurn (s : State) : Out :=
  match firstIssue (tick 1 s) (busyLgs (tick 1 s)) with
  | (true, t) => .next t
  | (false, t) => .next ((firstChange t (ownSteps t)).getD (bootStep t))

/-- One step of the machine (log 3). -/
def turn (s : State) : Out :=
  match s.sched with
  | t :: rest => takeTurn t { s with sched := rest }
  | [] => idleTurn { s with issuer := none }

/-! ### Placing one instruction (log 9) -/

/-- Address, virtual and device physical, of the instruction that withFetchWord places. -/
def placedAt : Nat := 0x10000

/-- The workgroup that holds the warp of a placed instruction. -/
def placedWg : Wg where
  core := 0
  rnum := 0
  node := 0
  asid := 0
  wgid := 0
  depth := 0
  batch := []
  launch := 0
  status := .resident
  padBase := 0
  padSize := 0
  wrapped := false
  phase := 0
  nearMask := 0
  tlc := Timeline.zero
  tla := Timeline.zero
  bars := []
  gang := 1
  latch := none
  copyFault := none
  anvFault := none
  resv := []
  pools := []
  trapBlock := none
  imageBlock := none
  ckptBlock := none
  saved := none
  stood := []
  partner := none
  pairPlaced := false
  bound := false
  xconf := false

/-- The warp of a placed instruction, or the long-word thread of a placed bundle. -/
def placedWarp (bundle : Bool) (clock : Nat) : Warp :=
  let p := newWarp 0 0 0 240 0 (BitVec.ofNat 64 placedAt)
  let p := { p with washing := false, frags := p.frags.map (fun q => (q.1, { q.2 with age := 255 })) }
  if bundle then { p with lw := some (Lw.fresh (BitVec.ofNat 64 placedAt) clock), frags := [] } else p

/-- Is a warp on lane group 0 of core 0? -/
def onFirstLg (s : State) (p : Nat × Warp) : Bool := p.2.lg = 0 && (getWg s (p.1 / 16)).any (fun x => x.core = 0)

/-- A warp on lane group 0 of core 0 stands at an instruction whose bits are w, and the next turn is that lane group's issue
slot (log 9). -/
def placeWord (s : State) (nbits w : Nat) : State :=
  let g := s.nextId
  let u := hbmUnit placedAt
  let s1 := { s with
    nextId := g + 1
    sched := [.issue 1 0 0]
    wgs := mset s.wgs g placedWg
    warps := mset (s.warps.filter (fun p => !onFirstLg s p)) (warpKey g 0) (placedWarp (128 < nbits) (s.clock + 1))
    tlb := ⟨0, 0, 16, placedAt / 65536, placedAt, 0, true, true, true⟩ :: s.tlb
    bellows := { s.bellows with droops := s.bellows.droops.filter (· ≠ 0) } }
  let s2 := modCore (setLamp s1 u (.lit s.clock)) 0 (fun c => { c with icache := c.icache.filter (· ≠ placedAt / 128) })
  let s3 := putNat s2 (hbmKey placedAt) 128 (w % 2 ^ nbits)
  modLg s3 0 0 (fun l => { l with yielded := none, lastAt := none })

end Sys2Proof.Machine
end

