-- ==== Sys2Proof/Machine/Step.lean ====
section
/-!
DEFINITION. The step of the machine, and the placing of one instruction where a step fetches it.
-/

namespace Sys2Proof.Machine

/-- One step: the next turn in the machine's order of turns (log 3). -/
def step (s : State) : Host.Outcome State Fault Refusal := turn s

/-- s with an instruction whose bits are w placed where the next step fetches it (log 9). -/
def State.withFetchWord (s : State) (nbits w : Nat) : State := placeWord s nbits w

end Sys2Proof.Machine
end

