-- ==== Sys2Proof/Safety.lean ====
section
/-!
DEFINITION. What a safe run is: steps that end in a next state. And the terms in which the claims speak of an
instruction: when nothing comes before its effect, the state it leaves past its word, and what it leaves unchanged.
-/

namespace Sys2Proof.Machine

/-- Does a step end in a next state? -/
def Completes (o : Out) : Prop := ∃ t, o = .next t

/-- A machine that takes k steps without a fault or a refusal. -/
def SafeFor : Nat → State → Prop
  | 0, _ => True
  | k + 1, s => ∃ t, step s = .next t ∧ SafeFor k t

/-! ### When an instruction of the warp word has its effect -/

/-- The fragment selected to issue, seen through an instruction's guard (04 R93, 02 R28); none when it may not issue. -/
def issuing (s : State) (f : WarpWord) : Option Ctx := s.issuer.bind (fun i => ctxOf s i f.guard)

/-- Nothing comes before the instruction's effect: no breakpoint is due (14 R325), its operands are legal (02 R33), it is
none that trap level 1 bars (14 R328), its registers wait for nothing (04 R90, 07 R166), a load has room (14 R336), and
no participating lane reads a poisoned register (14 R338). -/
def unhindered (op : Op) (f : WarpWord) (s : State) (c : Ctx) : Bool :=
  !(f.d && s.obs.dbgen && c.warp.bank.isNone) && legal c.regCtx op f && !(c.warp.bank.isSome && barredAtTrap op f) &&
    !interlocked s c op f && !(takesFlight op && decide (Config.maxLoads ≤ inFlight s c.g c.w)) &&
    decide (poisonedReads s c op f = 0)

/-- Fragment c issues the instruction, and nothing comes before its effect. -/
def Ready (op : Op) (f : WarpWord) (s : State) (c : Ctx) : Prop :=
  issuing s f = some c ∧ unhindered op f s c = true

/-- The state in which the instruction has no effect of its own: the issuing fragment is past its word (04 R96, R101), and
the instruction is counted in its warp's bank-lock span (08 R232). -/
def past (op : Op) (f : WarpWord) (s : State) (c : Ctx) : State := countSpan (advance s c f) c op f

/-! ### Taking a trap -/

/-- The state in which a trap's entry is decided (14 R327, R342): fault recording is frozen by a translation fault, the warp's
latch arrival is withdrawn, the fragment waits for no lamp unit, and the warp's bank-lock spans end; p is the warp before. -/
def entryState (s : State) (t : Trap) (a : Site) (x : Wg) (p : Warp) : State :=
  modCore (beginTrap (if t.cause = 2 then freeze s 3 else s) a p) x.core
    (fun c => { c with spans := c.spans.filter (fun sp => sp.warp ≠ warpKey a.g a.w) })

/-- Warp a.w of workgroup x, which is p0, can take the trap t (14 R327): it is at trap level 0, its context has a handler, the page
of its frame translates (to key, in state u), is clean, and waits for no pseudo-channel and no link, and its accesses in flight can be
performed at once; p is the warp when they have been. -/
def TrapReady (s : State) (t : Trap) (a : Site) (x : Wg) (p0 p : Warp) (u : State) (key : Nat) : Prop :=
  let s2 := entryState s t a x p0
  getWg s a.g = some x ∧ getWarp s a.g a.w = some p0 ∧ p0.bank = none ∧ ctxBits s2 x.asid 128 64 ≠ 0 ∧
    (∃ m, xlateNow s2 x (warpKey a.g a.w) (frameAddr s2 x a.w) .write = (.ok key m, u)) ∧
    (∀ i, i < 64 → poisonedAt u (key + 64 * i) 64 = false) ∧
    lampHeld u (fragWho a.g a.w (a.entry.getD 0)) (frameUnits key) = false ∧ frameGone u (warpKey a.g a.w) key = true ∧
    warpDrains u a.g a.w = true ∧
    getWarp (drainWarp (modWarp u a.g a.w landFlights) a.g a.w) a.g a.w = some p

/-- The warp in state v has taken the trap t (14 R327, R328): trap level 1 at the handler's address with WMASK all ones, v232 to
v239 and s56 to s63 banked, FRAME, CAUSE, PC and the end of the stack in s56, s57, s58 and s63, the rest of the bank zero, TCOUNT
one more, only the late faults left that the trap does not take, and the other registers and the split table as p had them. -/
def TrapEntered (s : State) (t : Trap) (a : Site) (x : Wg) (p0 p : Warp) (v : State) : Prop :=
  let s2 := entryState s t a x p0
  v.issuer = none ∧ ∃ y b, getWarp v a.g a.w = some y ∧ y.bank = some b ∧
    b.pc = BitVec.ofNat 64 (ctxBits s2 x.asid 128 64) ∧ b.wmask = 0xFFFFFFFF ∧ b.entry = a.entry ∧ b.wait = none ∧
    y.sreg 56 = BitVec.ofNat 64 (frameAddr s2 x a.w) ∧ y.sreg 57 = BitVec.ofNat 64 t.word ∧ y.sreg 58 = a.pc ∧
    y.sreg 63 = BitVec.ofNat 64 (frameAddr s2 x a.w + 4096) ∧ (∀ n, 59 ≤ n → n ≤ 62 → y.sreg n = 0) ∧
    (∀ n i, 232 ≤ n → n < 240 → i < 32 → y.vreg n i = 0) ∧
    (∀ n, n < 56 → y.sreg n = p.sreg n) ∧ (∀ n i, n < 232 → i < 32 → y.vreg n i = p.vreg n i) ∧
    (∀ n, y.mreg n = p.mreg n) ∧ y.frags = p.frags ∧ y.tcount = p.tcount + 1 ∧ y.due = none ∧ y.late = p.late.filter (fun l => !a.takes l) ∧
    (p.bank = none → y.fpstat = p.fpstat ∧ y.sf = p.sf)

/-! ### Frames -/

/-- A warp apart from registers, flags, program counters and ages: what no instruction of the arithmetic classes writes. -/
def sameWarp (x y : Warp) : Prop :=
  y.lg = x.lg ∧ y.slot = x.slot ∧ y.alloc = x.alloc ∧ y.role = x.role ∧ y.xlg = x.xlg ∧ y.tcount = x.tcount ∧ y.late = x.late ∧
    y.lw = x.lw ∧ y.vals = x.vals ∧ y.washing = x.washing ∧ y.engine = x.engine ∧ y.due = x.due

/-- What a warp keeps when an instruction writes only vector registers V (number and lane), s-registers S and mask
registers M. FPSTAT, SF and SEED are not spoken of. -/
def warpFrame (x y : Warp) (V : Nat → Nat → Prop) (S M : Nat → Prop) : Prop :=
  (∀ n i, i < 32 → ¬ V n i → y.vreg n i = x.vreg n i) ∧ (∀ n, ¬ S n → y.sreg n = x.sreg n) ∧
    (∀ n, ¬ M n → y.mreg n = x.mreg n) ∧ y.mask = x.mask ∧ sameWarp x y

/-- Every byte of memory reads as before. -/
def sameMemory (s t : State) : Prop := ∀ k, readByte t.mem k = readByte s.mem k

/-- Only warp (g, w), spans of a core, the warp's exchange results under way (11 R278), its workgroup's turn among barrier operations
(08 R228) and the counter of free values may differ: every other warp, other core, workgroup, pair, store, load, timeline, licence,
region and device register is as before. -/
def onlyWarp (s t : State) (g w core : Nat) : Prop :=
  (∀ k, k ≠ warpKey g w → mget t.warps k = mget s.warps k) ∧
    (∀ k, k ≠ core → getCore t k = getCore s k) ∧ { getCore t core with spans := (getCore s core).spans } = getCore s core ∧
    (∃ l, t.xpend = s.xpend ++ l ∧ ∀ x ∈ l, x.g = g ∧ x.w = w) ∧ (∀ k, k ≠ clsBar g → mget t.marks k = mget s.marks k) ∧
    { t with issuer := s.issuer, freeCtr := s.freeCtr, warps := s.warps, cores := s.cores, xpend := s.xpend, marks := s.marks } = s

/-- The slices' bringing in and replacing of lines of host memory moves nothing at key k (07 R170, R174): of a line that a slice holds,
the byte in the slice is the host's, or it is the slice's byte of a line that is written back. Other memory is always steady. -/
def steady (s : State) (k : Nat) : Prop :=
  (isHostDev k = true → hostHeld s (hostLine k) = true →
    (hostLine k, true) ∈ s.hostLines ∨ readByte s.mem (k - 2 ^ 65) = readByte s.mem k) ∧
  (2 ^ 65 ≤ k → k < 2 ^ 66 → hostHeld s (hostLine (k + 2 ^ 65)) = true →
    (hostLine (k + 2 ^ 65), true) ∉ s.hostLines ∧ readByte s.mem (k + 2 ^ 65) = readByte s.mem k)

/-- A key of the cached view of host memory names a bus address, as the model has them of 64 bits; any other key does so too. -/
def busKey (k : Nat) : Prop := isHostDev k = true → k < 2 ^ 66 + 2 ^ 64

/-- A list of cells names no other view of the line of key k of host memory. -/
def noAlias (k : Nat) (cs : List Host.Cell) : Prop :=
  2 ^ 65 ≤ k → k < 2 ^ 67 → ∀ c ∈ cs, (c.1 + 2 ^ 65) / 128 ≠ k / 128 ∧ c.1 / 128 ≠ (k + 2 ^ 65) / 128

/-- Has a warp a bank-lock span of its own under way (08 R232)? -/
def ownSpan (s : State) (core g w : Nat) : Bool := (getCore s core).spans.any (fun sp => sp.warp = warpKey g w && sp.open s.clock)

/-- The memory invariant: the bytes of the machine's stores are in canonical form. -/
def memoryForm (s : State) : Prop := Memory.wf s.mem = true

/-! ### Families of the opcode table that write registers only -/

/-- Integer-vector class (05 R119 to R123), and FCLASS. -/
def intOps : List Op := [.iadd, .isub, .iaddc, .imul, .imulh, .imad, .imin, .imax, .iabsd, .ishl, .ishr, .ishra, .fshf, .bool3,
  .bfx, .bfi, .clz, .popc, .brev, .icmp, .sel, .idp4, .mov, .movi, .bysel, .fclass]
/-- Floating-point class and conversions (05 R126 to R134, 03 R81 to R84). -/
def fltOps : List Op := [.fadd, .fsub, .fmul, .ffma, .fmin, .fmax, .fcmp, .frcp, .frsq, .fsqrt, .fdiv, .fexp2, .flog2, .fsinpi,
  .fcospi, .ftanh, .frnd, .fscale, .cvt, .pack, .unpack, .qblk, .lscan, .lred]
/-- Scalar class (05 R136, R137, R139). -/
def scaOps : List Op := [.sadd, .ssub, .smul, .smulh, .sand, .sor, .sxor, .sshl, .sshr, .sshra, .smin, .smax, .scmp, .ssel, .smov,
  .sli, .sbfx, .sclz, .spopc, .v2s]
/-- Mask and cross-lane class, reads of state, and NOP (04 R101, R108 to R114, 07 R200, 08 R229, R234). -/
def maskOps : List Op := [.nop, .ballot, .vote, .mskOp, .mskSave, .popcM, .firstM, .leader, .shfl, .bcast, .getsr, .dqblk, .padq,
  .barQuery, .tlread]

/-- Mask registers that an instruction writes. -/
def masksWritten (op : Op) (f : WarpWord) (n : Nat) : Prop :=
  ((shape op f).dst = .mask ∧ n = f.dst.toNat) ∨ (op = .iaddc ∧ n = f.c.toNat)

end Sys2Proof.Machine
end

