-- ==== Sys2Proof/Certificates/Slice0/Obligations.lean ====
section
/-!
DEFINITION. The statements for the provers, from the numbered rules of the spec.
-/

open Sys2Proof Sys2Proof.Machine

/-- The arithmetic of the integer-vector class (05 R117, R119): each lane of P receives the wrapped or clamped exact
result, the fragment moves past the word, and nothing else happens. -/
def Obligations.IntegerArithmeticResults : Prop :=
  ∀ (f : WarpWord) (s : State) (c : Ctx),
    let ty := typeCode f
    let A := fun i => intOf ty (opA s c f (tn f) i)
    let B := fun op i => intOf ty (opB s c op f (tn f) i)
    let C := fun i => intOf ty (opC s c f (tn f) i)
    (Ready .iadd f s c → exec (.iadd f) s =
      .next (clearIssuer (vecWrite (past .iadd f s c) c f (tn f) (fun i => intRes ty (satBit f) (A i + B .iadd i))))) ∧
    (Ready .isub f s c → exec (.isub f) s =
      .next (clearIssuer (vecWrite (past .isub f s c) c f (tn f) (fun i => intRes ty (satBit f) (A i - B .isub i))))) ∧
    (Ready .imul f s c → exec (.imul f) s =
      .next (clearIssuer (vecWrite (past .imul f s c) c f (tn f) (fun i => intRes ty (satBit f) (A i * B .imul i))))) ∧
    (Ready .imulh f s c → exec (.imulh f) s =
      .next (clearIssuer (vecWrite (past .imulh f s c) c f (tn f) (fun i => intRes ty false (A i * B .imulh i / (2 ^ typeBits ty : Nat)))))) ∧
    (Ready .imad f s c → exec (.imad f) s =
      .next (clearIssuer (vecWrite (past .imad f s c) c f (tn f) (fun i => intRes ty (satBit f) (A i * B .imad i + C i))))) ∧
    (Ready .imin f s c → exec (.imin f) s =
      .next (clearIssuer (vecWrite (past .imin f s c) c f (tn f) (fun i => intRes ty false (if A i ≤ B .imin i then A i else B .imin i))))) ∧
    (Ready .imax f s c → exec (.imax f) s =
      .next (clearIssuer (vecWrite (past .imax f s c) c f (tn f) (fun i => intRes ty false (if A i ≤ B .imax i then B .imax i else A i))))) ∧
    (Ready .iabsd f s c → exec (.iabsd f) s =
      .next (clearIssuer (vecWrite (past .iabsd f s c) c f (tn f) (fun i => intRes ty (satBit f) (((A i - B .iabsd i).natAbs : Int))))))

/-- Wrap or sat (03 R59, 05 R119): of every integer type and every exact result, the register value reads, in the
type, as the result modulo 2^w in the type's range, or under .sat as the result clamped to that range. -/
def Obligations.IntegerResultWrapsOrClamps : Prop :=
  ∀ (t : Nat) (r : Int), t ≤ 7 →
    let w := typeBits t
    let v := intOf t (intRes t false r)
    (∃ q : Int, r = v + q * (2 ^ w : Nat)) ∧
      (typeRange (t % 2 = 1) w).1 ≤ v ∧ v ≤ (typeRange (t % 2 = 1) w).2 ∧
      intOf t (intRes t true r) = max (typeRange (t % 2 = 1) w).1 (min r (typeRange (t % 2 = 1) w).2)

/-- Shifts, bit fields, counts and the bitwise operations of the integer-vector class (05 R117, R118, R119): a shift
count is b modulo the width, or under .clamp the least of b and the width. -/
def Obligations.IntegerBitResults : Prop :=
  ∀ (f : WarpWord) (s : State) (c : Ctx),
    let ty := typeCode f
    let w := tw f
    let A := fun i => opA s c f (tn f) i
    let cnt := fun op i => if f.mod.getLsbD 5 then min (b32 s c op f i).toNat w else (b32 s c op f i).toNat % w
    (Ready .ishl f s c → exec (.ishl f) s =
      .next (clearIssuer (vecWrite (past .ishl f s c) c f (tn f) (fun i => BitVec.ofNat 64 ((A i).toNat % 2 ^ w * 2 ^ cnt .ishl i % 2 ^ w))))) ∧
    (Ready .ishr f s c → exec (.ishr f) s =
      .next (clearIssuer (vecWrite (past .ishr f s c) c f (tn f) (fun i => BitVec.ofNat 64 ((A i).toNat % 2 ^ w / 2 ^ cnt .ishr i))))) ∧
    (Ready .ishra f s c → exec (.ishra f) s =
      .next (clearIssuer (vecWrite (past .ishra f s c) c f (tn f) (fun i => intRes ty false (intOf ty (A i) / (2 ^ cnt .ishra i : Nat)))))) ∧
    (Ready .fshf f s c → exec (.fshf f) s =
      .next (clearIssuer (vecWrite (past .fshf f s c) c f 1 (fun i =>
        fshfVal (f.mod.getLsbD 5) (f.mod.getLsbD 6) (a32 s c f i) (b32 s c .fshf f i) (c32 s c f i))))) ∧
    (Ready .bool3 f s c → exec (.bool3 f) s =
      .next (clearIssuer (vecWrite (past .bool3 f s c) c f (tn f) (fun i =>
        bool3Val (modBits f 4 8) (A i) (opB s c .bool3 f (tn f) i) (opC s c f (tn f) i))))) ∧
    (Ready .bfx f s c → exec (.bfx f) s =
      .next (clearIssuer (vecWrite (past .bfx f s c) c f (tn f) (fun i => bfxVal ty (A i) (b32 s c .bfx f i))))) ∧
    (Ready .bfi f s c → exec (.bfi f) s =
      .next (clearIssuer (vecWrite (past .bfi f s c) c f (tn f) (fun i => bfiVal w (A i) (b32 s c .bfi f i) (opC s c f (tn f) i))))) ∧
    (Ready .clz f s c → exec (.clz f) s =
      .next (clearIssuer (vecWrite (past .clz f s c) c f 1 (fun i => clzVal w (A i))))) ∧
    (Ready .popc f s c → exec (.popc f) s =
      .next (clearIssuer (vecWrite (past .popc f s c) c f 1 (fun i => BitVec.ofNat 64 (popcount w (A i).toNat))))) ∧
    (Ready .brev f s c → exec (.brev f) s =
      .next (clearIssuer (vecWrite (past .brev f s c) c f (tn f) (fun i => brevVal w (A i)))))

/-- Moves, comparisons, selection, the carry chain, the byte dot product and the byte selector (05 R120 to R123): ICMP
writes all ones or zero, or under .m the mask bits of P; IADDC writes the 32-bit sum and the carry bits of P. -/
def Obligations.IntegerMoveSelectResults : Prop :=
  ∀ (f : WarpWord) (s : State) (c : Ctx),
    let A := fun i => opA s c f (tn f) i
    let hit := fun i => intCond (modBits f 5 3) (intOf (typeCode f) (A i)) (intOf (typeCode f) (opB s c .icmp f (tn f) i))
    let m := c.warp.mreg f.c.toNat
    let y := fun i => if f.mod.getLsbD 5 then ~~~(b32 s c .iaddc f i) else b32 s c .iaddc f i
    let sum := fun i => (a32 s c f i).toNat + (y i).toNat + (if m.getLsbD i then 1 else 0)
    (Ready .mov f s c → exec (.mov f) s =
      .next (clearIssuer (vecWrite (past .mov f s c) c f (tn f) A))) ∧
    (Ready .movi f s c → exec (.movi f) s =
      .next (clearIssuer (vecWrite (past .movi f s c) c f (tn f) (fun _ => immOf .movi f)))) ∧
    (Ready .icmp f s c → f.mod.getLsbD 8 = false → exec (.icmp f) s =
      .next (clearIssuer (vecWrite (past .icmp f s c) c f 1 (fun i => if hit i then 0xFFFFFFFF else 0)))) ∧
    (Ready .icmp f s c → f.mod.getLsbD 8 = true → exec (.icmp f) s =
      .next (clearIssuer (mwrite (past .icmp f s c) c.g c.w f.dst.toNat (maskBits (c.warp.mreg f.dst.toNat) c.p hit)))) ∧
    (Ready .sel f s c → exec (.sel f) s =
      .next (clearIssuer (vecWrite (past .sel f s c) c f (tn f) (fun i =>
        if (if f.mod.getLsbD 5 then m.getLsbD i else decide (c32 s c f i ≠ 0)) then A i else opB s c .sel f (tn f) i)))) ∧
    (Ready .iaddc f s c → exec (.iaddc f) s =
      .next (clearIssuer (mwrite (vecWrite (past .iaddc f s c) c f 1 (fun i => BitVec.ofNat 64 (sum i % 2 ^ 32))) c.g c.w f.c.toNat
        (maskBits m c.p (fun i => decide (2 ^ 32 ≤ sum i)))))) ∧
    (Ready .idp4 f s c → exec (.idp4 f) s =
      .next (clearIssuer (vecWrite (past .idp4 f s c) c f 1 (fun i =>
        idp4Val (satBit f) (f.mod.getLsbD 5) (f.mod.getLsbD 6) (opA s c f 1 i) (opB s c .idp4 f 1 i) (opC s c f 1 i))))) ∧
    (Ready .bysel f s c → exec (.bysel f) s =
      .next (clearIssuer (vecWrite (past .bysel f s c) c f 1 (fun i => byselVal (a32 s c f i) (b32 s c .bysel f i) (c32 s c f i)))))

/-- FADD, FSUB, FMUL, FFMA, FMIN, FMAX and FCMP (05 R124, R126, R127, R128): each lane of P receives its rounded result,
its flags are collected into FPSTAT (03 R78) and its SEED moves on (03 R75). -/
def Obligations.FloatArithmeticResults : Prop :=
  ∀ (f : WarpWord) (s : State) (c : Ctx),
    let each := fun (r : Nat → Rounded) => (lanesOf c.p).map (fun i =>
      (⟨i, regWrites f.dst.toNat i (tn f) (BitVec.ofNat 64 (r i).code), (r i).fl, (r i).st⟩ : LaneRes))
    (Ready .fadd f s c → exec (.fadd f) s =
      .next (clearIssuer (applyLanes (past .fadd f s c) c (each (fun i =>
        arithVal .add (typeCode f) (rndCode f) (ftzBit f) (c.warp.seed i) (opA s c f (tn f) i) (opB s c .fadd f (tn f) i) 0))))) ∧
    (Ready .fsub f s c → exec (.fsub f) s =
      .next (clearIssuer (applyLanes (past .fsub f s c) c (each (fun i =>
        arithVal .sub (typeCode f) (rndCode f) (ftzBit f) (c.warp.seed i) (opA s c f (tn f) i) (opB s c .fsub f (tn f) i) 0))))) ∧
    (Ready .fmul f s c → exec (.fmul f) s =
      .next (clearIssuer (applyLanes (past .fmul f s c) c (each (fun i =>
        arithVal .mul (typeCode f) (rndCode f) (ftzBit f) (c.warp.seed i) (opA s c f (tn f) i) (opB s c .fmul f (tn f) i) 0))))) ∧
    (Ready .ffma f s c → exec (.ffma f) s =
      .next (clearIssuer (applyLanes (past .ffma f s c) c (each (fun i =>
        arithVal .fma (typeCode f) (rndCode f) (ftzBit f) (c.warp.seed i) (opA s c f (tn f) i) (opB s c .ffma f (tn f) i) (opC s c f (tn f) i)))))) ∧
    (Ready .fmin f s c → exec (.fmin f) s =
      .next (clearIssuer (applyLanes (past .fmin f s c) c (each (fun i =>
        minMaxVal false (typeCode f) (ftzBit f) (c.warp.seed i) (opA s c f (tn f) i) (opB s c .fmin f (tn f) i)))))) ∧
    (Ready .fmax f s c → exec (.fmax f) s =
      .next (clearIssuer (applyLanes (past .fmax f s c) c (each (fun i =>
        minMaxVal true (typeCode f) (ftzBit f) (c.warp.seed i) (opA s c f (tn f) i) (opB s c .fmax f (tn f) i)))))) ∧
    (let out := fun i => fCompare (modBits f 8 3) (fmtOf (typeCode f)) (ftzBit f) (opA s c f (tn f) i).toNat (opB s c .fcmp f (tn f) i).toNat
    (Ready .fcmp f s c → exec (.fcmp f) s =
      .next (clearIssuer (raiseFlags (writeCompare (past .fcmp f s c) c f (f.mod.getLsbD 11) (fun i => (out i).1)) c.g c.w
        ((lanesOf c.p).foldl (fun fl i => fl ||| (out i).2) 0)))))

/-- FRCP, FSQRT, FDIV, FRND, FSCALE and FCLASS (05 R129, R132 to R134), and the approximated functions (05 R130, R131), whose
value each lane takes from a free value of its own within the stated bound (logs 4 and 7). -/
def Obligations.FloatFunctionResults : Prop :=
  ∀ (f : WarpWord) (s : State) (c : Ctx),
    let each := fun (r : Nat → Rounded) => (lanesOf c.p).map (fun i =>
      (⟨i, regWrites f.dst.toNat i (tn f) (BitVec.ofNat 64 (r i).code), (r i).fl, (r i).st⟩ : LaneRes))
    let F := fmtOf (typeCode f)
    let keep := fun (r : Nat → Nat × BitVec 5) => each (fun i => ⟨(r i).1, (r i).2, c.warp.seed i⟩)
    let any := fun i => (Config.freeValue (s.freeCtr + i)).toNat
    let drawn := fun (t : State) => { t with freeCtr := t.freeCtr + 32 }
    (Ready .frcp f s c → exec (.frcp f) s =
      .next (clearIssuer (applyLanes (past .frcp f s c) c (keep (fun i => fRcp F (rndCode f) (ftzBit f) (aCode s c f i)))))) ∧
    (Ready .fsqrt f s c → exec (.fsqrt f) s =
      .next (clearIssuer (applyLanes (past .fsqrt f s c) c (keep (fun i => fSqrt F (rndCode f) (ftzBit f) (aCode s c f i)))))) ∧
    (Ready .fdiv f s c → exec (.fdiv f) s =
      .next (clearIssuer (applyLanes (past .fdiv f s c) c (keep (fun i =>
        fDiv F (rndCode f) (ftzBit f) (aCode s c f i) (elemOf (typeCode f) 0 (opB s c .fdiv f (tn f) i))))))) ∧
    (Ready .frnd f s c → exec (.frnd f) s =
      .next (clearIssuer (applyLanes (past .frnd f s c) c (keep (fun i => fRnd F (rndCode f) (ftzBit f) (aCode s c f i)))))) ∧
    (Ready .fscale f s c → exec (.fscale f) s =
      .next (clearIssuer (applyLanes (past .fscale f s c) c (keep (fun i =>
        fScale F (rndCode f) (ftzBit f) (aCode s c f i) (b32 s c .fscale f i).toInt))))) ∧
    (Ready .fclass f s c → exec (.fclass f) s =
      .next (clearIssuer (vecWrite (past .fclass f s c) c f 1 (fun i => BitVec.ofNat 64 (fClass F ((opA s c f (tn f) i).toNat % 2 ^ F.width)))))) ∧
    (Ready .frsq f s c → exec (.frsq f) s =
      .next (clearIssuer (applyLanes (drawn (past .frsq f s c)) c (keep (fun i => fRsq F (ftzBit f) (any i) (aCode s c f i)))))) ∧
    (Ready .fexp2 f s c → exec (.fexp2 f) s =
      .next (clearIssuer (applyLanes (drawn (past .fexp2 f s c)) c (keep (fun i => fExp2 F (ftzBit f) (any i) (aCode s c f i)))))) ∧
    (Ready .flog2 f s c → exec (.flog2 f) s =
      .next (clearIssuer (applyLanes (drawn (past .flog2 f s c)) c (keep (fun i => fLog2 F (ftzBit f) (any i) (aCode s c f i)))))) ∧
    (Ready .fsinpi f s c → exec (.fsinpi f) s =
      .next (clearIssuer (applyLanes (drawn (past .fsinpi f s c)) c (keep (fun i => fSinCos false F (ftzBit f) (any i) (aCode s c f i)))))) ∧
    (Ready .fcospi f s c → exec (.fcospi f) s =
      .next (clearIssuer (applyLanes (drawn (past .fcospi f s c)) c (keep (fun i => fSinCos true F (ftzBit f) (any i) (aCode s c f i)))))) ∧
    (Ready .ftanh f s c → exec (.ftanh f) s =
      .next (clearIssuer (applyLanes (drawn (past .ftanh f s c)) c (keep (fun i => fTanh F (ftzBit f) (any i) (aCode s c f i))))))

/-- CVT, PACK, UNPACK, QBLK and DQBLK (03 R80 to R85): elements are converted in ascending order, the stochastic register
threaded through them; a block's scale is R76's, one lane's block for E2M1 and that of its eight lanes for the FP8 formats. -/
def Obligations.ConversionResults : Prop :=
  ∀ (f : WarpWord) (s : State) (c : Ctx),
    let dt := typeCode f
    let sty := srcType f
    let k := packRegs dt sty
    let regs := fun (v : BitVec 8) i => (List.range k).map (fun j => vread64 s c.g c.w (v.toNat + j) i 1)
    let packed := fun i => convertAll dt sty (rndCode f) (ftzBit f) (c.warp.seed i) (regs f.a i ++ regs f.b i)
    let u := unpackRegs dt sty
    let elem := fun i j => unpackElem dt sty (BitVec.ofNat 64 (bits (vread s c.g c.w f.a.toNat i).toNat (32 / u * j) (32 / u)))
    let q := if dt = 14 then 8 else 4
    let scale := fun i => blockScale (fmtOf dt) ((if dt = 14 then [i] else (lanesOf c.p).filter (fun j => j / 8 = i / 8)).flatMap
      (fun j => f32Regs s c f.a q j))
    let quant := fun i => quantise (fmtOf dt) (rndCode f) (c.warp.seed i) (scale i) (f32Regs s c f.a q i)
    let e := if sty = 14 then 8 else 4
    (Ready .cvt f s c → exec (.cvt f) s =
      .next (clearIssuer (applyLanes (past .cvt f s c) c ((lanesOf c.p).map (fun i =>
        let r := convert dt sty (rndCode f) (ftzBit f) (c.warp.seed i) (opA s c f (typeRegs sty) i)
        ⟨i, regWrites f.dst.toNat i (tn f) r.1, r.2.1, r.2.2⟩))))) ∧
    (Ready .pack f s c → exec (.pack f) s =
      .next (clearIssuer (applyLanes (past .pack f s c) c ((lanesOf c.p).map (fun i =>
        ⟨i, [(f.dst.toNat, i, BitVec.ofNat 32 (packBits (16 / k) (packed i).1))], (packed i).2.1, (packed i).2.2⟩))))) ∧
    (Ready .unpack f s c → exec (.unpack f) s =
      .next (clearIssuer (applyLanes (past .unpack f s c) c ((lanesOf c.p).map (fun i =>
        ⟨i, (List.range u).map (fun j => (f.dst.toNat + j, i, (elem i j).1.setWidth 32)),
          (List.range u).foldl (fun fl j => fl ||| (elem i j).2) 0, c.warp.seed i⟩))))) ∧
    (Ready .qblk f s c → exec (.qblk f) s =
      .next (clearIssuer (applyLanes (past .qblk f s c) c ((lanesOf c.p).map (fun i =>
        ⟨i, [(f.dst.toNat, i, BitVec.ofNat 32 (packBits (32 / q) (quant i).1)), (f.dst.toNat + 1, i, BitVec.ofNat 32 (scale i))],
          (quant i).2.1, (quant i).2.2⟩))))) ∧
    (Ready .dqblk f s c → exec (.dqblk f) s =
      .next (clearIssuer (vwrites (past .dqblk f s c) c.g c.w ((lanesOf c.p).flatMap (fun i => (List.range e).map (fun j =>
        (f.dst.toNat + j, i, BitVec.ofNat 32 (roundTo f32 0 0 (fvMul
          ((fmtOf sty).decode (bits (vread s c.g c.w f.a.toNat i).toNat (32 / e * j) (32 / e)))
          (e3m5 (vread s c.g c.w (f.a.toNat + 1) i).toNat))).code)))))))

/-- The scalar class (05 R136, R137, R139): the s-register that dst names receives the value, s0 none (04 R88); SCMP sets SF;
V2S reads one lane. -/
def Obligations.ScalarResults : Prop :=
  ∀ (f : WarpWord) (s : State) (c : Ctx),
    let u := f.mod.getLsbD 0
    (Ready .sadd f s c → exec (.sadd f) s =
      .next (clearIssuer (swrite (past .sadd f s c) c.g c.w f.dst.toNat ((sA c f) + (sB c .sadd f))))) ∧
    (Ready .ssub f s c → exec (.ssub f) s =
      .next (clearIssuer (swrite (past .ssub f s c) c.g c.w f.dst.toNat ((sA c f) - (sB c .ssub f))))) ∧
    (Ready .smul f s c → exec (.smul f) s =
      .next (clearIssuer (swrite (past .smul f s c) c.g c.w f.dst.toNat ((sA c f) * (sB c .smul f))))) ∧
    (Ready .smulh f s c → exec (.smulh f) s =
      .next (clearIssuer (swrite (past .smulh f s c) c.g c.w f.dst.toNat (if u then BitVec.ofNat 64 ((sA c f).toNat * (sB c .smulh f).toNat / 2 ^ 64) else BitVec.ofInt 64 ((sA c f).toInt * (sB c .smulh f).toInt / (2 ^ 64 : Nat)))))) ∧
    (Ready .sand f s c → exec (.sand f) s =
      .next (clearIssuer (swrite (past .sand f s c) c.g c.w f.dst.toNat ((sA c f) &&& (sB c .sand f))))) ∧
    (Ready .sor f s c → exec (.sor f) s =
      .next (clearIssuer (swrite (past .sor f s c) c.g c.w f.dst.toNat ((sA c f) ||| (sB c .sor f))))) ∧
    (Ready .sxor f s c → exec (.sxor f) s =
      .next (clearIssuer (swrite (past .sxor f s c) c.g c.w f.dst.toNat ((sA c f) ^^^ (sB c .sxor f))))) ∧
    (Ready .sshl f s c → exec (.sshl f) s =
      .next (clearIssuer (swrite (past .sshl f s c) c.g c.w f.dst.toNat ((sA c f) <<< ((sB c .sshl f).toNat % 64))))) ∧
    (Ready .sshr f s c → exec (.sshr f) s =
      .next (clearIssuer (swrite (past .sshr f s c) c.g c.w f.dst.toNat ((sA c f) >>> ((sB c .sshr f).toNat % 64))))) ∧
    (Ready .sshra f s c → exec (.sshra f) s =
      .next (clearIssuer (swrite (past .sshra f s c) c.g c.w f.dst.toNat ((sA c f).sshiftRight ((sB c .sshra f).toNat % 64))))) ∧
    (Ready .smin f s c → exec (.smin f) s =
      .next (clearIssuer (swrite (past .smin f s c) c.g c.w f.dst.toNat (if u then BitVec.ofNat 64 (min (sA c f).toNat (sB c .smin f).toNat) else BitVec.ofInt 64 (min (sA c f).toInt (sB c .smin f).toInt))))) ∧
    (Ready .smax f s c → exec (.smax f) s =
      .next (clearIssuer (swrite (past .smax f s c) c.g c.w f.dst.toNat (if u then BitVec.ofNat 64 (max (sA c f).toNat (sB c .smax f).toNat) else BitVec.ofInt 64 (max (sA c f).toInt (sB c .smax f).toInt))))) ∧
    (Ready .ssel f s c → exec (.ssel f) s =
      .next (clearIssuer (swrite (past .ssel f s c) c.g c.w f.dst.toNat (if c.warp.sf then (sA c f) else (sB c .ssel f))))) ∧
    (Ready .smov f s c → exec (.smov f) s =
      .next (clearIssuer (swrite (past .smov f s c) c.g c.w f.dst.toNat ((sA c f))))) ∧
    (Ready .sli f s c → exec (.sli f) s =
      .next (clearIssuer (swrite (past .sli f s c) c.g c.w f.dst.toNat (if u then (sB c .sli f) <<< 32 ||| (c.warp.sreg f.dst.toNat &&& 0xFFFFFFFF) else (sB c .sli f))))) ∧
    (Ready .sbfx f s c → exec (.sbfx f) s =
      .next (clearIssuer (swrite (past .sbfx f s c) c.g c.w f.dst.toNat (bfxVal (if u then 3 else 2) (sA c f) ((sB c .sbfx f).setWidth 32))))) ∧
    (Ready .sclz f s c → exec (.sclz f) s =
      .next (clearIssuer (swrite (past .sclz f s c) c.g c.w f.dst.toNat (clzVal 64 (sA c f))))) ∧
    (Ready .spopc f s c → exec (.spopc f) s =
      .next (clearIssuer (swrite (past .spopc f s c) c.g c.w f.dst.toNat (BitVec.ofNat 64 (popcount 64 (sA c f).toNat))))) ∧
    (let out := scmpCond (modBits f 0 4) (sA c f) (sB c .scmp f)
    (Ready .scmp f s c → exec (.scmp f) s =
      .next (clearIssuer (modWarp (swrite (past .scmp f s c) c.g c.w f.dst.toNat (if out then 1 else 0)) c.g c.w
        (fun x => { x with sf := out }))))) ∧
    (Ready .v2s f s c → exec (.v2s f) s =
      .next (clearIssuer (swrite (past .v2s f s c) c.g c.w f.dst.toNat (if f.mod.getLsbD 1 ∧ c.exec = 0 then 0
        else vread64 s c.g c.w f.a.toNat (if f.mod.getLsbD 1 then (lowest c.exec).getD 0 else (sB c .v2s f).toNat % 32)
          (if f.mod.getLsbD 0 then 2 else 1)))))

/-- The mask instructions (04 R108 to R110): BALLOT, VOTE, LEADER, MSK.OP, MSK.SAVE and MSK.WSET write a mask register or
WMASK, POPC.M and FIRST.M an s-register. -/
def Obligations.MaskResults : Prop :=
  ∀ (f : WarpWord) (s : State) (c : Ctx),
    let m := fun (v : BitVec 8) => c.warp.mreg v.toNat
    (Ready .ballot f s c → exec (.ballot f) s =
      .next (clearIssuer (mwrite (past .ballot f s c) c.g c.w f.dst.toNat (maskOf ((lanesOf c.p).filter (fun i => a32 s c f i ≠ 0)))))) ∧
    (Ready .vote f s c → exec (.vote f) s =
      .next (clearIssuer (mwrite (past .vote f s c) c.g c.w f.dst.toNat (maskBits (m f.dst) c.p (fun _ => voteValue (modBits f 0 2) ((lanesOf c.p).map (a32 s c f))))))) ∧
    (Ready .leader f s c → exec (.leader f) s =
      .next (clearIssuer (mwrite (past .leader f s c) c.g c.w f.dst.toNat (match lowest c.p with
        | some i => laneBit i
        | none => 0)))) ∧
    (Ready .mskOp f s c → exec (.mskOp f) s =
      .next (clearIssuer (mwrite (past .mskOp f s c) c.g c.w f.dst.toNat (mskValue (modBits f 0 3) (m f.a) (m f.b))))) ∧
    (Ready .mskSave f s c → exec (.mskSave f) s =
      .next (clearIssuer (mwrite (past .mskSave f s c) c.g c.w f.dst.toNat (if modBits f 0 2 = 0 then c.exec else if modBits f 0 2 = 1 then c.warp.mask else c.frag)))) ∧
    (Ready .mskWset f s c → exec (.mskWset f) s =
      .next (clearIssuer (modWarp (past .mskWset f s c) c.g c.w (fun x => x.setMask ((c.warp.mask &&& ~~~c.frag) |||
        ((if modBits f 0 1 = 1 then c.warp.mask &&& m f.a else m f.a) &&& c.frag)))))) ∧
    (Ready .popcM f s c → exec (.popcM f) s =
      .next (clearIssuer (swrite (past .popcM f s c) c.g c.w f.dst.toNat (BitVec.ofNat 64 (lanesOf (m f.a)).length)))) ∧
    (Ready .firstM f s c → exec (.firstM f) s =
      .next (clearIssuer (swrite (past .firstM f s c) c.g c.w f.dst.toNat (BitVec.ofNat 64 ((lowest (m f.a)).getD 32)))))

/-- SHFL, BCAST, LSCAN and LRED (04 R111 to R113): the values of a are those of every lane before the instruction; a scan
combines the lanes of P in ascending order from the identity. -/
def Obligations.CrossLaneResults : Prop :=
  ∀ (f : WarpWord) (s : State) (c : Ctx),
    let v := fun i => vread s c.g c.w f.a.toNat i
    let scan := scanRun (modBits f 6 3) (typeCode f) ((lanesOf c.p).map (fun i => (i, v i)))
    (Ready .shfl f s c → exec (.shfl f) s =
      .next (clearIssuer (vwrites (past .shfl f s c) c.g c.w ((lanesOf c.p).map (fun i => (f.dst.toNat, i,
        v (shflLane (shflWidth f) (modBits f 0 2) (f.mod.getLsbD 5) i
          (if modBits f 0 2 = 3 then 0 else (opB s c .shfl f 1 i).setWidth 32)))))))) ∧
    (Ready .bcast f s c → exec (.bcast f) s =
      .next (clearIssuer (vwrites (past .bcast f s c) c.g c.w ((lanesOf c.p).map (fun i => (f.dst.toNat, i,
        v (if f.mod.getLsbD 0 then (lowest c.p).getD 0 else (sB c .bcast f).toNat % 32))))))) ∧
    (Ready .lscan f s c → exec (.lscan f) s =
      .next (clearIssuer (raiseFlags (vwrites (past .lscan f s c) c.g c.w (scan.1.map (fun x =>
        (f.dst.toNat, x.1, if f.mod.getLsbD 9 then x.2.1 else x.2.2)))) c.g c.w scan.2.2))) ∧
    (Ready .lred f s c → exec (.lred f) s =
      .next (clearIssuer (raiseFlags (vwrites (past .lred f s c) c.g c.w ((lanesOf c.p).map (fun i => (f.dst.toNat, i, scan.2.1)))) c.g c.w scan.2.2)))
/-- NOP, BRA, CALL, RET, YIELD, SLEEP and a JOIN that is not the fragment's (04 R101, R102, R104, R105, R107): where the fragment
goes, the return address CALL writes in every lane of FRAG, the clamp of SLEEP; a RET whose lanes hold one address, and one outside
trap level 1 whose lanes hold several: the lowest lane's group stays, and each other group gets an entry of its own at its address,
with the fragment's RCA, DEPTH and AGE. Which group takes which FREE entry is the model's choice (log 51). -/
def Obligations.ControlResults : Prop :=
  ∀ (f : WarpWord) (s : State) (c : Ctx),
    let tgt := branchTarget c f
    let n := min (sB c .sleep f).toNat 1048575
    (Ready .nop f s c → exec (.nop f) s =
      .next (clearIssuer (past .nop f s c))) ∧
    (Ready .bra f s c → (f.guard = 0 ∨ c.p ≠ 0) → tgt.toNat % 8 = 0 → exec (.bra f) s =
      .next (clearIssuer (setPc (past .bra f s c) c.g c.w c.e tgt))) ∧
    (Ready .bra f s c → f.guard ≠ 0 → c.p = 0 → exec (.bra f) s =
      .next (clearIssuer (past .bra f s c))) ∧
    (Ready .call f s c → tgt.toNat % 8 = 0 → exec (.call f) s =
      .next (clearIssuer (setPc (vwrites (past .call f s c) c.g c.w
        ((lanesOf c.frag).flatMap (fun i => regWrites f.dst.toNat i 2 (c.pc + 16)))) c.g c.w c.e tgt))) ∧
    (∀ a : Word64, a.toNat % 8 = 0 → c.frag ≠ 0 → (∀ i ∈ lanesOf c.frag, vread64 s c.g c.w f.a.toNat i 2 = a) →
      Ready .ret f s c → exec (.ret f) s = .next (clearIssuer (setPc (past .ret f s c) c.g c.w c.e a))) ∧
    (∀ first others, let adr := fun i => vread64 s c.g c.w f.a.toNat i 2
      (∀ i ∈ lanesOf c.frag, (adr i).toNat % 8 = 0) → nub ((lanesOf c.frag).map adr) = first :: others → others ≠ [] →
      c.warp.bank = none → Ready .ret f s c →
      exec (.ret f) s = .next (clearIssuer (refuse (modWarp (setPc (past .ret f s c) c.g c.w c.e first) c.g c.w (fun x =>
        splitReturns x c.e (others.map (fun a => (a, maskOf ((lanesOf c.frag).filter (fun i => adr i = a))))))) c.g c.w))) ∧
    (Ready .yield f s c → exec (.yield f) s =
      .next (clearIssuer (yieldFrag (past .yield f s c) c))) ∧
    (Ready .sleep f s c → n = 0 → exec (.sleep f) s =
      .next (clearIssuer (yieldFrag (past .sleep f s c) c))) ∧
    (Ready .sleep f s c → n ≠ 0 → exec (.sleep f) s =
      .next (clearIssuer (blockFrag (past .sleep f s c) c.g c.w c.e (.sleep (s.clock + n))))) ∧
    (∀ fr, mget c.warp.frags c.e = some fr → fr.rca ≠ c.pc → Ready .join f s c →
      exec (.join f) s = .next (clearIssuer (past .join f s c)))

/-- Divergence and its end (04 R94, R95, R103, R104, R106): a BRX taken by no lane, by every lane, and by some, which gives
the taken lanes a new entry and both parts the reconvergence address J, depth one more and the old RCA in the named
s-register, or leaves them as they are where J already is the fragment's; a JOIN that is the fragment's; an EXIT of some
lanes, of the last lanes of a fragment, and of the last fragment of a warp with no result for an exchange register under
way, in its turn among its workgroup's barrier operations. The age of a JOINWAIT entry is the model's choice (log 51). -/
def Obligations.DivergenceResults : Prop :=
  ∀ (f : WarpWord) (s : State) (c : Ctx),
    ∀ fr, mget c.warp.frags c.e = some fr →
    let T := brxTaken s c f
    let N := fr.mask &&& ~~~T
    let tgt := c.pc + disp f 0
    let J := c.pc + disp f 32
    let left := fr.mask &&& ~~~guardMask c.warp f.guard
    tgt.toNat % 8 = 0 → J.toNat % 8 = 0 → J ≠ 0 →
    (Ready .brx f s c → T = 0 → exec (.brx f) s =
      .next (clearIssuer (past .brx f s c))) ∧
    (Ready .brx f s c → T ≠ 0 → N = 0 → exec (.brx f) s =
      .next (clearIssuer (setPc (past .brx f s c) c.g c.w c.e tgt))) ∧
    (Ready .brx f s c → T ≠ 0 → N ≠ 0 → fr.rca = J → exec (.brx f) s =
      .next (clearIssuer (refuse (modWarp (past .brx f s c) c.g c.w (fun x => splitFrag x c.e T tgt J fr.depth 0)) c.g c.w))) ∧
    (Ready .brx f s c → T ≠ 0 → N ≠ 0 → fr.rca ≠ J → fr.depth ≠ 31 → exec (.brx f) s =
      .next (clearIssuer (refuse (modWarp (past .brx f s c) c.g c.w
        (fun x => splitFrag (x.setSreg f.dst.toNat fr.rca) c.e T tgt J (fr.depth + 1) 0)) c.g c.w))) ∧
    (Ready .join f s c → fr.rca = c.pc → exec (.join f) s =
      .next (clearIssuer (refuse (modWarp (past .join f s c) c.g c.w (fun x =>
        { x with frags := mset x.frags c.e { fr with pc := c.pc + 8, state := .joinWait f.a.toNat, age := 0 } })) c.g c.w))) ∧
    (Ready .exit f s c → left ≠ 0 → exec (.exit f) s =
      .next (clearIssuer (refuse (modWarp (past .exit f s c) c.g c.w (fun x =>
        { x with frags := mmod x.frags c.e (fun q => { q with mask := left }) })) c.g c.w))) ∧
    (Ready .exit f s c → left = 0 → (∃ e, e ≠ c.e ∧ (mget c.warp.frags e).isSome) → exec (.exit f) s =
      .next (clearIssuer (refuse (modWarp (past .exit f s c) c.g c.w
        (fun x => { x with frags := mdel x.frags c.e })) c.g c.w))) ∧
    (Ready .exit f s c → left = 0 → (∀ q ∈ c.warp.frags, q.1 = c.e) → exchanging s c.g c.w = false →
      (enrolled s c.g c.w = true → barTurn s c.g c.w = true) → exec (.exit f) s =
      .next (clearIssuer (endWarp (modWarp (past .exit f s c) c.g c.w
        (fun x => { x with frags := mdel x.frags c.e })) c.g c.w)))

/-- GETSR and SETSR (04 R114, 03 R75): GETSR reads into an s-register or in each lane of P, CLOCK into two registers; SETSR
writes WMASK, FPSTAT, or the SEED of each lane of P, where 0 is written as 1; with P empty it writes nothing. -/
def Obligations.SpecialRegisterResults : Prop :=
  ∀ (f : WarpWord) (s : State) (c : Ctx),
    let code := f.a.toNat
    let v := fun i => (opB s c .setsr f 1 i).setWidth 32
    (Ready .getsr f s c → f.mod.getLsbD 0 = true → exec (.getsr f) s =
      .next (clearIssuer (swrite (past .getsr f s c) c.g c.w f.dst.toNat (srValue s c code 0)))) ∧
    (Ready .getsr f s c → f.mod.getLsbD 0 = false → exec (.getsr f) s =
      .next (clearIssuer (vwrites (past .getsr f s c) c.g c.w ((lanesOf c.p).flatMap (fun i =>
        regWrites f.dst.toNat i (if code = 0x0E then 2 else 1) (srValue s c code i)))))) ∧
    (Ready .setsr f s c → c.p = 0 → exec (.setsr f) s =
      .next (clearIssuer (past .setsr f s c))) ∧
    (∀ low, lowest c.p = some low →
    (Ready .setsr f s c → code = 0x08 → exec (.setsr f) s =
      .next (clearIssuer (modWarp (past .setsr f s c) c.g c.w (fun x =>
        x.setMask ((c.warp.mask &&& ~~~c.frag) ||| (v low &&& c.frag)))))) ∧
    (Ready .setsr f s c → code = 0x16 → exec (.setsr f) s =
      .next (clearIssuer (modWarp (past .setsr f s c) c.g c.w (fun x => { x with fpstat := (v low).setWidth 5 })))) ∧
    (Ready .setsr f s c → code = 0x17 → exec (.setsr f) s =
      .next (clearIssuer (modWarp (past .setsr f s c) c.g c.w (fun x =>
        (lanesOf c.p).foldl (fun x i => x.setSeed i (if v i = 0 then 1 else v i)) x)))))

/-- LD, ST, SLD and SST (07 R190 to R194, 05 R138) whose lanes' checks hold and whose accesses need not wait: a load samples its
bytes and is in flight; a store goes into the queue on the way to its point of coherence, or is performed at once inside a bank-lock
span and where its fragment has waited for the lamp unit; with no participating lane nothing is accessed. An LD.acq waits for the
marked accesses of its threads and the stores of its core to what it reads, an ST.rel for its lanes' earlier stores and atomics; an
SLD for the atomics of its warp that meet its bytes. The split into issue and performance is the model's reading of 08 R211 (log 5);
the upper half of a 128-bit scalar store is free (log 11). -/
def Obligations.LoadStoreResults : Prop :=
  ∀ (f : WarpWord) (s : State) (c : Ctx),
    let sp := spaceCode f
    let core := c.wg.core
    let n := accessBytes f
    let k := 2 ^ modBits f 0 2
    (Ready .ld f s c → c.p = 0 → exec (.ld f) s =
      .next (clearIssuer (past .ld f s c))) ∧
    (Ready .st f s c → c.p = 0 → exec (.st f) s =
      .next (clearIssuer (past .st f s c))) ∧
    (∀ ps, checkLanes s c.agent sp n .read false (laneAddrs s c f sp) = .ok ps → c.p ≠ 0 →
      (modBits f 6 2 = 1 → acqReady s c c.p ps = true) → Ready .ld f s c →
      let t := past .ld f s c
      let how : LoadAs := ⟨policyOf f, decide (modBits f 6 2 = 1) && decide (modBits f 8 3 ≠ 0)⟩
      let u := loadFills t c.agent sp how ps
      exec (.ld f) s = .next (clearIssuer ((fun u => if modBits f 6 2 = 1 ∧ modBits f 8 3 ≠ 0 then acquire u core else u) (addLoad u
        c.agent ps (askedPlaces t c.agent sp how ps)
        { id := 0, since := 0, slices := [], reads := [], g := c.g, w := c.w, kind := .ld, space := sp, scal := none, token := none
          dst := f.dst.toNat, width := widthCode (bytesRegs n)
          vecs := ps.flatMap (fun p => loadWrites f.dst.toNat n (typeCode f) p.lane (loadNat t u core c.g c.w sp p)) })))) ∧
    (∀ ps, checkLanes s c.agent sp n .write false (laneAddrs s c f sp) = .ok ps → c.p ≠ 0 →
      (modBits f 6 2 = 2 → laneRelease s c.g c.w (modBits f 8 3) c.p = true) →
      Ready .st f s c →
      exec (.st f) s = .next (clearIssuer ((fun u => if n = 16 ∧ f.mod.getLsbD 12 = true then { u with freeCtr := u.freeCtr + 1 } else u)
        (lampFlush s c.agent (spanFlush (issueStores (touchPlaces (past .st f s c) c.agent ps) core c.g c.w n
          { marked := decide (modBits f 6 2 = 2), policy := policyOf f } ps (storeData s c f n)) core c.g c.w))))) ∧
    (∀ p, checkLanes s c.agent sp k .read false (scaAddr c f .sld) = .ok [p] →
      (∀ key, p.key = some key → warpAtomMeets s c.g c.w key p.bytes = false) → Ready .sld f s c →
      let t := past .sld f s c
      let u := loadFills t c.agent sp {} [p]
      exec (.sld f) s = .next (clearIssuer (addLoad u c.agent [p] (askedPlaces t c.agent sp {} [p])
        { id := 0, since := 0, slices := [], reads := [], g := c.g, w := c.w, kind := .sld, space := sp, vecs := [], token := none
          dst := 255, width := 0
          scal := some (f.dst.toNat, sldValue k (f.mod.getLsbD 2) (loadNat t u core c.g c.w sp p)) }))) ∧
    (∀ ps, checkLanes s c.agent sp k .write false (scaAddr c f .sst) = .ok ps → Ready .sst f s c →
      exec (.sst f) s = .next (clearIssuer (lampFlush s c.agent (spanFlush (issueStores (touchPlaces (past .sst f s c) c.agent ps)
        core c.g c.w k {} ps (fun _ => (c.warp.sreg f.dst.toNat).toNat)) core c.g c.w))))

/-- PREF, CCTL, HFLUSH, HINV, PHASE and PADQ (07 R185, R187, R195 to R200): CCTL drops a line of every participating lane, the
whole L1, or the constant cache; HFLUSH puts the write-back of each dirty line of its range into the store queue; HINV
waits; PHASE, in its turn among the workgroup's in a cycle, sets PHASE and the near mask, and waits where a newly protected unit is
not LIT; PADQ reads. Which host lines a range covers, and that a hint walks at once, are the model's readings (logs 12 and 26). -/
def Obligations.MemoryHintResults : Prop :=
  ∀ (f : WarpWord) (s : State) (c : Ctx),
    let core := c.wg.core
    let x' := { c.wg with phase := modBits f 0 3, nearMask := (sA c f).setWidth 48 }
    let fresh := (protects s x').filter (fun u => !(protects s c.wg).contains u)
    let vas := ((laneAddrs s c f (spaceCode f)).map (·.2)).filter (fun a => a.toNat % 4 = 0)
    let hinted := fun (op : Op) (as : List Word64) (act : State → Nat × Nat → State) =>
      let h := hintKeys (past op f s c) c as
      dropFailed ((h.1.getD []).foldl act h.2) (warpKey c.g c.w)
    (Ready .pref f s c → spaceCode f = 1 → exec (.pref f) s =
      .next (clearIssuer (vas.foldl (prefVault (modBits f 6 2) c) (past .pref f s c)))) ∧
    (Ready .pref f s c → spaceCode f ≠ 1 → (hintKeys s c vas).1.isSome = true → exec (.pref f) s =
      .next (clearIssuer (hinted .pref vas (prefLine c (modBits f 6 2) (decide (policyOf f = 2)))))) ∧
    (Ready .cctl f s c → modBits f 0 2 = 1 → exec (.cctl f) s =
      .next (clearIssuer (dropL1 (past .cctl f s c) core (fun _ => true)))) ∧
    (Ready .cctl f s c → modBits f 0 2 = 2 → exec (.cctl f) s =
      .next (clearIssuer (dropK (past .cctl f s c) core))) ∧
    (Ready .cctl f s c → modBits f 0 2 = 0 → (hintKeys s c ((laneAddrs s c f 0).map (·.2))).1.isSome = true → exec (.cctl f) s =
      .next (clearIssuer (hinted .cctl ((laneAddrs s c f 0).map (·.2)) (fun t q => dropL1 t core (fun l => l = q.1 / 128))))) ∧
    (∀ b, hostRange c f = some (b, 0) → Ready .hflush f s c → exec (.hflush f) s = .next (clearIssuer (past .hflush f s c))) ∧
    (∀ b, hostRange c f = some (b, 0) → Ready .hinv f s c → exec (.hinv f) s = .next (clearIssuer (past .hinv f s c))) ∧
    (∀ r, hostRange c f = r → (∀ p, r = some p → p.2 ≠ 0) → Ready .hflush f s c →
      exec (.hflush f) s = .next (clearIssuer (((nub ((s.hostLines.filter (·.2)).map (·.1) ++ pendingLines s c.g c.w)).filter
        (lineInRange s core c.wg.asid r)).foldl (fun t l => { t with
          stores := t.stores ++ [⟨t.nextId, core, c.g, c.w, .flush l, [], none, t.clock, 0, false, false, t.nextId, [], []⟩], nextId := t.nextId + 1 })
        (past .hflush f s c)))) ∧
    (hostRange c f = none → Ready .hinv f s c →
      exec (.hinv f) s = .next (clearIssuer (blockFrag (past .hinv f s c) c.g c.w c.e (.hinv true 0 0)))) ∧
    (∀ b n, hostRange c f = some (b, n) → n ≠ 0 → Ready .hinv f s c →
      exec (.hinv f) s = .next (clearIssuer (blockFrag (past .hinv f s c) c.g c.w c.e (.hinv false b n)))) ∧
    (inOrder s (clsPhase c.g) c.w = true → Ready .phase f s c → ∃ t, exec (.phase f) s = .next t ∧ getWg t c.g = some x' ∧
      (∀ g, g ≠ c.g → getWg t g = getWg s g) ∧ sameMemory s t ∧
      t.warps = (if ∀ u ∈ fresh, isLit s u = true then past .phase f s c
        else blockFrag (past .phase f s c) c.g c.w c.e (.lit fresh c.pc)).warps) ∧
    (Ready .padq f s c → exec (.padq f) s =
      .next (clearIssuer (swrite (past .padq f s c) c.g c.w f.dst.toNat (BitVec.ofNat 64 (padqValue s c.wg (modBits f 0 2) (sA c f))))))

/-- LOAD_LANDS, STORE_PERFORMED, HINV_COMPLETE, ATOMIC_REQUEST and DEDUP_ACK (07 R166, R198, 08 R211, R224): a pending access
reaches its point of coherence once the pseudo-channels it needs are LIT, its request to a peer has left, and nothing of its core
that comes before it is pending. When a pending access is performed is left to the order of turns (logs 3 and 5). -/
def Obligations.MemoryEvents : Prop :=
  ∀ (s : State) (id g w e : Nat),
    (∀ l, s.loads.find? (fun l => l.id = id && l.kind ≠ .lwld) = some l → darkHbm s (l.reads.map (fun r => r.2.2.1)) = [] → loadGone s l = true →
      exec (.loadLands id) s = .next (landLoad s l)) ∧
    (∀ st, s.stores.find? (fun e => e.id = id && e.token.isNone) = some st → storeReady s st = true →
      exec (.storePerformed id) s = .next (reapAll (performStore s st))) ∧
    (∀ x p all base len, getWg s g = some x → getWarp s g w = some p → waitOf p e = some (.hinv all base len) →
      heldWarp s g w = false →
      exec (.hinvComplete g w e) s = .next (discardLines (setWarp s g w (readyFrag p e))
        (lineInRange (setWarp s g w (readyFrag p e)) x.core x.asid (if all then none else some (base, len))))) ∧
    (∀ a, s.atoms.find? (fun a => a.id = id && !a.done) = some a → atomReady s a = true →
      exec (.atomicRequest id) s = .next (reapAll (applyAtom s a))) ∧
    exec (.dedupAck id) s = .next { s with
      atoms := s.atoms.filter (fun a => !(a.id = id && a.done)), dedup := s.dedup.filter (fun d => d.id ≠ id) } ∧
    (∀ x wake, getWarp s g w = some x → waitOf x e = some (.sleep wake) → wake ≤ s.clock → heldWarp s g w = false →
      exec (.sleepExpiry g w e) s = .next (setWarp s g w (readyFrag x e)))

/-- ATOM, ATOM.CAS and RED (08 R221 to R223) whose checks hold: away from the scratchpad and without acquire semantics, and with
acquire semantics on a peer's memory, the groups of lanes with one address become requests on their way, performed at once where the
fragment has waited for their lamp units; with no participating lane nothing happens; in the scratchpad and otherwise under acquire
semantics the groups run as the instruction issues, by their lowest lanes, which is the model's choice of the order (log 69). -/
def Obligations.AtomicResults : Prop :=
  ∀ (f : WarpWord) (s : State) (c : Ctx),
    let ty := typeCode f
    let k := modBits f 4 4
    let sp := if f.l then extBits f 37 2 else 0
    let swap := fun k => decide (k = 0 ∨ k = 6 ∨ k = 9) && decide (ty ≤ 3)
    let ok := fun k ps => checkLanes s c.agent sp (atomBytes ty) .atomic (swap k) (laneAddrs s c f sp) = .ok ps
    let core := c.wg.core
    let d := some f.dst.toNat
    -- the state of an instruction whose places are ps, before its groups: the discarded lanes of wrapped mode have read 0
    let before := fun op dst (ps : List Place) => touchPlaces (match dst with
      | some d => vwrites (past op f s c) c.g c.w
          ((ps.filter (fun p => p.key.isNone)).flatMap (fun p => regWrites d p.lane (atomBytes ty / 4) 0))
      | none => past op f s c) c.agent ps
    let cas := fun i => (vread64 s c.g c.w f.c.toNat i (tn f), vread64 s c.g c.w (f.c.toNat + tn f) i (tn f))
    let groups := fun k dst data ps => groupsOf ps c.g c.w core k ty dst data
    let acq := decide (atomSem f % 2 = 1)
    let free := decide (atomSem f ≤ 1) || laneRelease s c.g c.w (modBits f 8 3) c.p
    let now := fun (gs : List Atom) => sp = 2 ∨ (acq = true ∧ gs.any (fun a => onPeer a.key) = false)
    let sent := fun (t : State) (gs : List Atom) => .next (clearIssuer (lampFlush s c.agent
      ((gs.map (fun a => { a with acq := if acq then some (modBits f 8 3) else none })).foldl addAtom t)))
    let ran := fun (t : State) => .next (clearIssuer (if acq = true ∧ modBits f 8 3 ≠ 0 then acquire t core else t))
    free = true →
    (Ready .atom f s c → c.p = 0 → exec (.atom f) s = .next (clearIssuer (past .atom f s c))) ∧
    (Ready .atomCas f s c → c.p = 0 → exec (.atomCas f) s = .next (clearIssuer (past .atomCas f s c))) ∧
    (Ready .red f s c → c.p = 0 → exec (.red f) s = .next (clearIssuer (past .red f s c))) ∧
    (∀ ps, c.p ≠ 0 → ok k ps → ¬ now (groups k d (atomData f s c) ps) → Ready .atom f s c →
      exec (.atom f) s = sent (before .atom d ps) (groups k d (atomData f s c) ps)) ∧
    (∀ ps t, c.p ≠ 0 → ok k ps → now (groups k d (atomData f s c) ps) →
      runGroups (groups k d (atomData f s c) ps) (before .atom d ps) = some t → Ready .atom f s c → exec (.atom f) s = ran t) ∧
    (∀ ps, c.p ≠ 0 → ok 9 ps → ¬ now (groups 9 d cas ps) → Ready .atomCas f s c →
      exec (.atomCas f) s = sent (before .atomCas d ps) (groups 9 d cas ps)) ∧
    (∀ ps t, c.p ≠ 0 → ok 9 ps → now (groups 9 d cas ps) →
      runGroups (groups 9 d cas ps) (before .atomCas d ps) = some t → Ready .atomCas f s c → exec (.atomCas f) s = ran t) ∧
    (∀ ps, c.p ≠ 0 → ok k ps → ¬ now (groups k none (atomData f s c) ps) → Ready .red f s c →
      exec (.red f) s = sent (before .red none ps) (groups k none (atomData f s c) ps)) ∧
    (∀ ps t, c.p ≠ 0 → ok k ps → now (groups k none (atomData f s c) ps) →
      runGroups (groups k none (atomData f s c) ps) (before .red none ps) = some t → Ready .red f s c → exec (.red f) s = ran t)

/-- BAR.INIT, BAR.ARRIVE, BAR.WAIT, BAR.SYNC and BAR.QUERY (08 R227 to R229) where no condition of R229 holds and the warp has its
turn among the barrier operations of the cycle, and BARRIER_PHASE_COMPLETE, once a cycle for one barrier: an arrival of a warp puts
its bit into WARR and the phase into its LASTPH and its s-register. -/
def Obligations.BarrierResults : Prop :=
  ∀ (f : WarpWord) (s : State) (c : Ctx),
    let b := barOf c f
    let live := liveSet s c.g
    let m := if f.mod.getLsbD 0 then live else (sB c .barInit f).setWidth 16 &&& live
    let e := modBits f 4 6
    let a := f.a.toNat
    let ph := BitVec.ofNat 64 b.phase
    let put := fun op => barPlace (past op f s c) c.g c.w
    (barTurn s c.g c.w = true →
    (Ready .barInit f s c → b.warr = 0 → b.ecnt = 0 → (m ≠ 0 ∨ e ≠ 0) → exec (.barInit f) s =
      .next (clearIssuer (putBar (put .barInit) c f { b with enrol := m, eexp := e, leaving := 0, lastph := [], esat := false }))) ∧
    (Ready .barArrive f s c → mayArrive b c.w = true → releaseReady s c.g c.w 0 = true → exec (.barArrive f) s =
      .next (clearIssuer (putBar (swrite (put .barArrive) c.g c.w f.dst.toNat ph) c f
        { b with lastph := mset b.lastph c.w b.phase, warr := b.warr ||| warpBit c.w }))) ∧
    (Ready .barWait f s c → f.mod.getLsbD 0 = true → exec (.barWait f) s =
      .next (clearIssuer (waitOn (put .barWait) c.g c.w c.e (.bar a (bits (sB c .barWait f).toNat 0 20))))) ∧
    (∀ p, f.mod.getLsbD 0 = false → mget b.lastph c.w = some p → Ready .barWait f s c →
      exec (.barWait f) s = .next (clearIssuer (waitOn (put .barWait) c.g c.w c.e (.bar a p)))) ∧
    (Ready .barSync f s c → mayArrive b c.w = true → releaseReady s c.g c.w 0 = true → exec (.barSync f) s =
      .next (clearIssuer (waitOn (putBar (swrite (put .barSync) c.g c.w f.dst.toNat ph) c f
        { b with lastph := mset b.lastph c.w b.phase, warr := b.warr ||| warpBit c.w }) c.g c.w c.e (.bar a b.phase)))) ∧
    (Ready .barQuery f s c → exec (.barQuery f) s =
      .next (clearIssuer (swrite (put .barQuery) c.g c.w f.dst.toNat (BitVec.ofNat 64
        (b.phase * 2 ^ 44 + b.eexp * 2 ^ 38 + min b.ecnt 63 * 2 ^ 32 + b.warr.toNat * 2 ^ 16 + b.enrol.toNat)))))) ∧
    (∀ n x, getWg s n = some x → (getBar x a).complete = true → mget s.marks (clsDone n a) = none →
      exec (.barrierPhaseComplete n a) s = .next (takePlace
        (wakeWg (takePlace (setWg s n (setBar x a (getBar x a).finish)) (clsDone n a) 0) n) (clsBar n) 17))

/-- FENCE, BANKLOCK with the end of its span, TLWAIT and TLREAD (08 R212, R226, R232 to R234): a FENCE that releases issues
when the earlier stores and atomics of its threads are performed, one that acquires drops the core's L1 above the workgroup
scope; a BANKLOCK issues in its lane group's turn of the cycle where no open span of another warp has one of its banks, and no access
of another warp to them is pending. -/
def Obligations.SynchronisationResults : Prop :=
  ∀ (f : WarpWord) (s : State) (c : Ctx),
    let kind := modBits f 0 2
    let scope := if kind = 3 then 4 else modBits f 8 3
    let banks : BitVec 32 := (sB c .banklock f).setWidth 32
    let own := warpKey c.g c.w
    let tl := if f.mod.getLsbD 0 then c.wg.tla else c.wg.tlc
    let n := (sB c .tlwait f).toNat
    let core := c.wg.core
    (Ready .fence f s c → (kind ≠ 1 → laneRelease s c.g c.w scope c.frag = true) →
      (kind ≠ 2 → ∀ a ∈ s.atoms, a.ofLanes c.g c.w c.frag = true → a.done = true) → exec (.fence f) s =
      .next (clearIssuer (if kind ≠ 2 ∧ scope ≠ 0 then acquire (past .fence f s c) core else past .fence f s c))) ∧
    (Ready .banklock f s c → (∀ sp ∈ (getCore s core).spans, s.clock < sp.began + 256 → sp.warp ≠ own → sp.banks &&& banks = 0) →
      bankPending s core own banks = false → inOrder s (clsBank core) c.warp.lg = true → exec (.banklock f) s =
      .next (clearIssuer (modCore (takePlace (past .banklock f s c) (clsBank core) c.warp.lg) core (fun x =>
        { x with spans := x.spans.filter (fun sp => sp.warp ≠ own) ++ [⟨own, banks, modBits f 0 4, s.clock⟩] })))) ∧
    (∀ k g w, exec (.banklockSpanEnd k g w) s = .next (modCore s k (fun x =>
      { x with spans := x.spans.filter (fun sp => !(sp.warp = warpKey g w && sp.began + 256 ≤ s.clock)) }))) ∧
    (Ready .tlwait f s c → n = 0 → exec (.tlwait f) s =
      .next (clearIssuer (past .tlwait f s c))) ∧
    (Ready .tlwait f s c → n ≠ 0 → n ≤ tl.issued → exec (.tlwait f) s =
      .next (clearIssuer (waitOn (past .tlwait f s c) c.g c.w c.e (.timeline (f.mod.getLsbD 0) n)))) ∧
    (Ready .tlread f s c → exec (.tlread f) s =
      .next (clearIssuer (swrite (past .tlread f s c) c.g c.w f.dst.toNat (BitVec.ofNat 64 (if f.mod.getLsbD 1 then tl.issued else tl.done)))))

/-- LIC.ACQ, LIC.REL, LIC.QUERY, TW.SIG and TW.WAIT (11 R273, R274, R280, R281): the holder's LIC.ACQ pins the licence, .try answers
whether it is held, TW.SIG adds to a twin flag of the pair once the warp's results for exchange registers are written, TW.WAIT goes
on once the flag has reached its target modulo 2^32. That a holder's LIC.ACQ pins, and that a request is raised once, is the model's
reading (log 18). -/
def Obligations.LicenceResults : Prop :=
  ∀ (f : WarpWord) (s : State) (c : Ctx),
    let p := pairOf c.wg.core
    let held := holdsLic s c.g
    let u := fun op => past op f s c
    let flag := mgetD (getPair s p).flags f.a.toNat 0
    (Ready .licAcq f s c → f.mod.getLsbD 0 = false → held = true → exec (.licAcq f) s =
      .next (clearIssuer (pinLic (u .licAcq) p))) ∧
    (Ready .licAcq f s c → f.mod.getLsbD 0 = true → exec (.licAcq f) s =
      .next (clearIssuer (swrite (if held then pinLic (u .licAcq) p else u .licAcq) c.g c.w f.dst.toNat (if held then 1 else 0)))) ∧
    (Ready .licRel f s c → inOrder s (clsLic p) (if held then 0 else if hasReq s c.g then 1 else 2 ^ 60) = true → exec (.licRel f) s =
      .next (clearIssuer (releaseLic (u .licRel) c.g))) ∧
    (Ready .licQuery f s c → modBits f 0 2 = 0 → exec (.licQuery f) s =
      .next (clearIssuer (swrite (u .licQuery) c.g c.w f.dst.toNat (BitVec.ofNat 64 (licWord s c.g c.wg.core))))) ∧
    (Ready .licQuery f s c → modBits f 0 2 = 1 → exec (.licQuery f) s =
      .next (clearIssuer (swrite (u .licQuery) c.g c.w f.dst.toNat (BitVec.ofNat 64 (tileWord s c.g c.wg.core (modBits f 2 2)))))) ∧
    (Ready .licQuery f s c → modBits f 0 2 = 2 → exec (.licQuery f) s =
      .next (clearIssuer (swrite (modWg (u .licQuery) c.g (fun x => { x with xconf := false })) c.g c.w f.dst.toNat
        (if c.wg.xconf then 1 else 0)))) ∧
    (Ready .licQuery f s c → modBits f 0 2 = 3 → exec (.licQuery f) s =
      .next (clearIssuer (swrite (modWg (u .licQuery) c.g (fun x => { x with anvFault := none })) c.g c.w f.dst.toNat (summaryWord c.wg.anvFault)))) ∧
    (Ready .twSig f s c → c.wg.pairPlaced = true → releaseReady s c.g c.w 1 = true → exchanging s c.g c.w = false → exec (.twSig f) s =
      .next (clearIssuer (modPair (u .twSig) p (fun q =>
        { q with flags := mput q.flags f.a.toNat (flag + (sB c .twSig f).setWidth 32) 0 })))) ∧
    (Ready .twWait f s c → c.wg.pairPlaced = true → (flag - (sB c .twWait f).setWidth 32).toNat < 2 ^ 31 → exec (.twWait f) s =
      .next (clearIssuer (acquire (u .twWait) c.wg.core)))

/-- The licence's events (11 R270): a transfer to a workgroup ends 940 cycles after it began, and one that is to release it by then
frees it once its accepted ANV.MMA commands have completed; a held, unpinned licence with a request pending and no step for 256 cycles
is freed; an urgent request takes it at a step boundary, and a holder with work left or a pin raises its own again, urgent where its
long-word thread is stopping with work left, and with its release. What comes later in the order of one cycle has not come before
(R270). The form of an event is the model's choice (log 3), and that a release is carried on its reading (log 54). -/
def Obligations.LicenceEvents : Prop :=
  ∀ (s : State) (pair : Nat),
    let q := getPair s pair
    (∀ g side pinned began, q.lic = .transfer g side pinned began → g ≠ 0 → began + 940 ≤ s.clock → inOrder s (clsLic pair) 0 = true →
      exec (.licenceTransferDone pair) s = .next (
        let t := modPair s pair (fun q => { q with lic := .held g side pinned, idleFrom := s.clock })
        if q.releasing = true ∧ mmaPending s g = false then freeLic t pair side else t)) ∧
    (∀ g side pinned began, q.lic = .transfer g side pinned began → s.clock < began + 940 →
      exec (.licenceTransferDone pair) s = .next s) ∧
    (∀ g side, q.lic = .held g side false → mmaPending s g = false → q.reqs ≠ [] → q.idleFrom + 256 ≤ s.clock → inOrder s (clsLic pair) 0 = true →
      exec (.licenceIdleFree pair) s = .next (freeLic s pair side)) ∧
    (∀ g side pinned r, q.lic = .held g side pinned →
      leastBy (licRank s) lexLt (q.reqs.filter (fun r => r.urgent && r.g ≠ g)) = some r →
      (∀ a ∈ s.anvs, a.g = g → a.flight = []) →
      exec (.licenceUrgentHandover pair) s = .next (
        let t := handOver s pair side r
        let u := if mmaPending t g ∨ pinned = true then
          raiseReq t g pinned (threadMma t g && (getWg t g).any Wg.stopped) (threadMma t g) else t
        if q.releasing = true then modPair u pair (fun q => { q with
          reqs := q.reqs.map (fun r => if r.g = g then { r with rel := true } else r) }) else u))

/-- COPY.T, COPY.L, COPY.G and COPY.FILL (08 R214, 10 R238, R239, R244): a command whose operands are legal and aligned and for
which the queue has room is accepted in its lane group's turn of the cycle, with the operands' values, the core's clock, the
receivers of a multicast (log 52) and the next number of tlc; with no
participating lane there is none. COPY.STAT reads (10 R250), and .clr empties the summary. A clear cancels no delivery (log
32, the model's reading). -/
def Obligations.CopyResults : Prop :=
  ∀ (f : WarpWord) (s : State) (c : Ctx),
    let core := c.wg.core
    let sb := fun i => c.warp.sreg (f.b.toNat + i)
    let req := fun k (blk : Bool) => (⟨k, c.warp.sreg f.dst.toNat, sA c f, sb 0, if blk then sb 1 else 0, if blk then sb 2 else 0,
      modBits f 2 2, modBits f 0 2, extBits f 32 32⟩ : CopyReq)
    let turn := inOrder s (clsCopy core) c.warp.lg = true
    let cmd := fun k blk shared id => (let q := req k blk
      ({ id := id, core := core, g := c.g, w := c.w, lanes := leaderOf c.p, kind := k, dst := q.dst, a := q.a, b0 := q.b0, b1 := q.b1, b2 := q.b2
         src := q.src, buf := q.buf, ctl := BitVec.ofNat 32 q.ctl, num := c.wg.tlc.issued + 1, token := none
         shared := shared, pc := c.pc, accepted := s.clock
         obBits := if q.buf = 3 then ((ownRec s c.g core (obNum q.dst)).map (·.bits)).getD 0 else 0
         recv := mcReceivers s core c.wg q, absent := mcAbsent s q (mcReceivers s core c.wg q), layout := none, moved := 0
         ahead := [], rows := [], late := [] } : Copy))
    let accepted := fun (t : State) (d : Copy) => takePlace (modWg { t with copies := t.copies ++ [d], nextId := t.nextId + 1 } c.g
      (fun x => { x with tlc := x.tlc.accept })) (clsCopy core) c.warp.lg
    let word := summaryWord c.wg.copyFault
    (c.p = 0 → Ready .copyT f s c → exec (.copyT f) s = .next (clearIssuer (past .copyT f s c))) ∧
    (∀ shared, c.p ≠ 0 → copyOperand s c.g core (req .tensor true) = false → copyMisalign (req .tensor true) = none →
      copyRoom s core c.g = some shared → turn → Ready .copyT f s c →
      exec (.copyT f) s = .next (clearIssuer (accepted (past .copyT f s c) (cmd .tensor true shared (past .copyT f s c).nextId)))) ∧
    (c.p = 0 → Ready .copyL f s c → exec (.copyL f) s = .next (clearIssuer (past .copyL f s c))) ∧
    (∀ shared, c.p ≠ 0 → copyOperand s c.g core (req .linear false) = false → copyMisalign (req .linear false) = none →
      copyRoom s core c.g = some shared → turn → Ready .copyL f s c →
      exec (.copyL f) s = .next (clearIssuer (accepted (past .copyL f s c) (cmd .linear false shared (past .copyL f s c).nextId)))) ∧
    (c.p = 0 → Ready .copyG f s c → exec (.copyG f) s = .next (clearIssuer (past .copyG f s c))) ∧
    (∀ shared, c.p ≠ 0 → copyOperand s c.g core (req .gather true) = false → copyMisalign (req .gather true) = none →
      copyRoom s core c.g = some shared → turn → Ready .copyG f s c →
      exec (.copyG f) s = .next (clearIssuer (accepted (past .copyG f s c) (cmd .gather true shared (past .copyG f s c).nextId)))) ∧
    (c.p = 0 → Ready .copyFill f s c → exec (.copyFill f) s = .next (clearIssuer (past .copyFill f s c))) ∧
    (∀ shared, c.p ≠ 0 → copyOperand s c.g core (req .fill false) = false → copyMisalign (req .fill false) = none →
      copyRoom s core c.g = some shared → turn → Ready .copyFill f s c →
      exec (.copyFill f) s = .next (clearIssuer (accepted (past .copyFill f s c) (cmd .fill false shared (past .copyFill f s c).nextId)))) ∧
    (Ready .copyStat f s c → modBits f 0 2 = 0 → exec (.copyStat f) s =
      .next (clearIssuer (swrite (past .copyStat f s c) c.g c.w f.dst.toNat (BitVec.ofNat 64
        (((copiesOf s core).filter (fun x => x.g = c.g)).length + sharedFree s core * 2 ^ 8))))) ∧
    (Ready .copyStat f s c → modBits f 0 2 = 1 → exec (.copyStat f) s =
      .next (clearIssuer (swrite (past .copyStat f s c) c.g c.w f.dst.toNat word))) ∧
    (Ready .copyStat f s c → modBits f 0 2 = 2 → exec (.copyStat f) s =
      .next (clearIssuer (swrite (modWg (past .copyStat f s c) c.g (fun x => { x with copyFault := none })) c.g c.w f.dst.toNat word)))

/-- COPY_COMPLETE and COPY_FAULT (10 R247, R248): a command whose units are all performed completes with its tlc step, its
arrivals and its token; one that has met a fault records DONE, number, cause and the valid bit in the workgroup's summary, or in the
fault store where that holds an older one, and completes as well; each byte of the next 4,096 that it would write is the one before
or the one written. The form of an event is the model's choice (log 3); what a faulted unit leaves is free (log 4). -/
def Obligations.CopyEvents : Prop :=
  ∀ (s : State) (id : Nat) (c : Copy) (x : Wg), s.copies.find? (fun c => c.id = id) = some c → getWg s c.g = some x →
    (∀ t n, copyRun s c x = .finished t n → exec (.copyComplete id) s = .next (finishCopy t c)) ∧
    (∀ t n cs sp ad rest, copyRun s c x = .faulted t n cs sp ad rest → exec (.copyFault id) s = .next (finishCopy
      (recordSummary (scatter t c.core (tailCells t (copySelf c x) (copyTargets s c x) rest 4096)) c.g c.w false
        { word := BitVec.ofNat 64 (doneOf c n % 2 ^ 24 * 2 ^ 40 + c.num % 2 ^ 32 * 2 ^ 8 + cs % 16 * 2 ^ 4 + 1)
          num := c.num, faddr := ad, space := sp, pc := c.pc, delivered := false
          bars := if c.bar then ((arrivalPhase (getBar x c.barNum)).map (fun p => (c.barNum, p))).toList else []
          warp := c.w, token := c.token }) c))

/-- OB.RES, OB.FREE, ANV.ZERO, ANV.DRAIN, ANV.LOADZ and GANG.SET (11 R256, R257, R262, R263, R265 to R267) whose conditions hold:
the command enters the queue in its lane group's turn with the operands' values, OB.RES fills its record, ANV.ZERO and ANV.LOADZ
take their tile, and GANG.SET sets the gang. -/
def Obligations.AnvilResults : Prop :=
  ∀ (f : WarpWord) (s : State) (c : Ctx),
    let core := c.wg.core
    let u := fun op => past op f s c
    let q := c.ask
    let layout : BitVec 128 := BitVec.ofNat 128 ((sA c f).toNat + bits (sB c .obRes f).toNat 0 32 * 2 ^ 64 + 2 ^ 96)
    let m : BitVec 16 := (sB c .gangSet f).setWidth 16
    let zw : Word64 := BitVec.ofNat 64 (modBits f 0 3)
    let lw : Word64 := BitVec.ofNat 64 (extBits f 32 17)
    let dw : Word64 := BitVec.ofNat 64 (extBits f 32 25)
    let open' := anvHeld s q = false
    let mine := ((ownRec s c.g core (extBits f 32 5)).map (·.bits)).getD 0
    (Ready .obRes f s c → obBad layout = false → (∀ p ∈ (getCore s core).obs, p.1 = extBits f 32 5 → p.2.owner = c.g) →
      (∀ p ∈ obRanges s core, p.1 ≠ c.g → obMeet layout p.2 = false) → open' → exec (.obRes f) s =
      .next (clearIssuer (modCore (acceptAnv (u .obRes) { q.anv (u .obRes) .res (BitVec.ofNat 64 (extBits f 32 5)) with recA := layout, recB := mine }) core
        (fun k => { k with obs := mset k.obs (extBits f 32 5) ⟨(u .obRes).nextId, layout, c.g⟩ })))) ∧
    (∀ r, ownRec s c.g core (modBits f 0 5) = some r → open' → Ready .obFree f s c →
      exec (.obFree f) s = .next (clearIssuer (acceptAnv (u .obFree)
        { q.anv (u .obFree) .free (BitVec.ofNat 64 (modBits f 0 5)) with num := r.id }))) ∧
    (Ready .anvZero f s c → foreignTile s c.g core (bits zw.toNat 0 2) = false → open' → exec (.anvZero f) s =
      .next (clearIssuer (takeTile (acceptAnv (u .anvZero)
        { q.anv (u .anvZero) .zero zw with i96 := decide (bits zw.toNat 2 1 = 1) }) c.g core (bits zw.toNat 0 2)
        (decide (bits zw.toNat 2 1 = 1))))) ∧
    (∀ t, anvDrainIssue s (u .anvDrain) q (sA c f) (sB c .anvDrain f) (sC c f) dw = .done t → Ready .anvDrain f s c →
      exec (.anvDrain f) s = .next (clearIssuer t) ∧ ∃ z a, ownTile s c.g core (bits dw.toNat 0 2) = some z ∧ open' ∧
      t = acceptAnv (u .anvDrain) a ∧ a.kind = .drain ∧ a.word = dw ∧ a.a = sA c f ∧ a.b = sB c .anvDrain f ∧ a.c = sC c f ∧
      a.i96 = z.i96 ∧ a.g = c.g ∧ a.core = core) ∧
    (∀ t, anvLoadzIssue s (u .anvLoadz) q (sA c f) (sB c .anvLoadz f) lw = .done t → Ready .anvLoadz f s c →
      exec (.anvLoadz f) s = .next (clearIssuer t) ∧ ∃ a, open' ∧
      t = takeTile (acceptAnv (u .anvLoadz) a) c.g core (bits lw.toNat 0 2) (decide (bits lw.toNat 2 1 = 1)) ∧ a.kind = .loadz ∧
      a.word = lw ∧ a.a = sA c f ∧ a.b = sB c .anvLoadz f ∧ a.g = c.g ∧ a.core = core) ∧
    (Ready .gangSet f s c → 1 ≤ (warpsOf m).length → (warpsOf m).length ≤ 6 → m &&& ~~~liveSet s c.g = 0 → c.wg.latch = none → exec (.gangSet f) s =
      .next (clearIssuer (modWg (u .gangSet) c.g (fun x => { x with gang := m }))))

/-- ANV.MMA of a gang of one warp that holds the licence (11 R259, R261, R263): with the queue not full the command that the
MMA word names is accepted, the latch is empty, and the warp goes on. -/
def Obligations.GangIssueResult : Prop :=
  ∀ (f : WarpWord) (s : State) (c : Ctx),
    ∀ a, c.wg.gang = warpBit c.w → c.w < 16 → c.wg.latch = none → holdsLic s c.g = true → anvHeld s (gangAsk s c) = false →
    mmaCommand s (gangAsk s c) f.ext (sA c f) (sB c .anvMma f) = some a → Ready .anvMma f s c →
    ∃ u, exec (.anvMma f) s = .next (clearIssuer (countSpan (advance u c f) c .anvMma f)) ∧
      getWg u c.g = some { c.wg with tla := c.wg.tla.accept, latch := none } ∧
      u.anvs = s.anvs ++ [{ a with num := c.wg.tla.issued + 1 }] ∧ u.warps = s.warps ∧ sameMemory s u

/-- The anvil's events (11 R256, R257, R259, R263 to R268): a range is zeroed once the commands before it are done; a record is
freed once nothing names it; a step that is ready reads its operands as it starts, and the oldest step commits to the whole tile,
and counts in its lane group's duty (16 R373); ANV.ZERO clears its tile in its turn; a drain, a load and a faulted command end. The
form of an event is the model's choice (log 3), and what OB.RES and OB.FREE wait for its reading (log 30). -/
def Obligations.AnvilEvents : Prop :=
  ∀ (s : State) (id : Nat) (a : Anv), s.anvs.find? (fun b => b.id = id) = some a →
    let z := bits a.word.toNat 0 2
    (a.kind = .res → (∀ b ∈ s.anvs, b.id < id → b.core = a.core → anvNames a.g a.word.toNat true b = false) →
      (∀ c ∈ s.copies, c.id < id → copyNames s a.g a.core a.word.toNat c = false) → zeroPending s a.g a.word.toNat id = false →
      findAnv s id .res = some a →
      exec (.obResZeroDone id) s = .next (finishAnv (zeroRange s (obKey a.core (256 * obBase a.recA)) (256 * obUnits a.recA)) a)) ∧
    (findAnv s id .free = some a → (∀ b ∈ s.anvs, b.core = a.core → anvNames a.g a.word.toNat false b = false) →
      (∀ c ∈ s.copies, copyNames s a.g a.core a.word.toNat c = false) → zeroPending s a.g a.word.toNat id = false →
      exec (.obFreeRelease id) s = .next (finishAnv (match ownRec s a.g a.core a.word.toNat with
        | some r => if r.id = a.num then modCore s a.core (fun c => { c with obs := mdel c.obs a.word.toNat }) else s
        | none => s) a)) ∧
    (findAnv s id .mma = some a → stepReady s a = true → stepPoison s a = none →
      exec (.anvStepStart id) s = .next (modLg (modAnv s id (fun a => { a with flight := a.flight ++ [takeSnap s a] })) a.core a.lg
        (fun l => { l with stepped := (s.clock :: l.stepped).take 4 }))) ∧
    (∀ sn rest, findAnv s id .mma = some a → a.flight = sn :: rest →
      (∀ b ∈ s.anvs, b.core = a.core → b.kind = .mma → b.id < id → b.flight = []) → inOrder s (clsLic (pairOf a.core)) 0 = true →
      let a' := { a with committed := a.committed + 1, flight := rest }
      let t := modPair (modTile (modAnv s id (fun _ => a')) a.core z (stepTile a sn)) (pairOf a.core) (fun p => { p with idleFrom := s.clock })
      exec (.anvStepCommit id) s = .next (if a'.committed = mmaSteps a.word then finishAnv t a' else t)) ∧
    (findAnv s id .zero = some a → tileTurn s a = true →
      exec (.anvZeroComplete id) s = .next (finishAnv (modTile s a.core z (fun t => { t with elems := [], status := 0, poisoned := [] })) a)) ∧
    (∀ x t u n, findAnv s id .drain = some a → getWg s a.g = some x → mget (getCore s a.core).tiles z = some t →
      drainRun s a x t = .finished u n → exec (.anvDrainComplete id) s = .next (finishAnv (drainTile u a t n) a)) ∧
    (∀ x rs, findAnv s id .loadz = some a → getWg s a.g = some x → loadRun s a x = (rs, none) →
      exec (.anvLoadzComplete id) s = .next (finishAnv (modTile (rowsSeen s a x rs.length) a.core z (putRows a rs a.fresh)) a)) ∧
    (∀ sp off, a.kind = .mma → stepPoison s a = some (sp, off) → stepReady s a = true → a.flight = [] →
      exec (.anvFault id) s = .next (faultAnv s a a.committed 4 sp (BitVec.ofNat 64 off)))

/-- REC.ALLOC, REC.COMMIT, REC.ABORT and REC.INFO (13 R309 to R312): an allocation answers the address of the first record, 1 where
there is no room, 2 where the depth would pass the node's limit, 3 with eight reservations held, 0 with no participating lane; .w
waits in its order, and an allocation has its turn among those of a cycle (13 R306); a commit and an abort end the reservation that
they name. SEQ's first value and the headers' writes are the model's (logs 22 and 28). -/
def Obligations.RecordResults : Prop :=
  ∀ (f : WarpWord) (s : State) (c : Ctx),
    let u := fun op => past op f s c
    let n := if immBit f then imm32 f else (sB c .recAlloc f).toNat
    let ret := fun (t : State) (v : Nat) => clearIssuer (swrite t c.g c.w f.dst.toNat (BitVec.ofNat 64 v))
    let i := (sB c .recInfo f).toNat
    let took := fun (t : State) => takePlace t clsAlloc (allocPlace c)
    let own := warpKey c.g c.w
    let pages := fun r => resvMiss s own c.wg r = []
    (c.p = 0 → Ready .recAlloc f s c → exec (.recAlloc f) s = .next (ret (u .recAlloc) 0)) ∧
    (∀ N d, c.p ≠ 0 → allocNode c f = some N → getNode s c.wg.rnum N = some d → 1 ≤ n → n ≤ 256 →
      Ready .recAlloc f s c →
      let room := allocate (u .recAlloc) c.g c.wg.rnum N n (f.mod.getLsbD 1) d.waiters.isEmpty
      (nd d.bits 368 6 < c.wg.depth + 1 → exec (.recAlloc f) s = .next (ret (u .recAlloc) 2)) ∧
      (c.wg.depth + 1 ≤ nd d.bits 368 6 → 8 ≤ c.wg.resv.length → exec (.recAlloc f) s = .next (ret (u .recAlloc) 3)) ∧
      (c.wg.depth + 1 ≤ nd d.bits 368 6 → c.wg.resv.length < 8 → inOrder s clsAlloc (allocPlace c) = true →
        (∀ t a, room = some (t, a) → exec (.recAlloc f) s = .next (ret (took t) a)) ∧
        (room = none → f.mod.getLsbD 0 = false → exec (.recAlloc f) s = .next (ret (took (u .recAlloc)) 1)) ∧
        (room = none → f.mod.getLsbD 0 = true → exec (.recAlloc f) s = .next (clearIssuer (modNode
          (blockFrag (took (countSpan { s with nextId := s.nextId + 1 } c .recAlloc f)) c.g c.w c.e
            (.alloc s.nextId N n (f.mod.getLsbD 1) f.dst.toNat)) c.wg.rnum N
          (fun d => { d with waiters := d.waiters ++ [.frag (warpKey c.g c.w) s.nextId] })))))) ∧
    (Ready .recCommit f s c → c.p = 0 → exec (.recCommit f) s =
      .next (clearIssuer (u .recCommit))) ∧
    (∀ r, c.p ≠ 0 → resvAt c.wg (sA c f).toNat = some r → extBits f 32 9 ≤ r.n →
      laneRelease s c.g c.w (commitScope s c.wg r (f.mod.getLsbD 11) (modBits f 8 3)) (leaderOf c.p) = true → pages r →
      Ready .recCommit f s c →
      exec (.recCommit f) s = .next (clearIssuer (commitResv (pieceDone (u .recCommit) own) c.g c.wg r (extBits f 32 9)))) ∧
    (Ready .recAbort f s c → c.p = 0 → exec (.recAbort f) s =
      .next (clearIssuer (u .recAbort))) ∧
    (∀ r, c.p ≠ 0 → resvAt c.wg (sA c f).toNat = some r → pages r → Ready .recAbort f s c →
      exec (.recAbort f) s = .next (clearIssuer (dropResv (abortRecs (pieceDone (u .recAbort) own) c.wg.asid c.wg.rnum r.node r.addr r.n) c.g r.addr))) ∧
    (modBits f 0 2 = 0 → Ready .recInfo f s c → exec (.recInfo f) s = .next (ret (u .recInfo) (c.wg.batch.getD i 0))) ∧
    (∀ d, modBits f 0 2 = 1 → getNode s c.wg.rnum i = some d → Ready .recInfo f s c →
      exec (.recInfo f) s = .next (ret (u .recInfo) (queueInfo d c.wg))) ∧
    (∀ r, modBits f 0 2 = 2 → mget s.regions c.wg.rnum = some r → Ready .recInfo f s c →
      exec (.recInfo f) s = .next (ret (u .recInfo) (((spilled r).map (·.2)).foldl (· + ·) 0 + rcb r.bits 192 32 * 2 ^ 32)))

/-- SPAWN, REG.GIVE and REG.CLAIM (13 R313, R315), with PENDING_SPAWN_START and LIMEWASH_GRANULE_CLEAR (04 R90, 13 R314): a child
takes the lowest free WARPID and starts where it fits, else waits in the store of 16; granules given go to the lane group's pool,
the claim of a fragment takes its turn, and a lane group's granules clear one in a cycle. The lane group is a free choice (log 13),
and claims are served in order (log 27, the model's reading). -/
def Obligations.SpawnAndPoolResults : Prop :=
  ∀ (f : WarpWord) (s : State) (c : Ctx),
    let u := fun op => past op f s c
    let ret := fun (t : State) (v : Nat) => clearIssuer (swrite t c.g c.w f.dst.toNat (BitVec.ofNat 64 v))
    let core := c.wg.core
    let tgt := c.pc + disp f 0
    let g := (sB c .regClaim f).toNat
    let pool := mgetD c.wg.pools c.warp.lg 0
    let child := fun w => (⟨c.g, w, tgt, extBits f 32 8, extBits f 40 5, spawnVals s c f⟩ : Pending)
    let n := (sB c .regGive f).toNat
    let left := c.warp.alloc - 8 * n
    let busy := s.loads.any (fun l => l.g = c.g && l.w = c.w && l.vecs.any (fun v => left ≤ v.1 && v.1 < 240)) ||
      s.atoms.any (fun o => o.g = c.g && o.w = c.w && !o.done && o.dst.any (fun d => left ≤ d + 1 && d < 240))
    (c.p = 0 → Ready .spawn f s c → exec (.spawn f) s = .next (ret (u .spawn) 0)) ∧
    (c.p ≠ 0 → tgt.toNat % 8 = 0 → (∀ w, w < 16 → (takenIds s c.g).contains w = true) → Ready .spawn f s c →
      exec (.spawn f) s = .next (ret (u .spawn) 4)) ∧
    (∀ w, c.p ≠ 0 → tgt.toNat % 8 = 0 → w < 16 → (takenIds s c.g).contains w = false →
      (∀ v, v < w → (takenIds s c.g).contains v = true) → laneRelease s c.g c.w 0 (leaderOf c.p) = true → Ready .spawn f s c →
      (∀ t, startChild (u .spawn) core (child w) = some t → exec (.spawn f) s = .next (ret t (1 + w * 2 ^ 8))) ∧
      (startChild (u .spawn) core (child w) = none → (getCore s core).spawns.length < 16 → exec (.spawn f) s = .next
        (ret (modCore (u .spawn) core (fun k => { k with spawns := k.spawns ++ [child w] })) (2 + w * 2 ^ 8))) ∧
      (startChild (u .spawn) core (child w) = none → 16 ≤ (getCore s core).spawns.length →
        exec (.spawn f) s = .next (ret (u .spawn) 3))) ∧
    (1 ≤ n → 8 * n + 8 ≤ c.warp.alloc → busy = false → Ready .regGive f s c →
      exec (.regGive f) s = .next (clearIssuer (wakeWg (modWg (modLg (modWarp (u .regGive) c.g c.w (fun x =>
        { x with alloc := left, vregs := x.vregs.filter (fun p => p.1 < 32 * left), poisoned := x.poisoned.filter (· < 32 * left) }))
        core c.warp.lg (fun l => { l with wash := l.wash.filter (fun h => !(h.1 = warpKey c.g c.w && left / 8 ≤ h.2)) }))
        c.g (fun x => { x with pools := mput x.pools c.warp.lg (mgetD x.pools c.warp.lg 0 + n) 0 })) c.g))) ∧
    (f.mod.getLsbD 0 = true → g ≠ 0 → c.warp.alloc + 8 * g ≤ 240 → pool < g → Ready .regClaim f s c →
      exec (.regClaim f) s = .next (ret (u .regClaim) 0)) ∧
    (f.mod.getLsbD 0 = true → g ≠ 0 → c.warp.alloc + 8 * g ≤ 240 → g ≤ pool → Ready .regClaim f s c →
      exec (.regClaim f) s = .next (ret (takeGranules (u .regClaim) c.g c.w g) 1)) ∧
    (f.mod.getLsbD 0 = false → g ≠ 0 → c.warp.alloc + 8 * g ≤ 240 → Ready .regClaim f s c → exec (.regClaim f) s = .next
      (clearIssuer (waitOn { u .regClaim with nextId := s.nextId + 1 } c.g c.w c.e (.claim s.nextId g)))) ∧
    (∀ k p t, (getCore s k).spawns.find? (fun p => !(fittingLgs s k p.ag).isEmpty && ((getWg s p.g).map Wg.isResident).getD false) = some p →
      startChild s k p = some t →
      exec (.pendingSpawnStart k) s = .next (modCore t k (fun q => { q with spawns := q.spawns.erase p }))) ∧
    (∀ k lg h rest, (getLg s k lg).wash = h :: rest → mget s.marks (clsWash k lg) = none → ∃ t, exec (.limewashGranuleClear k lg) s = .next t ∧ (getLg t k lg).wash = rest ∧
      (rest.any (fun q => q.1 = h.1) = true → t.warps = s.warps) ∧
      (∀ x, rest.any (fun q => q.1 = h.1) = false → mget s.warps h.1 = some x → x.washing = true →
        mget t.warps h.1 = some { x with washing := false, vregs := x.vals, vals := [] }))

/-- NTF.POST and NTF.WAIT (13 R316 to R318): where the region's NTFMASK allows it, the post adds to a notify register or sets it
once the earlier stores and atomics of its thread are performed, and the wait waits with its target. -/
def Obligations.NotifyResults : Prop :=
  ∀ (f : WarpWord) (s : State) (c : Ctx),
    let j := f.a.toNat
    (ntfMaskOf s c.wg.rnum).testBit j = true →
    (Ready .ntfPost f s c → laneRelease s c.g c.w 3 (leaderOf c.frag) = true → exec (.ntfPost f) s =
      .next (clearIssuer (postNotify (past .ntfPost f s c) j (sB c .ntfPost f) (decide (modBits f 0 1 = 1))))) ∧
    (Ready .ntfWait f s c → exec (.ntfWait f) s =
      .next (clearIssuer (waitOn (past .ntfWait f s c) c.g c.w c.e (.notify j (sB c .ntfWait f) f.dst.toNat (decide (modBits f 1 1 = 1))))))
/-- TRAP, BRK, TRAP.RET and VARY (14 R333 to R335, 16 R375): TRAP with a lane in P, or unguarded, and BRK take their traps; a TRAP
with P empty goes on; TRAP.RET at trap level 1, with no access of the warp in flight and no poison in the words that it reads,
restores from the frame or ends the workgroup under .kill, once links, lamp units and exchange registers let it, and at trap level 0
is ILLEGAL; VARY goes to the address that its table holds for PLEVEL. What TRAP.RET waits for and what a kill records are the
model's readings (logs 20 and 21). -/
def Obligations.TrapInstructions : Prop :=
  ∀ (f : WarpWord) (s : State) (c : Ctx),
    let fr := frameAddr s c.wg c.w
    let core := c.wg.core
    let nb := nodeBits s c.wg
    let o := (sA c f).toNat % 2 ^ 32
    let at' := o + 8 * ((getLg s core c.warp.lg).plevel % 4)
    let lane := (lowest c.frag).getD 0
    (Ready .trap f s c → (f.guard = 0 ∨ c.p ≠ 0) →
      let t : Trap := { cause := 9, sub := imm16 f, aux := imm16 f }
      let a := siteOf s c (encodeWord .trap f) (some .trap) f true
      exec (.trap f) s = takeTrap s t a ∧
        ∀ x p0 p u key, TrapReady s t a x p0 p u key → ∃ v, exec (.trap f) s = .next v ∧ TrapEntered s t a x p0 p v) ∧
    (Ready .trap f s c → f.guard ≠ 0 → c.p = 0 → exec (.trap f) s =
      .next (clearIssuer (past .trap f s c))) ∧
    (Ready .brk f s c →
      let t : Trap := { cause := 8, sub := 2, aux := imm16 f }
      let a := siteOf s c (encodeWord .brk f) (some .brk) f true
      exec (.brk f) s = takeTrap s t a ∧
        ∀ x p0 p u key, TrapReady s t a x p0 p u key → ∃ v, exec (.brk f) s = .next v ∧ TrapEntered s t a x p0 p v) ∧
    (Ready .trapRet f s c → c.warp.bank = none → exec (.trapRet f) s = takeTrap s (trapOperand) (siteOf s c (encodeWord .trapRet f) (some .trapRet) f true)) ∧
    (∀ ps, c.warp.bank.isSome = true → returning s c.g c.w = false →
      let commit : Lanes := (sB c .trapRet f).setWidth 32
      let mode := modBits f 0 2
      let width := modBits f 2 2
      checkLanes s c.agent 0 4 .read false (retWords fr (retReads mode width (commit &&& trappedMask c.warp))) = .ok ps →
      (∀ q ∈ ps, ∀ k, q.key = some k → warpAtomMeets s c.g c.w k 4 = false) → nowGone s c 0 ps = true → wordsBad s ps = false →
      Ready .trapRet f s c →
      let u := readNow (past .trapRet f s c) c 0 ps
      let key := frameKey fr ps
      (mode ≠ 2 → (width ≠ 0 → xWaits s c (retVecs u c key width) = false) →
        exec (.trapRet f) s = .next (clearIssuer (returnTrap u c key mode width commit))) ∧
      (mode = 2 → exec (.trapRet f) s = .next (clearIssuer (killWg u c.g c.w 2 0 (frameNat u core c.g c.w key 0 8)
        (BitVec.ofNat 64 (frameNat u core c.g c.w key 8 8)) (BitVec.ofNat 64 (frameNat u core c.g c.w key 0x38 8)))))) ∧
    (∀ p k, at' + 8 ≤ nd nb 288 17 → o % 8 = 0 → p.key = some k → poisonedAt s k 8 = false →
      checkLanes s c.agent 3 8 .read false [(lane, BitVec.ofNat 64 at')] = .ok [p] → nowGone s c 3 [p] = true → Ready .vary f s c →
      let t := past .vary f s c
      let u := readNow t c 3 [p]
      let tgt : Word64 := BitVec.ofNat 64 (nd nb 64 64 + at' + loadNat t u core c.g c.w 3 p)
      tgt.toNat % 8 = 0 → exec (.vary f) s = .next (clearIssuer (setPc u c.g c.w c.e tgt)))

/-- Taking a trap (14 R322, R327, R328): a warp at trap level 0 of a context with a handler, whose frame's page translates and is
clean, wakes no pseudo-channel and waits for no link, and whose accesses in flight may be performed, has them performed, its frame
written, and the state of trap level 1: the handler's address, WMASK all ones, v232 to v239 and s56 to s63 banked with FRAME, CAUSE,
PC and the stack end in s56, s57, s58 and s63, TCOUNT one more and the late faults that the trap takes gone. That the accesses are
performed within the entry is the model's reading (log 10). -/
def Obligations.TrapEntryState : Prop :=
  ∀ (s u : State) (t : Trap) (a : Site) (x : Wg) (p0 p : Warp) (key : Nat), TrapReady s t a x p0 p u key →
    ∃ v, takeTrap s t a = .next v ∧ TrapEntered s t a x p0 p v

/-- The frame (14 R329): the 4,096 bytes of the page at the frame's key, with lines of host memory only that bus addresses of 64 bits
name, hold, as the point of coherence has them, the cause word, PC, NPC, WORD,
EXTW, the lane masks, FADDR, INFO, AUX and TCOUNT at their offsets, each little-endian. WORD of a boundary trap is the model's
reading (log 17). -/
def Obligations.TrapFrameHolds : Prop :=
  ∀ (s : State) (core key : Nat) (x : Warp) (t : Trap) (a : Site), key % 4096 = 0 →
    busKey key → (∀ p ∈ s.hostLines, p.1 < 2 ^ 57) →
    let m := writeFrame s core key (frameFields x t a)
    let fl := t.flanes.getD a.planes
    pocNat m key 8 = t.word % 2 ^ 64 ∧ pocNat m (key + 0x08) 8 = a.pc.toNat ∧ pocNat m (key + 0x10) 8 = a.npc.toNat ∧
      pocNat m (key + 0x18) 8 = a.word.toNat ∧ pocNat m (key + 0x20) 8 = a.extw.toNat ∧
      pocNat m (key + 0x28) 8 = a.exec.toNat + a.wmask.toNat * 2 ^ 32 ∧
      pocNat m (key + 0x30) 8 = a.planes.toNat + fl.toNat * 2 ^ 32 ∧ pocNat m (key + 0x38) 8 = t.faddr.toNat ∧
      pocNat m (key + 0x40) 8 = infoWord x a.w a % 2 ^ 64 ∧ pocNat m (key + 0x48) 8 = t.aux % 2 ^ 64 ∧
      pocNat m (key + 0x50) 8 = (x.tcount + 1) % 2 ^ 64

/-- The double fault (14 R340, R341): a trap of a warp at trap level 1, and a trap in a context without a handler, end the
workgroup with reasons 3 and 2 in its record. The PC in the record is the model's reading (log 20). -/
def Obligations.DoubleFaults : Prop :=
  ∀ (s : State) (t : Trap) (a : Site) (x : Wg) (p : Warp), getWg s a.g = some x → getWarp s a.g a.w = some p →
    let s1 := if t.cause = 2 then freeze s 3 else s
    let s3 := entryState s t a x p
    (p.bank.isSome = true → takeTrap s t a = .next (clearIssuer (doubleFault s1 a.g a.w 3 t.word a.pc t.faddr))) ∧
    (p.bank = none → ctxBits s3 x.asid 128 64 = 0 →
      takeTrap s t a = .next (clearIssuer (doubleFault s3 a.g a.w 2 t.word a.pc t.faddr)))

/-- ILLEGAL with subcode OPERAND (02 R33, 14 R323, R328): an instruction of the warp word whose operands the warp may not name, or
whose fields are not legal, takes that trap once its registers wait for nothing, and has no other effect; a breakpoint goes first
where debugging is enabled; and an operation that trap level 1 bars is there a double fault. What makes an extension word illegal is
the model's reading (log 14). -/
def Obligations.OperandChecksTrap : Prop :=
  ∀ (op : Op) (f : WarpWord) (s : State) (c : Ctx), issuing s f = some c →
    interlocked s c op f = false →
    let site := siteOf s c (encodeWord op f) (some op) f true
    (f.d = true → s.obs.dbgen = true → c.warp.bank = none → exec (op.instr f) s = takeTrap s { cause := 8, sub := 1 } site) ∧
    ((f.d && s.obs.dbgen && c.warp.bank.isNone) = false →
      (legal c.regCtx op f = false → exec (op.instr f) s = takeTrap s trapOperand site) ∧
      (legal c.regCtx op f = true → c.warp.bank.isSome = true → barredAtTrap op f = true →
        exec (op.instr f) s = .next (clearIssuer (doubleFault s c.g c.w 3 trapOperand.word c.pc 0))))

/-- Conditions that an instruction's own entry names, each a trap with nothing else done: a misaligned target of BRA, CALL and
BRX and a misaligned or zero reconvergence address of BRX, after its depth test (04 R102, R103, R105), a BRX at depth 31 (04 R94), a
RET of lanes with misaligned addresses (04 R105), BAR.INIT while a phase is in progress, and an arrival that is not
allowed (08 R229), TLWAIT beyond what was issued (08 R234), a notify register outside NTFMASK (13 R316), MODE.LW with a lane
missing (04 R115), TW.SIG and TW.WAIT outside a pair placement (11 R280), an ANV.MMA of a warp outside the gang (11 R261).
SPACE and FADDR of a target are the model's reading (log 24). -/
def Obligations.ConditionTraps : Prop :=
  ∀ (f : WarpWord) (s : State) (c : Ctx),
    let adr := fun i => vread64 s c.g c.w f.a.toNat i 2
    let misaligned := fun (t : Word64) (l : Option Lanes) => ({ cause := 5, space := 0, flanes := l, faddr := t } : Trap)
    let tgt := branchTarget c f
    let j := f.a.toNat
    let lwTgt := c.pc + sB c .modeLw f
    (Ready .bra f s c → (f.guard = 0 ∨ c.p ≠ 0) → tgt.toNat % 8 ≠ 0 → exec (.bra f) s = takeTrap s ({ cause := 5, space := 0, faddr := tgt }) (siteOf s c (encodeWord .bra f) (some .bra) f true)) ∧
    (Ready .call f s c → tgt.toNat % 8 ≠ 0 → exec (.call f) s = takeTrap s ({ cause := 5, space := 0, faddr := tgt }) (siteOf s c (encodeWord .call f) (some .call) f true)) ∧
    (∀ fr, mget c.warp.frags c.e = some fr → brxTaken s c f ≠ 0 → fr.mask &&& ~~~(brxTaken s c f) ≠ 0 → fr.rca ≠ c.pc + disp f 32 →
      fr.depth = 31 → Ready .brx f s c →
      exec (.brx f) s = takeTrap s trapOperand (siteOf s c (encodeWord .brx f) (some .brx) f true)) ∧
    (∀ fr, mget c.warp.frags c.e = some fr →
      ¬ (brxTaken s c f ≠ 0 ∧ fr.mask &&& ~~~(brxTaken s c f) ≠ 0 ∧ fr.rca ≠ c.pc + disp f 32 ∧ fr.depth = 31) → Ready .brx f s c →
      let t := c.pc + disp f 0
      let J := c.pc + disp f 32
      let site := siteOf s c (encodeWord .brx f) (some .brx) f true
      (t.toNat % 8 ≠ 0 → exec (.brx f) s = takeTrap s (misaligned t none) site) ∧
      (t.toNat % 8 = 0 → (J.toNat % 8 ≠ 0 ∨ J = 0) → exec (.brx f) s = takeTrap s (misaligned J none) site)) ∧
    (∀ b bs, (lanesOf c.frag).filter (fun i => (adr i).toNat % 8 ≠ 0) = b :: bs → Ready .ret f s c →
      exec (.ret f) s = takeTrap s (misaligned (adr b) (some (maskOf (b :: bs)))) (siteOf s c (encodeWord .ret f) (some .ret) f true)) ∧
    (Ready .barInit f s c → barTurn s c.g c.w = true → ((barOf c f).warr ≠ 0 ∨ (barOf c f).ecnt ≠ 0) → exec (.barInit f) s = takeTrap s (trapOperand) (siteOf s c (encodeWord .barInit f) (some .barInit) f true)) ∧
    (Ready .barArrive f s c → barTurn s c.g c.w = true → mayArrive (barOf c f) c.w = false → exec (.barArrive f) s = takeTrap s (trapOperand) (siteOf s c (encodeWord .barArrive f) (some .barArrive) f true)) ∧
    (Ready .barSync f s c → barTurn s c.g c.w = true → mayArrive (barOf c f) c.w = false → exec (.barSync f) s = takeTrap s (trapOperand) (siteOf s c (encodeWord .barSync f) (some .barSync) f true)) ∧
    (Ready .tlwait f s c → (if f.mod.getLsbD 0 then c.wg.tla else c.wg.tlc).issued < (sB c .tlwait f).toNat → exec (.tlwait f) s = takeTrap s (trapOperand) (siteOf s c (encodeWord .tlwait f) (some .tlwait) f true)) ∧
    (Ready .ntfPost f s c → (ntfMaskOf s c.wg.rnum).testBit j = false → exec (.ntfPost f) s = takeTrap s ({ cause := 3, sub := 5, aux := j }) (siteOf s c (encodeWord .ntfPost f) (some .ntfPost) f true)) ∧
    (Ready .ntfWait f s c → (ntfMaskOf s c.wg.rnum).testBit j = false → exec (.ntfWait f) s = takeTrap s ({ cause := 3, sub := 5, aux := j }) (siteOf s c (encodeWord .ntfWait f) (some .ntfWait) f true)) ∧
    (Ready .modeLw f s c → (c.frag ≠ 0xFFFFFFFF ∨ c.warp.mask ≠ 0xFFFFFFFF) → exec (.modeLw f) s = takeTrap s (trapOperand) (siteOf s c (encodeWord .modeLw f) (some .modeLw) f true)) ∧
    (Ready .modeLw f s c → c.frag = 0xFFFFFFFF → c.warp.mask = 0xFFFFFFFF → lwTgt.toNat % 128 ≠ 0 → exec (.modeLw f) s = takeTrap s ({ cause := 5, space := 0, faddr := lwTgt }) (siteOf s c (encodeWord .modeLw f) (some .modeLw) f true)) ∧
    (Ready .twSig f s c → c.wg.pairPlaced = false → exec (.twSig f) s = takeTrap s (trapOperand) (siteOf s c (encodeWord .twSig f) (some .twSig) f true)) ∧
    (Ready .twWait f s c → c.wg.pairPlaced = false → exec (.twWait f) s = takeTrap s (trapOperand) (siteOf s c (encodeWord .twWait f) (some .twWait) f true)) ∧
    (Ready .anvMma f s c → c.wg.gang.getLsbD c.w = false → exec (.anvMma f) s = takeTrap s ({ cause := 6, sub := 2 }) (siteOf s c (encodeWord .anvMma f) (some .anvMma) f true))

/-- MODE.LW, MODE_LW_UNBLOCK, RESULT_LANDING, LW_LD_COMPLETE, LW_ST_COMPLETE, MODE_SIMT_DRAIN_DONE and SAFE_POINT_WATCHDOG (04
R115, 06 R141, R144, R149, R160, R163): a whole warp becomes a long-word thread, or waits while two lane groups of its core
are in long-word mode or another waits for it; results land at their slots; a drained thread is a warp again, and the
MODE.LW that has waited longest proceeds. The form of an event is the model's
choice (log 3). -/
def Obligations.LongWordModeResults : Prop :=
  ∀ (f : WarpWord) (s : State) (c : Ctx) (id g w core : Nat),
    let tgt := c.pc + sB c .modeLw f
    (c.frag = 0xFFFFFFFF → c.warp.mask = 0xFFFFFFFF → tgt.toNat % 128 = 0 → lwCount s c.wg.core < 2 → lwWaiters s c.wg.core = [] → Ready .modeLw f s c →
      exec (.modeLw f) s = .next (clearIssuer (enterLw (past .modeLw f s c) c.g c.w tgt))) ∧
    (c.frag = 0xFFFFFFFF → c.warp.mask = 0xFFFFFFFF → tgt.toNat % 128 = 0 → (2 ≤ lwCount s c.wg.core ∨ lwWaiters s c.wg.core ≠ []) →
      Ready .modeLw f s c →
      exec (.modeLw f) s = .next (clearIssuer (blockFrag (past .modeLw f s c) c.g c.w c.e (.modeLw s.clock tgt)))) ∧
    (∀ q, lwCount s core < 2 → leastBy (fun q => [q.2.1, q.2.2.1]) lexLt (lwWaiters s core) = some q →
      exec (.modeLwUnblock core) s = .next (enterLw s (q.1 / 16) (q.1 % 16) q.2.2.2)) ∧
    (∀ x l, getWarp s g w = some x → x.lw = some l → (∃ h ∈ l.flights, h.slot ≤ l.slot) →
      exec (.resultLanding g w) s = .next (setWarp s g w (landUpTo x l.slot))) ∧
    (∀ l, s.loads.find? (fun l => l.id = id && l.kind = .lwld) = some l → darkHbm s (l.reads.map (fun r => r.2.2.1)) = [] → loadGone s l = true →
      exec (.lwLdComplete id) s = .next (landLoad s l)) ∧
    (∀ e, s.stores.find? (fun e => e.id = id && e.token.isSome) = some e → storeReady s e = true →
      exec (.lwStComplete id) s = .next (reapAll (performStore s e))) ∧
    (∀ x l, getWarp s g w = some x → x.lw = some l → l.draining = true → l.tokens = [] → l.pend = [] → x.bank = none →
      exec (.modeSimtDrainDone g w) s = .next (unblockLw (wakeAll (setWarp s g w (resumeWarp (landFlights x) l.pc s.clock))) (coreOf s g))) ∧
    (∀ d t, lwCtxOf s ⟨g, w, 0⟩ = some d → spBoundOf s d.wg.rnum < d.lw.count s.clock → d.warp.late = [] → d.warp.engine = [] →
      fetchBundle s d.wg (warpKey g w) d.lw.pc.toNat = t →
      (∀ v u, t = .ok v u →
        let tr : Trap := { cause := 0x0A, origin := 5, flanes := some 0 }
        exec (.safePointWatchdog g w) s = takeTrap u tr (lwSite d v false) ∧
          ∀ y p0 p r key, TrapReady u tr (lwSite d v false) y p0 p r key →
            ∃ v', exec (.safePointWatchdog g w) s = .next v' ∧ TrapEntered u tr (lwSite d v false) y p0 p v'))

/-- A bundle with no fault before it, whose tokens are complete, whose form, timing and registers are legal and whose slots may all
proceed, none of its registers being washed (02 R36, 04 R90, 06 R142 to R152): due results land, the wait mask's tokens are
acquired, the scalar slot's and the engine slot's accesses are made, the constant cache takes the lines that SWP reads, the slots'
results are in flight, and the thread is at the control slot's next bundle. Empty slots, guards and the releases of the engine slot
follow log 31, the model's reading. -/
def Obligations.BundleIssueResult : Prop :=
  ∀ (b : Bundle) (s t u v : State) (i : Issuer) (c0 c1 c : LwCtx) (k : CtlEffect), s.issuer = some i → lwCtxOf s i = some c0 →
    let s1 := setWarp s c0.g c0.w (landUpTo c0.warp c0.lw.slot)
    let s2 := acquireTokens s1 c1 b.wait
    lwCtxOf s1 i = some c1 → lwPending s1 c1 (fun _ => false) = none →
    (∀ n, n < 8 → b.wait.getLsbD n = true → mgetD c1.lw.tokens n 0 = 0) →
    lwCtxOf s2 i = some c → lwPending s2 c (fun n => b.wait.getLsbD n) = none →
    (b.d && s2.obs.dbgen) = false → bundleForm b = true → bundleConflict s2 c b = false → bundleRegs c.warp.alloc b = true →
    (∀ l ∈ s2.loads, ∀ n x, l.scal = some (n, x) → l.g = c.g → l.w = c.w → (bundleSregs b).contains n = false) → bundleWashing s2 c b = false →
    (b.engine.te = true → mgetD c.lw.tokens b.engine.tk.toNat 0 < 255) → bundlePoison c b = 0 →
    controlDo s2 c b.control = .ok k → scalarAccess s2 s2 c b.scalar = .done t → engineDo s2 s2 c b.engine = .done u →
    engineDo s2 t c b.engine = .done v →
    exec (.bundleIssue b) s = .next (clearIssuer (afterBundle
      (loadFills (if b.lanes.any (fun x => x.op = 0x27 || (0x29 ≤ x.op.toNat && x.op.toNat ≤ 0x2B))
        then { v with freeCtr := v.freeCtr + 32 } else v) c.agent 3 {} k.fills)
      c b k (bundleFlights s2 c b)))

/-- TRAP_ENTRY and LATE_FAULT (14 R325, R327, R336 to R338): a late fault that waits at a boundary is taken instead of the next
instruction, with ORIGIN 2 and the lanes and address of the first entry; a lasting error of an access in flight poisons its
granule, and the access ends in a late fault. The form of an event is the model's choice (log 3); the frame's WORD and
FCAUSE are its readings (logs 17 and 23). -/
def Obligations.TrapEvents : Prop :=
  ∀ (s : State) (g w id : Nat) (x : Wg) (p : Warp) (e : Nat) (fr : Frag) (l : Late) (rest : List Late),
    (getWg s g = some x → getWarp s g w = some p → x.mayIssue = true → lwOn s x.core p.lg = false → p.lw = none → p.bank = none → p.due = none →
      p.frags.find? (fun q => q.2.state = .ready) = some (e, fr) → mget p.frags e = some fr → p.late = l :: rest →
      l.token = none → ∀ v t, fetchWord s x (warpKey g w) fr.pc.toNat = .ok v t →
      let tr : Trap := { cause := l.cause, sub := l.sub, origin := 2, space := l.space, flanes := some l.lanes, faddr := l.addr }
      exec (.trapEntry g w) s = takeTrap t tr (fragSite g w e p fr v) ∧
        ∀ y q0 q r key, TrapReady t tr (fragSite g w e p fr v) y q0 q r key →
          ∃ v', exec (.trapEntry g w) s = .next v' ∧ TrapEntered t tr (fragSite g w e p fr v) y q0 q v') ∧
    (∀ d r rs, s.loads.find? (fun d => d.id = id) = some d → d.reads = r :: rs →
      exec (.lateFault id 0x0B 1) s = .next (landLoad (lastingError s d.g d.w r.2.2.1 1 r.2.1 d.space) d)) ∧
    (∀ a, s.loads.find? (fun d => d.id = id) = none → s.atoms.find? (fun a => a.id = id && !a.done) = some a →
      exec (.lateFault id 0x0B 2) s = .next (reapAll (applyAtom (lastingError s a.g a.w a.key 2 a.va (keySpace a.key)) a)))
/-- The lamplighter (07 R178 to R187): an idle, unprotected LIT unit with no access queued goes DIM at its cold threshold, a
pseudo-channel DARK; a waking unit is LIT once its latency has passed; a unit nobody is granted goes DARK and its bytes are
lost; a lane group enters near-threshold operation only where every unheld warp allows it, or a trip forces it. The form of
an event is the model's choice (log 3). -/
def Obligations.LampEvents : Prop :=
  ∀ (s : State) (u core lg since th : Nat) (zero : Bool),
    (lampOf s u = .lit since → coldThreshold s u = some th → since + th ≤ s.clock → isProtected s u = false → unitBusy s u = false →
      exec (.lampColdThreshold u) s = .next (setLamp (takePlace s (clsDim u) 0) u (if 72960 ≤ u then .dark else .dim))) ∧
    (isProtected s u = true → exec (.lampColdThreshold u) s = .next s) ∧
    (lampOf s u = .waking since zero → since + wakeTime u zero ≤ s.clock →
      exec (.lampWakeComplete u) s = .next (wakeAll (setLamp s u (.lit s.clock)))) ∧
    (lampOf s u = .waking since zero → s.clock < since + wakeTime u zero → exec (.lampWakeComplete u) s = .next s) ∧
    (lampOf s u ≠ .dark → releasable s u = true → exec (.lampRelease u) s = .next (setLamp (loseUnit s u) u .dark)) ∧
    ((nearAllowed s core lg = true ∨ tripped s (dieOf core) = true) →
      exec (.nearThresholdEnter core lg) s = .next (modLg s core lg (fun l => { l with near := true }))) ∧
    (nearAllowed s core lg = false → tripped s (dieOf core) = false → exec (.nearThresholdEnter core lg) s = .next s) ∧
    (tripped s (dieOf core) = false →
      exec (.nearThresholdLeave core lg) s = .next (modLg s core lg (fun l => { l with near := false }))) ∧
    (tripped s (dieOf core) = true → exec (.nearThresholdLeave core lg) s = .next s)

/-- The Coopers (13 R299 to R306, 14 R343, R345): the batch timer forms a launch, a Cooper that may place places its first
candidate that fits, a candidate that cannot be placed makes it choose victims, a stopping workgroup that may be saved is
saved, a restored one issues when its units are awake, a workgroup that may park begins to stop, an idle cluster is gated.
The form of an event and the ties are the model's choice (logs 3 and 36), a save's data too (log 37). -/
def Obligations.CooperEvents : Prop :=
  ∀ (s : State) (stack g cluster rnum node : Nat) (cand : Candidate),
    exec (.batchTimerExpiry rnum node) s = .next (modRegion s rnum (fun r =>
      if r.barred then r else { r with nodes := mmod r.nodes node (fun n => formNode n s.clock true) })) ∧
    (∀ c sides, mayPlace s stack = true → inOrder s clsCooper stack = true → (stack = 0 ∨ mayPlace s 0 = false) →
      firstPlaceable s stack = some (c, sides) → exec (.workgroupPlace stack) s = .next (takePlace (place s stack c sides) clsCooper stack)) ∧
    (∀ c d sides rest, mayPlace s stack = true → inOrder s clsCooper stack = true → stack ≠ 0 → mayPlace s 0 = true →
      firstPlaceable s 0 = some (c, sides) → (candidates s stack).find? (fun r => (findPlace s stack r.cand).isSome) = some d →
      d.cand ≠ c → findPlace s stack d.cand = some rest →
      exec (.workgroupPlace stack) s = .next (takePlace (place s stack d.cand rest) clsCooper stack)) ∧
    (∀ x, getWg s g = some x → x.status = .restoring → (∀ h ∈ restoreSet s g, (getWg s h).any (restoreAwake s) = true) →
      exec (.workgroupRestore stack g) s = .next (finishRestore s (restoreSet s g))) ∧
    (∀ x sides, getWg s g = some x → x.isSaved = true → placesNow s stack = some (.restore g, sides) →
      exec (.workgroupRestore stack g) s = .next (takePlace (place s stack (.restore g) sides) clsCooper stack)) ∧
    (∀ c vs, (candidates s stack).find? (fun c => c.cand = cand) = some c → c.since + preDlyOf s c.rnum ≤ s.clock →
      findPlace s stack cand = none → (∀ k ∈ sites s stack cand, placeable (departed s (leaving s)) cand k.1 = false) →
      chooseVictims s stack cand (prioOf s c.rnum) = some vs → (∀ g ∈ vs.flatMap (·.gs), withdrawTurn s g = true) →
      exec (.preemptVictims stack cand) s =
        .next (restartDelay ((vs.flatMap (·.gs)).foldl (fun s g => stopWg s false g) s) cand)) ∧
    (∀ gs, wgSet s g = gs → gs ≠ [] → (∀ h ∈ gs, maySave s h = true) →
      (∀ h ∈ gs, ∀ x, getWg s h = some x → imageAddr s x + imageSize ≤ 2 ^ 39) →
      exec (.preemptSave g) s = .next (saveSet s gs)) ∧
    (∀ gs, wgSet s g = gs → gs ≠ [] → imageRoom s gs = true → (∀ h ∈ gs, withdrawTurn s h = true) →
      ((∀ h ∈ gs, mayPark s false h = true) ∨ (∀ h ∈ gs, mayPark s true h = true)) →
      exec (.parkWorkgroup g) s = .next (gs.foldl (fun s h => stopWg s true h) s)) ∧
    ((∀ p ∈ s.wgs, p.2.onCore = true → clusterOf p.2.core ≠ cluster) → s.gated.contains cluster = false →
      exec (.clusterPowerGate cluster) s = .next { s with gated := s.gated ++ [cluster] })

/-- ACTIVATE, RELOAD, DEACTIVATE and RCMD_COMPLETE (13 R289, 15 R356): a command reads its block and the tables that it names, a
RELOAD checked with the block in its place; one that is refused leaves its STATUS and changes nothing else; an accepted one makes,
changes or removes the region with its context and its banks; while BUSY a write is discarded. The order of the statuses, the
addresses and the time of the effect are the model's readings (logs 33 and 34). -/
def Obligations.RegionCommands : Prop :=
  ∀ (s : State) (v : Word64),
    let addr := s.host.rcmdAddr.toNat
    let k := readBlock s addr
    let r : Region := ⟨addr, k.bits, ((List.range k.nodes.length).zip k.nodes).map (fun q => (q.1, Node.fresh q.2)), k.banks, 0, false⟩
    exec .rcmdComplete s = .next { s with host := { s.host with rcmdBusy := false } } ∧
    (s.host.rcmdBusy = true →
      exec (.activate v) s = .next s ∧ exec (.reload v) s = .next s ∧ exec (.deactivate v) s = .next s) ∧
    (s.host.rcmdBusy = false → v.toNat % 4 = 1 →
      let u := askBlock s addr k
      (checkBlock u addr k none ≠ 0 → exec (.activate v) s = .next (rcmdAnswer u (checkBlock u addr k none))) ∧
      (checkBlock u addr k none = 0 → exec (.activate v) s = .next (rcmdAnswer (grantBanks
        (putContext { u with regions := mset u.regions (rcb k.bits 418 12) r } k.asid k.ctx) k.asid k.banks k.banks) 0))) ∧
    (∀ old q, s.host.rcmdBusy = false → v.toNat % 4 = 2 → s.regions.find? (fun p => p.2.addr = addr) = some (old, q) →
      let u := { s with regions := mset s.regions old { q with bits := k.bits } }
      let m := readBlock u addr
      (checkBlock u addr m (some old) ≠ 0 →
        exec (.reload v) s = .next (rcmdAnswer (askBlock s addr m) (checkBlock u addr m (some old)))) ∧
      (checkBlock u addr m (some old) = 0 → ∃ t p, exec (.reload v) s = .next t ∧ t.host.rcmdStatus = 0 ∧ t.host.rcmdBusy = true ∧
        mget t.regions (rcb m.bits 418 12) = some p ∧ p.bits = m.bits ∧ p.banks = m.banks ∧ p.addr = q.addr)) ∧
    (∀ n q, s.host.rcmdBusy = false → v.toNat % 4 = 3 → s.regions.find? (fun p => p.2.addr = addr) = some (n, q) →
      (∀ p ∈ s.wgs, p.2.rnum ≠ n) → (∀ p ∈ s.regions, rcb p.2.bits 0 64 ≠ addr) →
      exec (.deactivate v) s = .next (rcmdAnswer (dropBanks { s with regions := mdel s.regions n } q.banks) 0)) ∧
    (s.host.rcmdBusy = false → v.toNat % 4 = 3 → s.regions.find? (fun p => p.2.addr = addr) = none →
      exec (.deactivate v) s = .next (rcmdAnswer s 10))

/-- DOORBELL and DOORBELL_COMMIT (13 R306, R307, 15 R357, R358, R360, R372): a doorbell whose page names staged records in reach is
triggered, after those triggered in earlier cycles and in the requesters' order within its own, and one that is not is counted as
discarded; a TDI in ERROR triggers none, an unprotected one of a TDI in RUN is an Unsupported Request, and a requester's earlier posted
writes come first; the oldest takes its slots when its turn on the ring has come and the ring has room, and its records are copied in
and committed once their pages are translated. Ignored bits and a region gone since are the model's readings (log 35). -/
def Obligations.DoorbellEvents : Prop :=
  ∀ (s : State) (who : Requester) (word : Word64) (ide : Bool),
    let rnum := bits word.toNat 0 12
    let node := bits word.toNat 12 10
    let n := bits word.toNat 22 9
    let addr := (getBell s who).addr.toNat / 32 * 32
    let asks : Prop := mayAsk s who = true ∧ arrives s who = true ∧ unprotected s who ide = false
    let clear : Prop := hasPosted s who = false ∧ ∀ q ∈ s.lampq, q.who ≠ reqWho who
    (asks → clear → getNode s rnum node = none → exec (.doorbell ⟨who, ide⟩ word) s = .next (discardBell s who)) ∧
    (∀ d, asks → clear → getNode s rnum node = some d → 1 ≤ n → n ≤ 256 → s.rings.length < 64 →
      s.host.ctxSet = true → mayName s who rnum = true → (stagingAddr s who addr).isSome = true →
      (stagingAddr s who (addr + n * recSize d.bits - 1)).isSome = true →
      exec (.doorbell ⟨who, ide⟩ word) s =
        .next { s with rings := joinRing ⟨who, addr, rnum, node, n, s.nextId, s.clock⟩ s.rings, nextId := s.nextId + 1 }) ∧
    (asks → hasPosted s who = true →
      exec (.doorbell ⟨who, ide⟩ word) s = .next { s with posted := s.posted ++ [(who, .register (bellOffset who) word)] }) ∧
    (arrives s who = false → exec (.doorbell ⟨who, ide⟩ word) s = .next s) ∧
    (mayAsk s who = true → arrives s who = true → unprotected s who ide = true →
      exec (.doorbell ⟨who, ide⟩ word) s = .next { s with completion := some .unsupported }) ∧
    (∀ q rest d, s.rings = q :: rest → s.ckpt.busy ≠ 1 → q.came < s.clock → inOrder s clsAlloc 0 = true →
      getNode s q.rnum q.node = some d → d.waiters = [] → ringTakes d q.n = true →
      let asid := asidOf s q.rnum
      let cooper := cooperOf s q.rnum
      let pages := contextMiss s asid (cooperWho cooper) (ringTake d q.n).2 (q.n * recSize d.bits)
      (pages = [] → exec .doorbellCommit s = .next (pieceDone (commitBell (modNode { s with rings := rest } q.rnum q.node
        (fun _ => freeSlots (ringTake d q.n).1)) q asid (ringTake d q.n).2 (q.n * recSize d.bits)) (cooperWho cooper))) ∧
      (pages ≠ [] → exec .doorbellCommit s = .next (askPieces s (240 * cooper) asid (cooperWho cooper) pages))) ∧
    (∀ q rest d, s.rings = q :: rest → s.ckpt.busy ≠ 1 → q.came < s.clock → inOrder s clsAlloc 0 = true →
      getNode s q.rnum q.node = some d → d.waiters = [] → ringTakes d q.n = false →
      exec .doorbellCommit s = .next (modNode s q.rnum q.node (fun d => { d with waiters := d.waiters ++ [.bell q.ticket] }))) ∧
    (∀ q rest, s.rings = q :: rest → (s.ckpt.busy = 1 ∨ s.clock ≤ q.came) → exec .doorbellCommit s = .next s)

/-- Page walks, ATS, PRI and invalidation (14 R346 to R349, 15 R356): a walk that has one of its stack's 96 walkers ends in a cached
leaf, a fault, or an ATS request; a completion caches the page, asks for it or ends in a fault; an invalidation drops what it covers at
once and is over when no access that used it is pending, until when a further command is discarded; FSRD moves RSEQ. Which entry a full
TLB gives up, and the refused completion, are the model's (log 38). -/
def Obligations.TranslationEvents : Prop :=
  ∀ (s : State) (id stack : Nat) (k : Walk) (v : Word64),
    (∀ sub, s.walks.find? (fun k => k.id = id && k.state = .walking && walks s k) = some k →
      walkContext s k.asid (4096 * k.va) = .fault sub →
      exec (.pageWalkComplete id) s = .next (setWalk (walkReads s k.asid (4096 * k.va)) id (.failed sub))) ∧
    (∀ size pa mtype r w x, s.walks.find? (fun k => k.id = id && k.state = .walking && walks s k) = some k →
      walkContext s k.asid (4096 * k.va) = .leaf size pa mtype r w x →
      let u := walkReads s k.asid (4096 * k.va)
      let t := if (tlbFind u k.core k.asid (4096 * k.va) false).isSome then u
        else fillTlb u k.core k.asid size (4096 * k.va) (leafAddr u pa mtype) mtype r w x
      (mtype ≠ 1 → mtype ≠ 2 → exec (.pageWalkComplete id) s = .next (endWalk t id)) ∧
      ((mtype = 1 ∨ mtype = 2) → ctxBits t k.asid 399 1 = 0 → exec (.pageWalkComplete id) s = .next (setWalk t id (.failed 5))) ∧
      ((mtype = 1 ∨ mtype = 2) → ctxBits t k.asid 399 1 ≠ 0 → tlbFind t k.core k.asid (4096 * k.va) true = none →
        exec (.pageWalkComplete id) s = .next (setWalk t id (.ats mtype)))) ∧
    (∀ m pa rd wr, s.walks.find? (fun k => k.id = id) = some k → k.state = .ats m →
      let page := (k.asid, k.va, pa / 4096 % 2 ^ 52)
      let t := if m = 1 then { s with atsPages := page :: s.atsPages.filter (fun p => p ≠ page) } else s
      exec (.atsCompletion id (.granted pa rd wr)) s = .next (endWalk (tlbInsert t
        ⟨480 + stackOf k.core, k.asid, 12, k.va, pa / 4096 * 4096 % 2 ^ 64, m + 4, rd, wr, false⟩) id)) ∧
    (∀ m, s.walks.find? (fun k => k.id = id) = some k → k.state = .ats m →
      exec (.atsCompletion id .notPresent) s = .next (setWalk s id (.pri m)) ∧
        exec (.atsCompletion id .refused) s = .next (setWalk s id (.failed 5))) ∧
    (∀ m ok, s.walks.find? (fun k => k.id = id) = some k → k.state = .pri m →
      exec (.priResponse id ok) s = .next { s with walks := s.walks.map (fun j => match j.state with
        | .pri n => if sameRequest s k j then { j with state := if ok then .ats n else .failed 6 } else j
        | _ => j) }) ∧
    (∀ pasid va len, exec (.atsInvalidation pasid va len) s = .next (dropTlb { s with atsInvs := s.atsInvs ++ [(pasid, va, len)] }
      (fun e => 4 ≤ e.mtype && ctxBits s e.asid 400 20 = pasid &&
        e.vpn * 2 ^ e.size < va + len && va < (e.vpn + 1) * 2 ^ e.size))) ∧
    (mgetD s.host.tlbBusy stack 0 = 0 →
      let form := v.toNat % 4
      let asid := bits v.toNat 2 11
      let t := renewWindows (dropTlb { s with host := { s.host with
          tlbAsid := mset s.host.tlbAsid stack asid, tlbBusy := mset s.host.tlbBusy stack (form + 1) } }
        (covered form asid (mgetD s.host.tlbAddr stack 0).toNat (mgetD s.host.tlbLen stack 0).toNat))
      (form = 0 → exec (.tlbInvalidateAll stack v) s = .next t) ∧ (form = 1 → exec (.tlbInvalidateAsid stack v) s = .next t) ∧
        (form = 2 → exec (.tlbInvalidateRange stack v) s = .next t)) ∧
    (mgetD s.host.tlbBusy stack 0 ≠ 0 → exec (.tlbInvalidateAll stack v) s = .next s ∧ exec (.tlbInvalidateAsid stack v) s = .next s ∧
      exec (.tlbInvalidateRange stack v) s = .next s) ∧
    (∀ b, mgetD s.host.tlbBusy stack 0 = b → b ≠ 0 → usesPending s (decide (b = 1)) (mgetD s.host.tlbAsid stack 0) = false →
      exec (.tlbInvalidationComplete stack) s = .next (rereadContexts
        { s with host := { s.host with tlbBusy := mset s.host.tlbBusy stack 0 } } (decide (b = 1)) (mgetD s.host.tlbAsid stack 0))) ∧
    (let q := mgetD s.faultStores stack FaultStore.empty
     exec (.fsrdWrite stack v) s =
      .next { s with faultStores := mset s.faultStores stack { q with rseq := max q.rseq (min v.toNat q.wseq) } })

/-- The host's BARs and the harts (08 R219, R220, 15 R353 to R360, R366 to R368, R371, 16 R383): a function's requests are taken
once the link has trained, a hart's once the counting house runs; a read or write of a mapped control register reaches it, a read of
one that is not mapped answers all ones and a write is discarded; device memory is read and written at the slices, a request that
must wait for its pseudo-channels joining their queue and being held with what its requester asks after it; an AtomicOp is an
Unsupported Request, a link trains to a legal width and rate, and a hart's access outside its map, or to a notify register that its
domain does not reach, is an access fault of its kind. The harts' map, and what a fence or a reset of a hart is, are the model's
readings (logs 44 and 58). -/
def Obligations.HostAccessResults : Prop :=
  ∀ (s : State) (who : Requester) (bar off n j hart : Nat) (v : Word64) (data : List Byte) (ide : Bool),
    let asks : Prop := isFunction who = true ∧ linked s = true ∧ arrives s who = true ∧ unprotected s who ide = false ∧ hasPosted s who = false
    let clear : Requester → Prop := fun r => hasPosted s r = false ∧ ∀ q ∈ s.lampq, q.who ≠ reqWho r
    -- a request whose pseudo-channels have to wake, or have earlier accesses in their queue, waits
    let waiting := fun (as : List Nat) (p : Posted) =>
      let t := lampJoin s (reqWho who) (nub (as.map hbmUnit))
      { t with posted := t.posted ++ [(who, p)] }
    (isFunction who = true → linked s = true → exec (.hostAtomicop who bar off) s = .next { s with completion := some .unsupported }) ∧
    (asks → n = 8 → off % 8 = 0 → off + 8 ≤ bar0Size who →
      exec (.hostBarRead who 0 off n ide) s = .next { s with completion := some (.data (match who with
        | .tdi t => vfRead s t off
        | w => regRead s w off)) }) ∧
    (asks → bar0Size who < off + 8 →
      exec (.hostBarRead who 0 off n ide) s = .next { s with completion := some (.data (2 ^ (8 * n) - 1)) }) ∧
    (∀ as, asks → barAddrs s who off n = some as → clear who →
      (lampHeld s (reqWho who) (nub (as.map hbmUnit)) = false → exec (.hostBarRead who 2 off n ide) s = .next (physRead s as)) ∧
      (lampHeld s (reqWho who) (nub (as.map hbmUnit)) = true → exec (.hostBarRead who 2 off n ide) s = .next (waiting as (.read as)))) ∧
    (asks → barAddrs s who off n = none →
      exec (.hostBarRead who 2 off n ide) s = .next { s with completion := some (.data (2 ^ (8 * n) - 1)) }) ∧
    (asks → clear who → data.length = 8 → off % 8 = 0 → off + 8 ≤ bar0Size who → exec (.hostBarWrite who 0 off data ide) s = .next (match who with
        | .tdi t => vfWrite t off (wordOf data) s
        | w => regWrite w off (wordOf data) s)) ∧
    (asks → bar0Size who < off + 8 → exec (.hostBarWrite who 0 off data ide) s = .next s) ∧
    (∀ as, asks → clear who → data.length ≤ 512 → barAddrs s who off data.length = some as →
      (lampHeld s (reqWho who) (nub (as.map hbmUnit)) = false → exec (.hostBarWrite who 2 off data ide) s = .next (pocWrite
        (touchAll s (nub (as.map hbmUnit))) ((as.map hbmKey).zip data))) ∧
      (lampHeld s (reqWho who) (nub (as.map hbmUnit)) = true → exec (.hostBarWrite who 2 off data ide) s =
        .next (waiting as (.memory as data)))) ∧
    (isFunction who = true → linked s = true → arrives s who = true → unprotected s who ide = true → data.length ≤ 512 →
      exec (.hostBarRead who 0 off n ide) s = (if hasPosted s who then .next s else .next { s with completion := some .unsupported }) ∧
        exec (.hostBarWrite who 0 off data ide) s = .next { s with completion := some .unsupported }) ∧
    (off % 8 = 0 → off < 2 ^ 26 → linked s = true → clear .pf →
      exec (.registerWrite off v) s = .next (regWrite .pf off v s)) ∧
    (j < 256 → mayAsk s who = true → arrives s who = true → unprotected s who ide = false → clear who →
      (∀ h, who = .hart h → notifyAllowed s who j = true) →
      exec (.notifyWindowSet ⟨who, ide⟩ j v) s = .next (notifyWrite who j v false s) ∧
        exec (.notifyWindowAdd ⟨who, ide⟩ j v) s = .next (notifyWrite who j v true s)) ∧
    (j < 256 → mayAsk s (.hart hart) = true → notifyAllowed s (.hart hart) j = false →
      exec (.notifyWindowSet ⟨.hart hart, ide⟩ j v) s = .next { s with completion := some (.accessFault .store) } ∧
        exec (.notifyWindowAdd ⟨.hart hart, ide⟩ j v) s = .next { s with completion := some (.accessFault .store) }) ∧
    (∀ rate, s.fw.boot = 3 → (n = 16 ∨ n = 8 ∨ n = 4) → rate ∈ pcieRates → exec (.pcieLinkTrain n rate) s =
      .next { s with host := { s.host with width := n, rate := rate, flit := decide (320 < rate) } }) ∧
    (∀ op, hart < 16 → s.fw.house = true → hasPosted s (.hart hart) = false → (hartGives op = true → data.length = n) →
      op ≠ .fence → op ≠ .reset →
      (off + n ≤ 2 ^ 39 → exec (.hartAccess hart op off n data) s = .next (hartMemory s hart op off n data)) ∧
      (0xF000000000 ≤ off → off + n ≤ 0xF000000000 + 2 ^ 26 →
        exec (.hartAccess hart op off n data) s = .next (hartControl s hart op (off - 0xF000000000) n data)) ∧
      (2 ^ 39 < off + n → ¬ (0xF000000000 ≤ off ∧ off + n ≤ 0xF000000000 + 2 ^ 26) →
        exec (.hartAccess hart op off n data) s = .next { s with completion := some (.accessFault (faultKind op)) })) ∧
    (hart < 16 → s.fw.house = true → hasPosted s (.hart hart) = false → exec (.hartAccess hart .fence off n data) s = .next s) ∧
    (∀ op, hart < 16 → hasPosted s (.hart hart) = true → hartWaits op = true → exec (.hartAccess hart op off n data) s = .next s)

/-- The trusted device interfaces (15 R358 to R360, 16 R382): a lock, a start and a stop answer their TDISP message and move the
state from CONFIG_UNLOCKED to CONFIG_LOCKED to RUN; a failure of the stream, the end of the session and a reset of the
function put a TDI in CONFIG_LOCKED or RUN into ERROR (`tdiError`), the reset discarding its doorbells and its doorbell page as well; a
TDI in ERROR with nothing left is unlocked, its memory zeroed. Numbers, sessions
and unlocking are the model's readings (log 43). -/
def Obligations.TdiEvents : Prop :=
  ∀ (s : State) (t : Nat), isTdi t = true →
    let d := getTdi s t
    exec .spdmSessionStart s = .next (if s.spdm then s else { s with spdm := true, spdmBeat := s.clock }) ∧
    exec .spdmHeartbeat s = .next (if s.spdm then { s with spdmBeat := s.clock } else s) ∧
    (s.spdm = true → d.state ≠ .error →
      exec (.ideKm t) s = .next (modTdi s t (fun d => { d with keyed := true, ideUp := true }))) ∧
    (s.spdm = true → d.state = .unlocked → lockRefused s t = false →
      exec (.lockInterface t) s = .next (tdispAnswer (modTdi s t (fun d => { d with state := .locked })) true)) ∧
    (s.spdm = true → (d.state ≠ .unlocked ∨ lockRefused s t = true) → exec (.lockInterface t) s = .next (tdispAnswer s false)) ∧
    (s.spdm = true → d.state = .locked →
      exec (.startInterface t) s = .next (tdispAnswer (modTdi s t (fun d => { d with state := .run })) true)) ∧
    (s.spdm = true → d.state ≠ .locked → exec (.startInterface t) s = .next (tdispAnswer s false)) ∧
    (s.spdm = true → exec (.stopInterface t) s = .next (tdispAnswer (tdiError s t) true)) ∧
    (d.ideUp = true → exec (.ideIntegrityFailure t) s = .next (tdiError s t)) ∧
    exec (.keyUpdate true) s = .next s ∧ exec (.keyUpdate false) s = .next (endSpdm s) ∧ exec .endSession s = .next (endSpdm s) ∧
    exec .spdmHeartbeatMissed s = .next (endSpdm s) ∧
    ((d.state = .error ∨ d.unlocking = true) → boundLeft s (tdiAsids d) = false →
      exec (.tdiUnlockComplete t) s = .next (modTdi (renewWindows (dropTlb ((tdiRuns d).foldl (fun s r => zeroRange s (hbmKey r.1) r.2) s)
        (fun e => (tdiAsids d).contains e.asid))) t
        (fun d => { d with state := .unlocked, unlocking := false, keyed := false, ideUp := false
                           entry := if d.unlocking then 0 else d.entry }))) ∧
    (let e := tdiError s t
     let r := (e.rings.filter (fun q => q.who = .tdi t)).foldl dropRing e
     let u := modTdi { r with bells := mdel r.bells (bellOf (.tdi t)) } t (fun d => { d with unlocking := true })
     exec (.vfFlr t) s = .next u ∧ (getTdi u t).unlocking = true ∧ (∀ q ∈ u.rings, q.who ≠ .tdi t) ∧
       mget u.bells (bellOf (.tdi t)) = none)

/-- The links (15 R361 to R365, 08 R224, R225): the flit expected next is taken and acknowledged, a corrupt one answered negatively,
a negative acknowledgement replays from its flit, an admission request waits its turn and is granted in turn where there is space, a
grant sends its transfer, a peer's load, store or atomic is performed at the memory-side slices and answered when the answer is
admitted, an atomic once only (R224), its replay answered with the value recorded, a request that has to wait joins the queue of its
pseudo-channels, and a failed or retrained link drops what was on it. Ignored flits and what a failed link leaves are the model's
(logs 4 and 39). -/
def Obligations.LinkEvents : Prop :=
  ∀ (s : State) (link tag bytes seq peer epoch : Nat) (fl : Flit),
    let l := getLink s link
    let unitsOf := fun (pa n : Nat) => nub ((List.range n).map (fun i => hbmUnit (pa + i)))
    -- a peer's request that waits for its pseudo-channels, or for room in the table of atomics
    let queued := fun (p : PeerTag) (pa : Nat) (op : PeerOp) (us : List Nat) =>
      lampJoin { s with peerq := s.peerq ++ [(s.nextId, p, pa, op)], nextId := s.nextId + 1 } (peerWho s.nextId) us
    (l.up = true → fl.crcOk = false →
      exec (.flitReceive link fl) s = .next (modLink s link (fun l => { l with sent := (false, fl.seq) :: l.sent }))) ∧
    (l.up = true → fl.crcOk = true → fl.seq = l.rxSeq →
      let t := modLink (modLink s link (fun l => l.acked fl.ack)) link
        (fun l => { l with rxSeq := l.rxSeq + 1, sent := (true, fl.seq) :: l.sent })
      ((fl.kind = .idle ∨ fl.kind = .ack) → exec (.flitReceive link fl) s = .next t) ∧
      (fl.kind = .grant → exec (.flitReceive link fl) s = .next (granted t link fl.tag)) ∧
      (fl.kind = .admission → exec (.flitReceive link fl) s = .next (admitReq t link fl.tag fl.bytes)) ∧
      (fl.kind = .data → ∃ u, exec (.flitReceive link fl) s = .next u ∧ (getLink u link).rxSeq = l.rxSeq + 1 ∧
        (getLink u link).sent = (true, fl.seq) :: l.sent)) ∧
    (l.up = true → fl.crcOk = true → fl.seq ≠ l.rxSeq →
      exec (.flitReceive link fl) s = .next (modLink s link (fun l => l.acked fl.ack))) ∧
    (l.up = false → exec (.negativeAcknowledgement link seq) s = .next s) ∧
    (l.up = true → (∃ q ∈ l.replay, q.seq.toNat = seq) → (∀ q ∈ l.replay, q.times = []) →
      ∃ t, exec (.negativeAcknowledgement link seq) s = .next t ∧ (getLink t link).up = true ∧
        (getLink t link).replay.map (·.seq) = l.replay.map (·.seq) ∧
        ∀ q ∈ l.replay.dropWhile (fun q => q.seq.toNat ≠ seq), { q with times := [s.clock] } ∈ (getLink t link).replay) ∧
    (l.up = true → exec (.linkFailed link) s = .next (failLink s link)) ∧
    (l.up = true → bytes ≤ 65536 →
      let t := modLink s link (fun l => { l with admitted := l.admitted ++ [(tag, bytes)] })
      (nextGrant t = none → exec (.admissionRequest link bytes tag) s = .next t) ∧
      (∀ i, nextGrant t = some i →
        exec (.admissionRequest link bytes tag) s = .next (grantAll (waitingGrants t - 1) (grantOne t i)))) ∧
    (∀ r, l.up = true → s.outs.find? (fun r => r.id = tag && r.link = link && !r.granted) = some r →
      ∃ t, exec (.admissionGrant link tag) s = .next t ∧ (∃ q ∈ t.outs, q.id = tag ∧ q.granted = true) ∧
        (∀ c, r.answer = some c → t.completion = some c) ∧
        (getLink t link) = l.enqueue (List.replicate (flitsOf r.bytes) tag)) ∧
    (∀ p pa n, let ls := linksTo s p.device p.epoch
      let us := unitsOf pa n
      let v := askAll (touchAll s us) ((List.range n).map (fun i => hbmKey (pa + i)))
      ls ≠ [] → (∀ q ∈ s.peerq, q.2.1 ≠ p) → inHbm pa n = true → lampHeld s (peerWho s.nextId) us = false →
      exec (.peerRequest p pa (.load n)) s =
        .next (respond v ls pa n
          (if (List.range n).any (fun i => poisonedAt v (hbmKey (pa + i)) 1) then .poisoned else .data (pocNat v (hbmKey pa) n)))) ∧
    (∀ p pa data, let ls := linksTo s p.device p.epoch
      let us := unitsOf pa data.length
      ls ≠ [] → (∀ q ∈ s.peerq, q.2.1 ≠ p) → inHbm pa data.length = true → lampHeld s (peerWho s.nextId) us = false →
      exec (.peerRequest p pa (.store data)) s =
        .next (respond (pocWrite (touchAll s us) ((List.range data.length).map (fun i => (hbmKey (pa + i), data.getD i 0))))
          ls pa 0 (.data 0))) ∧
    (∀ p pa op type data swap, let ls := linksTo s p.device p.epoch
      let n := atomBytes type
      let us := unitsOf pa n
      let key := hbmKey pa
      let t := askAll (touchAll s us) [key]
      let old : Word64 := BitVec.ofNat 64 (pocNat t key n)
      let done := putCells t (cellsOf key n (atomNew op type old data swap).toNat)
      ls ≠ [] → (∀ q ∈ s.peerq, q.2.1 ≠ p) → inHbm pa n = true → lampHeld s (peerWho s.nextId) us = false →
      (∀ d, s.dedup.find? (fun d => d.source = peerSource p) = some d → exec (.peerRequest p pa (.atomic op type data swap)) s =
        .next (respond (touchAll s us) ls pa n (.data ((d.olds.head?.map (fun o => o.2.toNat)).getD 0)))) ∧
      (s.dedup.find? (fun d => d.source = peerSource p) = none → dedupFree s (hubOf key) = 0 →
        exec (.peerRequest p pa (.atomic op type data swap)) s = .next (queued p pa (.atomic op type data swap) us)) ∧
      (s.dedup.find? (fun d => d.source = peerSource p) = none → 1 ≤ dedupFree s (hubOf key) → poisonedAt t key n = true →
        exec (.peerRequest p pa (.atomic op type data swap)) s = .next (respond t ls pa n .poisoned)) ∧
      (s.dedup.find? (fun d => d.source = peerSource p) = none → 1 ≤ dedupFree s (hubOf key) → poisonedAt t key n = false →
        exec (.peerRequest p pa (.atomic op type data swap)) s = .next (respond { done with
          dedup := done.dedup ++ [⟨done.nextId, hubOf key, peerSource p, [(0, old)]⟩], nextId := done.nextId + 1 }
          ls pa n (.data old.toNat)))) ∧
    (∀ p pa op, let us := unitsOf pa (peerBytes op)
      linksTo s p.device p.epoch ≠ [] → (∀ q ∈ s.peerq, q.2.1 ≠ p) → inHbm pa (peerBytes op) = true →
      lampHeld s (peerWho s.nextId) us = true → exec (.peerRequest p pa op) s = .next (queued p pa op us)) ∧
    (∀ p pa op, (∃ q ∈ s.peerq, q.2.1 = p) → exec (.peerRequest p pa op) s = .next s) ∧
    (link < 12 → exec (.linkTrain link peer epoch) s = .next (retirePeer (modLink (if l.up then failLink s link else s) link (fun l =>
      { Link.reset with up := true, peer := peer, epoch := epoch % 65536, served := l.served
                        announced := (if (getLink s link).up then failLink s link else s).epoch }))
      (fun dev e => dev = peer && e ≠ epoch % 65536)))

/-- The counting-house domain commands (15 R369, R370): RETAG changes the page's tag, once the harts' writes to it that it has
accepted are performed, zeroing the page when it leaves tag 1, SETHART the hart's domain, RELOAD the grants that the table holds,
READTAG reads; a page or an entry outside HBM is STATUS 1, a reserved bit STATUS 2; while BUSY a write is discarded, and
DOMCMD_COMPLETE ends BUSY. Reserved operations and the time of the effect are the model's readings (log 44). -/
def Obligations.DomainCommands : Prop :=
  ∀ (s : State) (v : Word64),
    let arg := bits v.toNat 8 8
    let u := { s with dom := { s.dom with cmd := v &&& 0xFFF00 } }
    let pg := s.dom.addr.toNat / 65536
    let a := s.dom.base.toNat / 16384 * 16384 + 64 * arg
    exec .domcmdComplete s = .next { s with dom := { s.dom with busy := false } } ∧
    (s.dom.busy = true → exec (.retag v) s = .next s ∧ exec (.sethart v) s = .next s ∧ exec (.domReload v) s = .next s ∧
      exec (.readtag v) s = .next s) ∧
    (s.dom.busy = false → v.toNat % 8 = 1 →
      (inHbm (65536 * pg) 65536 = false → exec (.retag v) s = .next (domStart u 1)) ∧
      (inHbm (65536 * pg) 65536 = true → exec (.retag v) s = .next
        (let f := flushPage u pg
         let w := if pageTag s (65536 * pg) = 1 ∧ arg ≠ 1 then zeroRange f (hbmKey (65536 * pg)) 65536 else f
         domStart { w with dom := { w.dom with tags := mput w.dom.tags pg arg 0 } } 0))) ∧
    (s.dom.busy = false → v.toNat % 8 = 2 → exec (.sethart v) s =
      .next (domStart { u with dom := { u.dom with harts := mput u.dom.harts (bits v.toNat 16 4) arg 0 } } 0)) ∧
    (s.dom.busy = false → v.toNat % 8 = 3 →
      (inHbm a 64 = false → exec (.domReload v) s = .next (domStart u 1)) ∧
      (inHbm a 64 = true → bits (physNat u a 64) 257 255 ≠ 0 → exec (.domReload v) s = .next (domStart u 2)) ∧
      (inHbm a 64 = true → bits (physNat u a 64) 257 255 = 0 → ∃ t, exec (.domReload v) s = .next t ∧ t.dom.status = 0 ∧
        t.dom.busy = true ∧ grantMask t arg = BitVec.ofNat 256 (if (physNat u a 64).testBit 256
          then bits (physNat u a 64) 0 256 / 4 * 4 else bits (physNat u a 64) 0 256))) ∧
    (s.dom.busy = false → v.toNat % 8 = 4 →
      (inHbm (65536 * pg) 65536 = true → exec (.readtag v) s =
        .next (domStart { u with dom := { u.dom with tag := BitVec.ofNat 8 (pageTag s (65536 * pg)) } } 0)) ∧
      (inHbm (65536 * pg) 65536 = false → exec (.readtag v) s = .next (domStart u 1)))

/-- The Bellows (16 R373 to R376, 07 R186): CAPW is kept within 1,200 W to 3,200 W and applied by firmware, or without firmware
by level 3 everywhere; a level held at 3 changes to no other; a droop halts its island until it recovers; a trip puts its
die's lane groups at level 3 in near-threshold operation; the watchdog restarts the firmware, which runs from a slot that holds a valid
image and from no other (R384). Islands, restart and the kept cap are the model's readings (log 41). -/
def Obligations.PowerEvents : Prop :=
  ∀ (s : State) (v : BitVec 16) (core lg level island die : Nat),
    let cap := max 1200 (min 3200 (bits v.toNat 0 12))
    (s.bellows.firmware = true → exec (.capw v) s = .next { s with bellows := { s.bellows with capw := cap, cap := cap } }) ∧
    (s.bellows.firmware = false → ∃ t, exec (.capw v) s = .next t ∧ t.bellows = { s.bellows with capw := cap, hwCap := true } ∧
      ∀ c l, c < 480 → l < 4 → (getLg t c l).plevel = 3) ∧
    (core < 480 → lg < 4 → level < 4 → (levelHeld s core = false ∨ level = 3) →
      exec (.plevelChange core lg level) s = .next (modLg s core lg (fun l => { l with plevel := level }))) ∧
    (levelHeld s core = true → level ≠ 3 → exec (.plevelChange core lg level) s = .next s) ∧
    (s.bellows.droops.contains island = false →
      exec (.supplyDroop island) s = .next { s with bellows := { s.bellows with droops := s.bellows.droops ++ [island] } }) ∧
    exec (.supplyRecover island) s = .next { s with bellows := { s.bellows with droops := s.bellows.droops.filter (· ≠ island) } } ∧
    (die < 4 → tripped s die = false → ∃ t, exec (.thermalTrip die) s = .next t ∧ tripped t die = true ∧
      ∀ c l, c < 480 → l < 4 → (dieOf c = die → (getLg t c l).plevel = 3 ∧ (getLg t c l).near = true) ∧
        (dieOf c ≠ die → getLg t c l = getLg s c l)) ∧
    (tripped s die = true → ∃ t, exec (.thermalTripEnd die) s = .next t ∧ tripped t die = false ∧
      ∀ c l, (getLg t c l).plevel = (getLg s c l).plevel) ∧
    (s.bellows.firmware = true →
      exec .bellowsWatchdogRestart s = .next (freeze { s with bellows := { s.bellows with firmware := false } } 4)) ∧
    (s.bellows.firmware = false → s.fw.boot ≠ 0 →
      let f := pickNewer s.fw
      (slotValid f (activeSlot f 0) = true → ∃ t, exec .bellowsWatchdogRestart s = .next t ∧ t.bellows.cap = s.bellows.capw ∧
        t.bellows.hwCap = false ∧ t.bellows.firmware = true ∧ t.fw = startImage f 0) ∧
      (slotValid f (activeSlot f 0) = false → exec .bellowsWatchdogRestart s = .next { s with fw := f }))

/-- Sampling, the observation registers and the firmware images (16 R377, R378, R384 to R391): a lane group's sample of 16 bytes
goes to the ring, once its pseudo-channel lets it, and the pointer moves on, the next being due N cycles after it was taken; SAMPCTL
keeps its least period and clears the pointer when sampling starts; HCLR, ICINV and UNFREEZE; an update is refused, or its staged
image written to the other slot, which becomes the active one; the evidence measures the ROM and both images. Samples and latencies
follow log 40, a failed update, an image beyond memory and what an image's version and measurement are logs 41 and 67, the model's
choices. -/
def Obligations.ObservationEvents : Prop :=
  ∀ (s : State) (core lg status version : Nat) (v : Word64),
    (s.obs.sampEn = true → core < 480 → lg < 4 → sampleDue s (4 * core + lg) = true → inHbm (sampleAddr s) 16 = true →
      s.obs.samples = [] →
      ∃ t, exec (.sampleWrite core lg) s = .next t ∧ mget t.obs.sampAt (4 * core + lg) = some (s.clock + s.obs.sampN) ∧
        (lampHeld s (sampleWho (4 * core + lg)) [hbmUnit (sampleAddr s)] = false → t.obs.sampPtr = s.obs.sampPtr + 16 ∧
          t.obs.samples = [] ∧ (nextSampled s core lg = none → pocNat t (hbmKey (sampleAddr s)) 16 = 22 * 2 ^ 64)) ∧
        (lampHeld s (sampleWho (4 * core + lg)) [hbmUnit (sampleAddr s)] = true → t.obs.sampPtr = s.obs.sampPtr ∧
          ∃ v, t.obs.samples = [⟨4 * core + lg, v, s.obs.sampBase, s.obs.sampLog⟩])) ∧
    ((s.obs.sampEn = false ∨ sampleDue s (4 * core + lg) = false) → exec (.sampleWrite core lg) s = .next s) ∧
    exec (.sampctlWrite v) s = .next { s with obs := { s.obs with
      sampN := max 256 (bits v.toNat 8 24), sampEn := v.getLsbD 0
      sampPtr := if v.getLsbD 0 = true ∧ s.obs.sampEn = false then 0 else s.obs.sampPtr
      sampAt := if v.getLsbD 0 = true ∧ s.obs.sampEn = false then [] else s.obs.sampAt
      sampFrom := if v.getLsbD 0 = true ∧ s.obs.sampEn = false then s.clock + max 256 (bits v.toNat 8 24) else s.obs.sampFrom } } ∧
    exec (.hclr v) s = .next { s with obs := { s.obs with
      hist := s.obs.hist.filter (fun p => !(p.1 / 16 < 15 && v.getLsbD (p.1 / 16))) } } ∧
    (∃ t, exec .icinv s = .next t ∧ (∀ k, (getCore t k).icache = []) ∧ (∀ k, k < 481 * 2 ^ 100 → readByte t.mem k = readByte s.mem k)) ∧
    exec .unfreeze s = .next { s with obs := { s.obs with frozen := false, fcause := 0 } } ∧
    (v.toNat % 4 = 1 → s.fw.busy = false → bits v.toNat 2 2 < 2 → s.fw.len ≤ 2 ^ 26 → s.fw.src.toNat + s.fw.len ≤ 2 ^ 39 →
      exec (.update v) s = .next { s with fw := { s.fw with image := bits v.toNat 2 2, busy := true } }) ∧
    (v.toNat % 4 = 1 → s.fw.busy = false → (2 ≤ bits v.toNat 2 2 ∨ 2 ^ 26 < s.fw.len ∨ 2 ^ 39 < s.fw.src.toNat + s.fw.len) →
      exec (.update v) s = .next { s with fw := { s.fw with image := bits v.toNat 2 2, status := 1 } }) ∧
    (s.fw.busy = true → status ≠ 2 → status ≠ 4 → exec (.firmwareUpdateDone status version) s = .next { writeSlot s false with
      fw := finishUpdate (writeSlot s false).fw (if stagedVersion s < s.fw.rollback then 3 else 0) (stagedVersion s) }) ∧
    (s.fw.busy = true → (status = 2 ∨ status = 4) → ∃ t, exec (.firmwareUpdateDone status version) s = .next t ∧
      t.fw.busy = false ∧ t.fw.status = BitVec.ofNat 4 status ∧ otherSlot s.fw s.fw.image ∈ t.fw.bad) ∧
    (let images := [0, 1].map (fun i => Config.imageMeasure (mgetD s.fw.lens (activeSlot s.fw i) 0) (slotImage s (activeSlot s.fw i)))
     exec .getMeasurements s = .next { s with fw := { s.fw with evidence := some ⟨Config.romMeasure, images, s.fw.vers, s.fw.rollback,
       (s.tdis.filter (fun p => p.2.state ≠ .unlocked)).map (fun p => (p.1, p.2.entry))⟩ } })

/-- START, RESTORE, CHECKPOINT_DONE and the resets (16 R381, R382, R390): a command with a bad destination ends with ERR 1; a START
stops every resident workgroup, into its context's image area or else into the checkpoint's, and ends with ERR 2 where neither has
room; a RESTORE begun stops placement and its end puts the tier's bytes back; a copy over link windows moves block by block; a reset
leaves every register at its reset value, the lamps DARK, no region, no workgroup, and nothing in HBM, bring-up before its first
step and the link epoch one higher, and the PCIe fundamental reset leaves the error counters. The tier and what survives a reset are
the model's readings (logs 42 and 45). -/
def Obligations.CheckpointAndResetEvents : Prop :=
  ∀ (s : State),
    (s.ckpt.busy ≠ 0 → exec .start s = .next s ∧ exec .restore s = .next s) ∧
    (s.ckpt.busy = 0 → ckptBad s = true → exec .start s = .next (ckptEnd s 1 0) ∧ exec .restore s = .next (ckptEnd s 1 0)) ∧
    (s.ckpt.busy = 0 → ckptBad s = false → exec .restore s =
      .next { s with ckpt := { s.ckpt with busy := 2, stopped := true, err := 0, mib := 0, blocks := 0 } }) ∧
    (s.ckpt.busy = 0 → ckptBad s = false →
      let t := { s with ckpt := { s.ckpt with busy := 1, stopped := true, err := 0, mib := 0, blocks := 0 } }
      exec .start s = .next (ckptStopAll t) ∧ (s.wgs = [] → exec .start s = .next t) ∧
      ∀ g x, s.wgs = [(g, x)] → wgSet t g = [g] → x.status = .resident →
        (freeImageBlocks t x.asid 1 ≠ [] → exec .start s = .next (stopWg t false g)) ∧
        (∀ j, freeImageBlocks t x.asid 1 = [] → freeCkptBlock t = some j →
          exec .start s = .next (modWg (stopWg t false g) g (fun y => { y with ckptBlock := some j }))) ∧
        (freeImageBlocks t x.asid 1 = [] → freeCkptBlock t = none → exec .start s = .next (ckptEnd t 2 0))) ∧
    (s.ckpt.busy = 1 → s.wgs = [] → blocksLeft s = false → exec .checkpointDone s = .next (ckptCopy s)) ∧
    (s.ckpt.busy = 1 → copying (ckptStopAll s) = true → let t := ckptStopAll s
      (blocksLeft t = false → exec .checkpointDone s = .next (ckptCopy t)) ∧
      (blocksLeft t = true → exec .checkpointDone s = .next (moveBlock t))) ∧
    (s.ckpt.busy = 1 → copying (ckptStopAll s) = false → exec .checkpointDone s = .next (ckptStopAll s)) ∧
    (s.ckpt.busy = 2 → (blocksLeft s = false → exec .checkpointDone s = .next (ckptReturn s)) ∧
      (blocksLeft s = true → exec .checkpointDone s = .next (moveBlock s))) ∧
    (∃ t, exec .powerOnReset s = .next t ∧ t.wgs = [] ∧ t.warps = [] ∧ t.regions = [] ∧ t.contexts = [] ∧ t.tlb = [] ∧ t.lamps = [] ∧
      t.vaultOwner = [] ∧ t.notify = [] ∧ t.pairs = [] ∧ t.host = HostRegs.reset ∧ t.tdis = [] ∧ t.links = [] ∧ t.dom = Dom.reset ∧
      t.obs = Obs.reset ∧ t.clock = 0 ∧ t.epoch = s.epoch + 1 ∧ t.bellows.firmware = false ∧ t.fw.boot = 0 ∧ t.fw.house = false ∧
      t.posted = [] ∧ t.outs = [] ∧ (∀ k, k < 2 ^ 65 → readByte t.mem k = 0)) ∧
    (∃ t, exec .pcieFundamentalReset s = .next t ∧ t.wgs = [] ∧ t.regions = [] ∧ t.host = HostRegs.reset ∧
      t.obs = { Obs.reset with cecc := s.obs.cecc, ctrans := s.obs.ctrans, lreplay := s.obs.lreplay, dbdrop := s.obs.dbdrop,
                               ddretire := s.obs.ddretire } ∧ (∀ k, k < 2 ^ 65 → readByte t.mem k = 0))
/-- The worked encodings of 02 R24 and of the entries of 03 to 14 decode to the instructions that they stand for: IADD, FFMA, BRX
with its extension word, LD, and SADD of a bundle's scalar slot, LW.LD of its engine slot, XMOV of a lane slot. -/
def Obligations.DecodeWorkedWords : Prop :=
  decodeTableWord 64 0x0400303006408000 = some (.iadd ⟨false, false, 3, 3, 0, 0x64, 0, 0x8000, 0⟩) ∧
    decodeTableWord 64 0x0830C04050CB0008 = some (.ffma ⟨false, false, 12, 4, 5, 12, 11, 0x0008, 0⟩) ∧
    decodeTableWord 128 (0x4030A02000000001 + 0x4800000040 * 2 ^ 64) =
      some (.brx ⟨false, true, 10, 2, 0, 0, 0, 1, 0x4800000040⟩) ∧
    decodeTableWord 128 (0x5400A08060000020 + 0x200000010 * 2 ^ 64) =
      some (.ld ⟨false, true, 10, 8, 6, 0, 0, 0x20, 0x200000010⟩) ∧
    decodeScalar 0x0010404004 = ⟨0x00, 2, 2, 0, true, 4⟩ ∧ decodeEngine 0x06420204 = ⟨1, true, 1, 2, 0, 0x20, 4⟩ ∧
    decodeLane 0x0DD43043 = ⟨0x37, 5, 3, 1, 3⟩

/-- The opcodes that 02 R31 does not list decode to no instruction: 0x000, every reserved opcode, and the emulation range
0x380 to 0x3BF, which decodes as such (02 R32). -/
def Obligations.ReservedWordsRefused : Prop :=
  ∀ (w ext : Word64), (∀ op : Op, op.code ≠ wordOp w) →
    decodeWord w ext = if 0x380 ≤ wordOp w ∧ wordOp w ≤ 0x3BF then .emulate else .reserved

/-- Decoding an encoded instruction of the warp word gives it back, with every field at every value (02 R24, R31): the bytes
decode to the instruction and leave the bytes that follow. -/
def Obligations.EncodeDecodeWord : Prop :=
  ∀ (op : Op) (f : WarpWord) (rest : List Byte), f.wellFormed op = true →
    ∃ bs, encode (op.instr f) = some bs ∧ bs.length = (if f.l then 16 else 8) ∧
      decodeBytes (bs ++ rest) = (.instr (op.instr f), rest)

/-- Decoding an encoded bundle gives it back, with every slot's field at every value (02 R35 to R43), and every bundle of
1,024 bits encodes as what it was decoded from. -/
def Obligations.EncodeDecodeBundle : Prop :=
  (∀ b : Bundle, b.wellFormed = true → decodeBundle (encodeBundle b) = b) ∧
    ∀ v : BitVec 1024, encodeBundle (decodeBundle v) = v ∧ (decodeBundle v).wellFormed = true

/-- A step runs the decoded instruction (02 R23, R33, 04 R97): in the issue slot of a lane group whose first fragment in the
scheduler's order has no trap due, whose workgroup is not stopping and whose word at PC decodes, the step is exec of the
instruction there, with its exchange results given the cycle in which they are written (11 R278), the fragments that were eligible grown
older and the scheduler's last recorded (log 3); a long-word thread's step is exec of the bundle at its PC; a step of another agent is
exec of its event. -/
def Obligations.StepRunsDecoded : Prop :=
  (∀ (s : State) (n core lg : Nat) (rest : List Turn) (cd : Cand) (cs : List Cand) (x : Wg) (p : Warp),
    let u0 := tick n { s with sched := rest }
    let u := modLg u0 core lg (fun l => { l with yielded := none })
    let v : State := { (if x.phase ≤ 4 then leaveNear u x.core p.lg else u) with issuer := some cd.i }
    let after := fun (r : State) => modLg ((cs.filter (eligible u)).foldl growOlder r) core lg
      (fun l => { l with last := some (cd.key, cd.i.e), lastAt := some ((cs.filter (eligible u)).foldl growOlder r).clock })
    s.sched = .issue n core lg :: rest → hasSlot u0 core lg = true →
    tryOrder u core lg (getLg u0 core lg).yielded = cd :: cs → getWg u cd.i.g = some x → getWarp u cd.i.g cd.i.w = some p →
    p.due = none →
    (∀ k w t i op f, (p.lw = none ∨ p.bank.isSome = true) → boundaryTrap v cd.i.g cd.i.w cd.i.e = none → x.stopped = false →
      (p.bank.isSome = true ∨ ∀ fr, mget p.frags cd.i.e = some fr → headsQueue v cd.i.g cd.i.w x fr.state = false) →
      ctxOf v cd.i 0 = some k → fetchWord v x (warpKey cd.i.g cd.i.w) k.pc.toNat = .ok w t →
      decodeWord (BitVec.ofNat 64 w) (BitVec.ofNat 64 (w / 2 ^ 64)) = .instr i → i.word? = some (op, f) →
      let lgOf := ((getWarp t cd.i.g cd.i.w).map (·.lg)).getD 0
      let cycles := if inNear t (coreOf t cd.i.g) lgOf then 2 * latency op f else latency op f
      (∀ r, exec i t = .next r → r.issuer = none → step s = .next (after (xissue r cycles))) ∧
        (∀ e, exec i t = .fault e → step s = .fault e) ∧ (∀ e, exec i t = .refused e → step s = .refused e)) ∧
    (∀ k w t, p.lw.isSome = true → p.bank = none → (x.stopped && atBoundary v cd.i.g cd.i.w) = false →
      lwCtxOf v cd.i = some k → lwBoundary v k = none →
      fetchBundle v x (warpKey cd.i.g cd.i.w) k.lw.pc.toNat = .ok w t →
      (∀ r, exec (.bundleIssue (decodeBundle (BitVec.ofNat 1024 w))) t = .next r → r.issuer = none → step s = .next (after r)) ∧
        (∀ e, exec (.bundleIssue (decodeBundle (BitVec.ofNat 1024 w))) t = .fault e → step s = .fault e))) ∧
    ∀ (s : State) (n : Nat) (i : Instr) (rest : List Turn), s.sched = .event n i :: rest →
      step s = exec i { tick n { s with sched := rest } with issuer := none }

/-- Every step keeps memory in its canonical form: addresses strictly rising and no byte equal to what an unlisted
address reads as (log 1: the model's form of memory). -/
def Obligations.StepKeepsMemoryForm : Prop :=
  ∀ s t : State, memoryForm s → step s = .next t → memoryForm t

/-- The machine right after power-on reset (16 R382): every lamp unit DARK, every TDI in CONFIG_UNLOCKED, every region inactive,
no workgroup, no warp, every licence UNOWNED on the floor side, the registers at their reset values, and memory in its
canonical form with nothing listed. That memory reads 0, and registers without a stated reset value, are the model's choice
(logs 1, 2 and 48). -/
def Obligations.ResetState : Prop :=
  (∀ u, lampOf State.reset u = .dark) ∧ (∀ t, (getTdi State.reset t).state = .unlocked) ∧ (∀ n, mget State.reset.regions n = none) ∧
    (∀ g, getWg State.reset g = none) ∧ (∀ g w, getWarp State.reset g w = none) ∧ (∀ p, (getPair State.reset p).lic = .unowned 0) ∧
    (∀ c l, getLg State.reset c l = Lg.empty) ∧ (∀ i, (getLink State.reset i).up = false) ∧ State.reset.clock = 0 ∧
    State.reset.obs.sampN = 4096 ∧ State.reset.obs.sampEn = false ∧ State.reset.obs.dbgen = false ∧
    State.reset.bellows.hbmCold = 65536 ∧ State.reset.spdm = false ∧ State.reset.host.rcmdBusy = false ∧
    memoryForm State.reset ∧ ∀ k, readByte State.reset.mem k = 0

/-- Registers (02 R25 to R28, 04 R88, 14 R328): a vector register below v240, an s-register and a mask register read what was
last written, s0 reads zero and m0 all ones and neither takes a write, a write leaves every other register alone, and at
trap level 1 v232 to v239 and s56 to s63 are the banked ones. -/
def Obligations.RegisterReadsAndWrites : Prop :=
  ∀ (x : Warp) (n m i j : Nat) (v : Word32) (d : Word64) (k : Lanes), i < 32 → j < 32 →
    (x.setVreg n i v).vreg n i = v ∧ ((n, i) ≠ (m, j) → (x.setVreg n i v).vreg m j = x.vreg m j) ∧
    x.sreg 0 = 0 ∧ x.setSreg 0 d = x ∧ (n ≠ 0 → (x.setSreg n d).sreg n = d) ∧ (n ≠ m → (x.setSreg n d).sreg m = x.sreg m) ∧
    x.mreg 0 = 0xFFFFFFFF ∧ x.setMreg 0 k = x ∧ (n ≠ 0 → (x.setMreg n k).mreg n = k) ∧ (n ≠ m → (x.setMreg n k).mreg m = x.mreg m) ∧
    (∀ b, x.bank = some b → 232 ≤ n → n < 240 → (x.setVreg n i v).vregs = x.vregs) ∧
    (∀ b, x.bank = some b → 56 ≤ n → (x.setSreg n d).sregs = x.sregs)

/-- The frame of the arithmetic, mask, cross-lane and reading classes (02 R28, 03 R75, R78, 05 R117, R137): an instruction that
issues with nothing before it (a BAR.QUERY in its turn, 08 R228) writes its destination registers in the lanes of P, its s-register
or its mask register and nothing else; SF is SCMP's; FPSTAT and SEED are the floating class's, FPSTAT only gaining flags and SEED
only in P; every byte of memory and every other warp, core, workgroup and device register stays. -/
def Obligations.RegisterClassFrame : Prop :=
  ∀ (op : Op) (f : WarpWord) (s : State) (c : Ctx), op ∈ intOps ++ fltOps ++ scaOps ++ maskOps → Ready op f s c →
    (op = .barQuery → barTurn s c.g c.w = true) →
    ∃ t x, exec (op.instr f) s = .next t ∧ t.issuer = none ∧ getWarp t c.g c.w = some x ∧ sameMemory s t ∧
      onlyWarp s t c.g c.w c.wg.core ∧
      warpFrame c.warp x (fun n i => n ∈ writeVecs op f ∧ c.p.getLsbD i = true)
        (fun n => n ∈ fldSregs (shape op f).dst f.dst false) (masksWritten op f) ∧
      (op ≠ .barQuery → t.marks = s.marks) ∧ (op ≠ .scmp → x.sf = c.warp.sf) ∧ x.fpstat &&& c.warp.fpstat = c.warp.fpstat ∧ (op ∉ fltOps → x.fpstat = c.warp.fpstat) ∧
      (∀ i, i < 32 → (op ∉ fltOps ∨ c.p.getLsbD i = false) → x.seed i = c.warp.seed i)

/-- The frame of the memory class (07 R193, R194, 05 R138, 08 R211, R233): outside a bank-lock span of its own warp a load, or a
store that has not waited for a lamp unit (which is performed in its turn there, 07 R180), changes at issue no register and no byte
at any point of coherence; inside one a store performs what the warp has issued on the scratchpad, and so changes only bytes that
pending accesses or its own lanes write; and performing a store writes exactly its bytes, in their order, at their points of
coherence. A byte of host memory that a slice holds is spoken of where the slice's replacing its line moves nothing (`steady`), and only
lines that bus addresses of 64 bits name are held. The split into issue and performance is the model's (log 5). -/
def Obligations.StoreAndLoadFrame : Prop :=
  (∀ (op : Op) (f : WarpWord) (s : State) (c : Ctx) (ps : List Place),
    let sp := spaceCode f
    let n := if op = .ld ∨ op = .st then accessBytes f else 2 ^ modBits f 0 2
    let ls := if op = .ld ∨ op = .st then laneAddrs s c f sp else scaAddr c f op
    let need := if op = .ld ∨ op = .sld then Need.read else Need.write
    op ∈ [Op.ld, .st, .sld, .sst] → Ready op f s c → Memory.wf s.mem = true → checkLanes s c.agent sp n need false ls = .ok ps →
    (op = .st → modBits f 6 2 = 2 → laneRelease s c.g c.w (modBits f 8 3) c.p = true) →
    (op = .ld → modBits f 6 2 = 1 → acqReady s c c.p ps = true) → (op = .ld ∨ op = .st → c.p ≠ 0) →
    (op = .sld → ∀ p ∈ ps, ∀ b, p.key = some b → warpAtomMeets s c.g c.w b p.bytes = false) → (∀ p ∈ s.hostLines, p.1 < 2 ^ 57) →
    (op = .ld ∨ op = .sld ∨ (ownSpan s c.wg.core c.g c.w = false ∧ ∀ q ∈ s.lampq, q.who ≠ c.agent.q) →
      ∃ t x, exec (op.instr f) s = .next t ∧ getWarp t c.g c.w = some x ∧
        warpFrame c.warp x (fun _ _ => False) (fun _ => False) (fun _ => False) ∧ x.fpstat = c.warp.fpstat ∧ x.sf = c.warp.sf ∧
        ∀ k, k < 2 ^ 100 → busKey k → steady s k → pocByte t k = pocByte s k) ∧
    (op = .st ∨ op = .sst → ownSpan s c.wg.core c.g c.w = true → (∀ q ∈ s.lampq, q.who ≠ c.agent.q) →
      ∃ t, exec (op.instr f) s = .next t ∧ ∀ k, k < 2 ^ 65 →
        (∀ e ∈ s.stores, ∀ x ∈ e.cells, x.1 ≠ k) → (∀ a ∈ s.atoms, ¬ (a.key ≤ k ∧ k < a.key + atomBytes a.type)) →
        (∀ p b, p ∈ ps → p.key = some b → ¬ (b ≤ k ∧ k < b + n)) → pocByte t k = pocByte s k)) ∧
    ∀ (s : State) (e : Store) (k : Nat), Memory.wf s.mem = true → e.kind = .st → k < 2 ^ 100 → (∀ c ∈ e.cells, c.1 < 2 ^ 100 ∧ busKey c.1) →
      (∀ p ∈ s.hostLines, p.1 < 2 ^ 57) → busKey k → steady s k → noAlias k e.cells →
      pocByte (performStore s e) k = e.cells.foldl (fun b c => if c.1 = k then c.2 else b) (pocByte s k)
end

