-- ==== Sys2Proof/Laws/State.lean ====
section
/-!
SUPPORT. What each named update of State leaves as it was, field by field.
-/

namespace Sys2Proof.Machine

/-! ### setWg -/

@[simp] theorem setWg_sched (s : State) (g : Nat) (x : Wg) : (setWg s g x).sched = s.sched := rfl
@[simp] theorem setWg_issuer (s : State) (g : Nat) (x : Wg) : (setWg s g x).issuer = s.issuer := rfl
@[simp] theorem setWg_freeCtr (s : State) (g : Nat) (x : Wg) : (setWg s g x).freeCtr = s.freeCtr := rfl
@[simp] theorem setWg_nextId (s : State) (g : Nat) (x : Wg) : (setWg s g x).nextId = s.nextId := rfl
@[simp] theorem setWg_clock (s : State) (g : Nat) (x : Wg) : (setWg s g x).clock = s.clock := rfl
@[simp] theorem setWg_mem (s : State) (g : Nat) (x : Wg) : (setWg s g x).mem = s.mem := rfl
@[simp] theorem setWg_poison (s : State) (g : Nat) (x : Wg) : (setWg s g x).poison = s.poison := rfl
@[simp] theorem setWg_hostLines (s : State) (g : Nat) (x : Wg) : (setWg s g x).hostLines = s.hostLines := rfl
@[simp] theorem setWg_loads (s : State) (g : Nat) (x : Wg) : (setWg s g x).loads = s.loads := rfl
@[simp] theorem setWg_stores (s : State) (g : Nat) (x : Wg) : (setWg s g x).stores = s.stores := rfl
@[simp] theorem setWg_atoms (s : State) (g : Nat) (x : Wg) : (setWg s g x).atoms = s.atoms := rfl
@[simp] theorem setWg_dedup (s : State) (g : Nat) (x : Wg) : (setWg s g x).dedup = s.dedup := rfl
@[simp] theorem setWg_tlb (s : State) (g : Nat) (x : Wg) : (setWg s g x).tlb = s.tlb := rfl
@[simp] theorem setWg_walks (s : State) (g : Nat) (x : Wg) : (setWg s g x).walks = s.walks := rfl
@[simp] theorem setWg_contexts (s : State) (g : Nat) (x : Wg) : (setWg s g x).contexts = s.contexts := rfl
@[simp] theorem setWg_regions (s : State) (g : Nat) (x : Wg) : (setWg s g x).regions = s.regions := rfl
@[simp] theorem setWg_warps (s : State) (g : Nat) (x : Wg) : (setWg s g x).warps = s.warps := rfl
@[simp] theorem setWg_cores (s : State) (g : Nat) (x : Wg) : (setWg s g x).cores = s.cores := rfl
@[simp] theorem setWg_lgs (s : State) (g : Nat) (x : Wg) : (setWg s g x).lgs = s.lgs := rfl
@[simp] theorem setWg_pairs (s : State) (g : Nat) (x : Wg) : (setWg s g x).pairs = s.pairs := rfl
@[simp] theorem setWg_copies (s : State) (g : Nat) (x : Wg) : (setWg s g x).copies = s.copies := rfl
@[simp] theorem setWg_anvs (s : State) (g : Nat) (x : Wg) : (setWg s g x).anvs = s.anvs := rfl
@[simp] theorem setWg_lamps (s : State) (g : Nat) (x : Wg) : (setWg s g x).lamps = s.lamps := rfl
@[simp] theorem setWg_vaultOwner (s : State) (g : Nat) (x : Wg) : (setWg s g x).vaultOwner = s.vaultOwner := rfl
@[simp] theorem setWg_notify (s : State) (g : Nat) (x : Wg) : (setWg s g x).notify = s.notify := rfl
@[simp] theorem setWg_recSeq (s : State) (g : Nat) (x : Wg) : (setWg s g x).recSeq = s.recSeq := rfl
@[simp] theorem setWg_placed (s : State) (g : Nat) (x : Wg) : (setWg s g x).placed = s.placed := rfl
@[simp] theorem setWg_faultStores (s : State) (g : Nat) (x : Wg) : (setWg s g x).faultStores = s.faultStores := rfl
@[simp] theorem setWg_host (s : State) (g : Nat) (x : Wg) : (setWg s g x).host = s.host := rfl
@[simp] theorem setWg_bells (s : State) (g : Nat) (x : Wg) : (setWg s g x).bells = s.bells := rfl
@[simp] theorem setWg_rings (s : State) (g : Nat) (x : Wg) : (setWg s g x).rings = s.rings := rfl
@[simp] theorem setWg_tdis (s : State) (g : Nat) (x : Wg) : (setWg s g x).tdis = s.tdis := rfl
@[simp] theorem setWg_spdm (s : State) (g : Nat) (x : Wg) : (setWg s g x).spdm = s.spdm := rfl
@[simp] theorem setWg_spdmBeat (s : State) (g : Nat) (x : Wg) : (setWg s g x).spdmBeat = s.spdmBeat := rfl
@[simp] theorem setWg_links (s : State) (g : Nat) (x : Wg) : (setWg s g x).links = s.links := rfl
@[simp] theorem setWg_windows (s : State) (g : Nat) (x : Wg) : (setWg s g x).windows = s.windows := rfl
@[simp] theorem setWg_dom (s : State) (g : Nat) (x : Wg) : (setWg s g x).dom = s.dom := rfl
@[simp] theorem setWg_bellows (s : State) (g : Nat) (x : Wg) : (setWg s g x).bellows = s.bellows := rfl
@[simp] theorem setWg_obs (s : State) (g : Nat) (x : Wg) : (setWg s g x).obs = s.obs := rfl
@[simp] theorem setWg_ckpt (s : State) (g : Nat) (x : Wg) : (setWg s g x).ckpt = s.ckpt := rfl
@[simp] theorem setWg_fw (s : State) (g : Nat) (x : Wg) : (setWg s g x).fw = s.fw := rfl
@[simp] theorem setWg_msix (s : State) (g : Nat) (x : Wg) : (setWg s g x).msix = s.msix := rfl
@[simp] theorem setWg_completion (s : State) (g : Nat) (x : Wg) : (setWg s g x).completion = s.completion := rfl
@[simp] theorem setWg_gated (s : State) (g : Nat) (x : Wg) : (setWg s g x).gated = s.gated := rfl
@[simp] theorem setWg_marks (s : State) (g : Nat) (x : Wg) : (setWg s g x).marks = s.marks := rfl
@[simp] theorem setWg_msc (s : State) (g : Nat) (x : Wg) : (setWg s g x).msc = s.msc := rfl
@[simp] theorem setWg_lampq (s : State) (g : Nat) (x : Wg) : (setWg s g x).lampq = s.lampq := rfl
@[simp] theorem setWg_hostLow (s : State) (g : Nat) (x : Wg) : (setWg s g x).hostLow = s.hostLow := rfl
@[simp] theorem setWg_regrant (s : State) (g : Nat) (x : Wg) : (setWg s g x).regrant = s.regrant := rfl
@[simp] theorem setWg_peerq (s : State) (g : Nat) (x : Wg) : (setWg s g x).peerq = s.peerq := rfl
@[simp] theorem setWg_saw (s : State) (g : Nat) (x : Wg) : (setWg s g x).saw = s.saw := rfl
@[simp] theorem setWg_atsPages (s : State) (g : Nat) (x : Wg) : (setWg s g x).atsPages = s.atsPages := rfl
@[simp] theorem setWg_xpend (s : State) (g : Nat) (x : Wg) : (setWg s g x).xpend = s.xpend := rfl
@[simp] theorem setWg_outs (s : State) (g : Nat) (x : Wg) : (setWg s g x).outs = s.outs := rfl
@[simp] theorem setWg_epoch (s : State) (g : Nat) (x : Wg) : (setWg s g x).epoch = s.epoch := rfl
@[simp] theorem setWg_atsInvs (s : State) (g : Nat) (x : Wg) : (setWg s g x).atsInvs = s.atsInvs := rfl
@[simp] theorem setWg_posted (s : State) (g : Nat) (x : Wg) : (setWg s g x).posted = s.posted := rfl
@[simp] theorem setWg_hartRes (s : State) (g : Nat) (x : Wg) : (setWg s g x).hartRes = s.hartRes := rfl
@[simp] theorem setWg_windowsSeen (s : State) (g : Nat) (x : Wg) : (setWg s g x).windowsSeen = s.windowsSeen := rfl

/-! ### setWarp -/

@[simp] theorem setWarp_sched (s : State) (g w : Nat) (x : Warp) : (setWarp s g w x).sched = s.sched := rfl
@[simp] theorem setWarp_issuer (s : State) (g w : Nat) (x : Warp) : (setWarp s g w x).issuer = s.issuer := rfl
@[simp] theorem setWarp_freeCtr (s : State) (g w : Nat) (x : Warp) : (setWarp s g w x).freeCtr = s.freeCtr := rfl
@[simp] theorem setWarp_nextId (s : State) (g w : Nat) (x : Warp) : (setWarp s g w x).nextId = s.nextId := rfl
@[simp] theorem setWarp_clock (s : State) (g w : Nat) (x : Warp) : (setWarp s g w x).clock = s.clock := rfl
@[simp] theorem setWarp_mem (s : State) (g w : Nat) (x : Warp) : (setWarp s g w x).mem = s.mem := rfl
@[simp] theorem setWarp_poison (s : State) (g w : Nat) (x : Warp) : (setWarp s g w x).poison = s.poison := rfl
@[simp] theorem setWarp_hostLines (s : State) (g w : Nat) (x : Warp) : (setWarp s g w x).hostLines = s.hostLines := rfl
@[simp] theorem setWarp_loads (s : State) (g w : Nat) (x : Warp) : (setWarp s g w x).loads = s.loads := rfl
@[simp] theorem setWarp_stores (s : State) (g w : Nat) (x : Warp) : (setWarp s g w x).stores = s.stores := rfl
@[simp] theorem setWarp_atoms (s : State) (g w : Nat) (x : Warp) : (setWarp s g w x).atoms = s.atoms := rfl
@[simp] theorem setWarp_dedup (s : State) (g w : Nat) (x : Warp) : (setWarp s g w x).dedup = s.dedup := rfl
@[simp] theorem setWarp_tlb (s : State) (g w : Nat) (x : Warp) : (setWarp s g w x).tlb = s.tlb := rfl
@[simp] theorem setWarp_walks (s : State) (g w : Nat) (x : Warp) : (setWarp s g w x).walks = s.walks := rfl
@[simp] theorem setWarp_contexts (s : State) (g w : Nat) (x : Warp) : (setWarp s g w x).contexts = s.contexts := rfl
@[simp] theorem setWarp_regions (s : State) (g w : Nat) (x : Warp) : (setWarp s g w x).regions = s.regions := rfl
@[simp] theorem setWarp_wgs (s : State) (g w : Nat) (x : Warp) : (setWarp s g w x).wgs = s.wgs := rfl
@[simp] theorem setWarp_cores (s : State) (g w : Nat) (x : Warp) : (setWarp s g w x).cores = s.cores := rfl
@[simp] theorem setWarp_lgs (s : State) (g w : Nat) (x : Warp) : (setWarp s g w x).lgs = s.lgs := rfl
@[simp] theorem setWarp_pairs (s : State) (g w : Nat) (x : Warp) : (setWarp s g w x).pairs = s.pairs := rfl
@[simp] theorem setWarp_copies (s : State) (g w : Nat) (x : Warp) : (setWarp s g w x).copies = s.copies := rfl
@[simp] theorem setWarp_anvs (s : State) (g w : Nat) (x : Warp) : (setWarp s g w x).anvs = s.anvs := rfl
@[simp] theorem setWarp_lamps (s : State) (g w : Nat) (x : Warp) : (setWarp s g w x).lamps = s.lamps := rfl
@[simp] theorem setWarp_vaultOwner (s : State) (g w : Nat) (x : Warp) : (setWarp s g w x).vaultOwner = s.vaultOwner := rfl
@[simp] theorem setWarp_notify (s : State) (g w : Nat) (x : Warp) : (setWarp s g w x).notify = s.notify := rfl
@[simp] theorem setWarp_recSeq (s : State) (g w : Nat) (x : Warp) : (setWarp s g w x).recSeq = s.recSeq := rfl
@[simp] theorem setWarp_placed (s : State) (g w : Nat) (x : Warp) : (setWarp s g w x).placed = s.placed := rfl
@[simp] theorem setWarp_faultStores (s : State) (g w : Nat) (x : Warp) : (setWarp s g w x).faultStores = s.faultStores := rfl
@[simp] theorem setWarp_host (s : State) (g w : Nat) (x : Warp) : (setWarp s g w x).host = s.host := rfl
@[simp] theorem setWarp_bells (s : State) (g w : Nat) (x : Warp) : (setWarp s g w x).bells = s.bells := rfl
@[simp] theorem setWarp_rings (s : State) (g w : Nat) (x : Warp) : (setWarp s g w x).rings = s.rings := rfl
@[simp] theorem setWarp_tdis (s : State) (g w : Nat) (x : Warp) : (setWarp s g w x).tdis = s.tdis := rfl
@[simp] theorem setWarp_spdm (s : State) (g w : Nat) (x : Warp) : (setWarp s g w x).spdm = s.spdm := rfl
@[simp] theorem setWarp_spdmBeat (s : State) (g w : Nat) (x : Warp) : (setWarp s g w x).spdmBeat = s.spdmBeat := rfl
@[simp] theorem setWarp_links (s : State) (g w : Nat) (x : Warp) : (setWarp s g w x).links = s.links := rfl
@[simp] theorem setWarp_windows (s : State) (g w : Nat) (x : Warp) : (setWarp s g w x).windows = s.windows := rfl
@[simp] theorem setWarp_dom (s : State) (g w : Nat) (x : Warp) : (setWarp s g w x).dom = s.dom := rfl
@[simp] theorem setWarp_bellows (s : State) (g w : Nat) (x : Warp) : (setWarp s g w x).bellows = s.bellows := rfl
@[simp] theorem setWarp_obs (s : State) (g w : Nat) (x : Warp) : (setWarp s g w x).obs = s.obs := rfl
@[simp] theorem setWarp_ckpt (s : State) (g w : Nat) (x : Warp) : (setWarp s g w x).ckpt = s.ckpt := rfl
@[simp] theorem setWarp_fw (s : State) (g w : Nat) (x : Warp) : (setWarp s g w x).fw = s.fw := rfl
@[simp] theorem setWarp_msix (s : State) (g w : Nat) (x : Warp) : (setWarp s g w x).msix = s.msix := rfl
@[simp] theorem setWarp_completion (s : State) (g w : Nat) (x : Warp) : (setWarp s g w x).completion = s.completion := rfl
@[simp] theorem setWarp_gated (s : State) (g w : Nat) (x : Warp) : (setWarp s g w x).gated = s.gated := rfl
@[simp] theorem setWarp_marks (s : State) (g w : Nat) (x : Warp) : (setWarp s g w x).marks = s.marks := rfl
@[simp] theorem setWarp_msc (s : State) (g w : Nat) (x : Warp) : (setWarp s g w x).msc = s.msc := rfl
@[simp] theorem setWarp_lampq (s : State) (g w : Nat) (x : Warp) : (setWarp s g w x).lampq = s.lampq := rfl
@[simp] theorem setWarp_hostLow (s : State) (g w : Nat) (x : Warp) : (setWarp s g w x).hostLow = s.hostLow := rfl
@[simp] theorem setWarp_regrant (s : State) (g w : Nat) (x : Warp) : (setWarp s g w x).regrant = s.regrant := rfl
@[simp] theorem setWarp_peerq (s : State) (g w : Nat) (x : Warp) : (setWarp s g w x).peerq = s.peerq := rfl
@[simp] theorem setWarp_saw (s : State) (g w : Nat) (x : Warp) : (setWarp s g w x).saw = s.saw := rfl
@[simp] theorem setWarp_atsPages (s : State) (g w : Nat) (x : Warp) : (setWarp s g w x).atsPages = s.atsPages := rfl
@[simp] theorem setWarp_xpend (s : State) (g w : Nat) (x : Warp) : (setWarp s g w x).xpend = s.xpend := rfl
@[simp] theorem setWarp_outs (s : State) (g w : Nat) (x : Warp) : (setWarp s g w x).outs = s.outs := rfl
@[simp] theorem setWarp_epoch (s : State) (g w : Nat) (x : Warp) : (setWarp s g w x).epoch = s.epoch := rfl
@[simp] theorem setWarp_atsInvs (s : State) (g w : Nat) (x : Warp) : (setWarp s g w x).atsInvs = s.atsInvs := rfl
@[simp] theorem setWarp_posted (s : State) (g w : Nat) (x : Warp) : (setWarp s g w x).posted = s.posted := rfl
@[simp] theorem setWarp_hartRes (s : State) (g w : Nat) (x : Warp) : (setWarp s g w x).hartRes = s.hartRes := rfl
@[simp] theorem setWarp_windowsSeen (s : State) (g w : Nat) (x : Warp) : (setWarp s g w x).windowsSeen = s.windowsSeen := rfl

/-! ### modWarp -/

@[simp] theorem modWarp_sched (s : State) (g w : Nat) (f : Warp → Warp) : (modWarp s g w f).sched = s.sched := rfl
@[simp] theorem modWarp_issuer (s : State) (g w : Nat) (f : Warp → Warp) : (modWarp s g w f).issuer = s.issuer := rfl
@[simp] theorem modWarp_freeCtr (s : State) (g w : Nat) (f : Warp → Warp) : (modWarp s g w f).freeCtr = s.freeCtr := rfl
@[simp] theorem modWarp_nextId (s : State) (g w : Nat) (f : Warp → Warp) : (modWarp s g w f).nextId = s.nextId := rfl
@[simp] theorem modWarp_clock (s : State) (g w : Nat) (f : Warp → Warp) : (modWarp s g w f).clock = s.clock := rfl
@[simp] theorem modWarp_mem (s : State) (g w : Nat) (f : Warp → Warp) : (modWarp s g w f).mem = s.mem := rfl
@[simp] theorem modWarp_poison (s : State) (g w : Nat) (f : Warp → Warp) : (modWarp s g w f).poison = s.poison := rfl
@[simp] theorem modWarp_hostLines (s : State) (g w : Nat) (f : Warp → Warp) : (modWarp s g w f).hostLines = s.hostLines := rfl
@[simp] theorem modWarp_loads (s : State) (g w : Nat) (f : Warp → Warp) : (modWarp s g w f).loads = s.loads := rfl
@[simp] theorem modWarp_stores (s : State) (g w : Nat) (f : Warp → Warp) : (modWarp s g w f).stores = s.stores := rfl
@[simp] theorem modWarp_atoms (s : State) (g w : Nat) (f : Warp → Warp) : (modWarp s g w f).atoms = s.atoms := rfl
@[simp] theorem modWarp_dedup (s : State) (g w : Nat) (f : Warp → Warp) : (modWarp s g w f).dedup = s.dedup := rfl
@[simp] theorem modWarp_tlb (s : State) (g w : Nat) (f : Warp → Warp) : (modWarp s g w f).tlb = s.tlb := rfl
@[simp] theorem modWarp_walks (s : State) (g w : Nat) (f : Warp → Warp) : (modWarp s g w f).walks = s.walks := rfl
@[simp] theorem modWarp_contexts (s : State) (g w : Nat) (f : Warp → Warp) : (modWarp s g w f).contexts = s.contexts := rfl
@[simp] theorem modWarp_regions (s : State) (g w : Nat) (f : Warp → Warp) : (modWarp s g w f).regions = s.regions := rfl
@[simp] theorem modWarp_wgs (s : State) (g w : Nat) (f : Warp → Warp) : (modWarp s g w f).wgs = s.wgs := rfl
@[simp] theorem modWarp_cores (s : State) (g w : Nat) (f : Warp → Warp) : (modWarp s g w f).cores = s.cores := rfl
@[simp] theorem modWarp_lgs (s : State) (g w : Nat) (f : Warp → Warp) : (modWarp s g w f).lgs = s.lgs := rfl
@[simp] theorem modWarp_pairs (s : State) (g w : Nat) (f : Warp → Warp) : (modWarp s g w f).pairs = s.pairs := rfl
@[simp] theorem modWarp_copies (s : State) (g w : Nat) (f : Warp → Warp) : (modWarp s g w f).copies = s.copies := rfl
@[simp] theorem modWarp_anvs (s : State) (g w : Nat) (f : Warp → Warp) : (modWarp s g w f).anvs = s.anvs := rfl
@[simp] theorem modWarp_lamps (s : State) (g w : Nat) (f : Warp → Warp) : (modWarp s g w f).lamps = s.lamps := rfl
@[simp] theorem modWarp_vaultOwner (s : State) (g w : Nat) (f : Warp → Warp) : (modWarp s g w f).vaultOwner = s.vaultOwner := rfl
@[simp] theorem modWarp_notify (s : State) (g w : Nat) (f : Warp → Warp) : (modWarp s g w f).notify = s.notify := rfl
@[simp] theorem modWarp_recSeq (s : State) (g w : Nat) (f : Warp → Warp) : (modWarp s g w f).recSeq = s.recSeq := rfl
@[simp] theorem modWarp_placed (s : State) (g w : Nat) (f : Warp → Warp) : (modWarp s g w f).placed = s.placed := rfl
@[simp] theorem modWarp_faultStores (s : State) (g w : Nat) (f : Warp → Warp) : (modWarp s g w f).faultStores = s.faultStores := rfl
@[simp] theorem modWarp_host (s : State) (g w : Nat) (f : Warp → Warp) : (modWarp s g w f).host = s.host := rfl
@[simp] theorem modWarp_bells (s : State) (g w : Nat) (f : Warp → Warp) : (modWarp s g w f).bells = s.bells := rfl
@[simp] theorem modWarp_rings (s : State) (g w : Nat) (f : Warp → Warp) : (modWarp s g w f).rings = s.rings := rfl
@[simp] theorem modWarp_tdis (s : State) (g w : Nat) (f : Warp → Warp) : (modWarp s g w f).tdis = s.tdis := rfl
@[simp] theorem modWarp_spdm (s : State) (g w : Nat) (f : Warp → Warp) : (modWarp s g w f).spdm = s.spdm := rfl
@[simp] theorem modWarp_spdmBeat (s : State) (g w : Nat) (f : Warp → Warp) : (modWarp s g w f).spdmBeat = s.spdmBeat := rfl
@[simp] theorem modWarp_links (s : State) (g w : Nat) (f : Warp → Warp) : (modWarp s g w f).links = s.links := rfl
@[simp] theorem modWarp_windows (s : State) (g w : Nat) (f : Warp → Warp) : (modWarp s g w f).windows = s.windows := rfl
@[simp] theorem modWarp_dom (s : State) (g w : Nat) (f : Warp → Warp) : (modWarp s g w f).dom = s.dom := rfl
@[simp] theorem modWarp_bellows (s : State) (g w : Nat) (f : Warp → Warp) : (modWarp s g w f).bellows = s.bellows := rfl
@[simp] theorem modWarp_obs (s : State) (g w : Nat) (f : Warp → Warp) : (modWarp s g w f).obs = s.obs := rfl
@[simp] theorem modWarp_ckpt (s : State) (g w : Nat) (f : Warp → Warp) : (modWarp s g w f).ckpt = s.ckpt := rfl
@[simp] theorem modWarp_fw (s : State) (g w : Nat) (f : Warp → Warp) : (modWarp s g w f).fw = s.fw := rfl
@[simp] theorem modWarp_msix (s : State) (g w : Nat) (f : Warp → Warp) : (modWarp s g w f).msix = s.msix := rfl
@[simp] theorem modWarp_completion (s : State) (g w : Nat) (f : Warp → Warp) : (modWarp s g w f).completion = s.completion := rfl
@[simp] theorem modWarp_gated (s : State) (g w : Nat) (f : Warp → Warp) : (modWarp s g w f).gated = s.gated := rfl
@[simp] theorem modWarp_marks (s : State) (g w : Nat) (f : Warp → Warp) : (modWarp s g w f).marks = s.marks := rfl
@[simp] theorem modWarp_msc (s : State) (g w : Nat) (f : Warp → Warp) : (modWarp s g w f).msc = s.msc := rfl
@[simp] theorem modWarp_lampq (s : State) (g w : Nat) (f : Warp → Warp) : (modWarp s g w f).lampq = s.lampq := rfl
@[simp] theorem modWarp_hostLow (s : State) (g w : Nat) (f : Warp → Warp) : (modWarp s g w f).hostLow = s.hostLow := rfl
@[simp] theorem modWarp_regrant (s : State) (g w : Nat) (f : Warp → Warp) : (modWarp s g w f).regrant = s.regrant := rfl
@[simp] theorem modWarp_peerq (s : State) (g w : Nat) (f : Warp → Warp) : (modWarp s g w f).peerq = s.peerq := rfl
@[simp] theorem modWarp_saw (s : State) (g w : Nat) (f : Warp → Warp) : (modWarp s g w f).saw = s.saw := rfl
@[simp] theorem modWarp_atsPages (s : State) (g w : Nat) (f : Warp → Warp) : (modWarp s g w f).atsPages = s.atsPages := rfl
@[simp] theorem modWarp_xpend (s : State) (g w : Nat) (f : Warp → Warp) : (modWarp s g w f).xpend = s.xpend := rfl
@[simp] theorem modWarp_outs (s : State) (g w : Nat) (f : Warp → Warp) : (modWarp s g w f).outs = s.outs := rfl
@[simp] theorem modWarp_epoch (s : State) (g w : Nat) (f : Warp → Warp) : (modWarp s g w f).epoch = s.epoch := rfl
@[simp] theorem modWarp_atsInvs (s : State) (g w : Nat) (f : Warp → Warp) : (modWarp s g w f).atsInvs = s.atsInvs := rfl
@[simp] theorem modWarp_posted (s : State) (g w : Nat) (f : Warp → Warp) : (modWarp s g w f).posted = s.posted := rfl
@[simp] theorem modWarp_hartRes (s : State) (g w : Nat) (f : Warp → Warp) : (modWarp s g w f).hartRes = s.hartRes := rfl
@[simp] theorem modWarp_windowsSeen (s : State) (g w : Nat) (f : Warp → Warp) : (modWarp s g w f).windowsSeen = s.windowsSeen := rfl

/-! ### modWg -/

@[simp] theorem modWg_sched (s : State) (g : Nat) (f : Wg → Wg) : (modWg s g f).sched = s.sched := rfl
@[simp] theorem modWg_issuer (s : State) (g : Nat) (f : Wg → Wg) : (modWg s g f).issuer = s.issuer := rfl
@[simp] theorem modWg_freeCtr (s : State) (g : Nat) (f : Wg → Wg) : (modWg s g f).freeCtr = s.freeCtr := rfl
@[simp] theorem modWg_nextId (s : State) (g : Nat) (f : Wg → Wg) : (modWg s g f).nextId = s.nextId := rfl
@[simp] theorem modWg_clock (s : State) (g : Nat) (f : Wg → Wg) : (modWg s g f).clock = s.clock := rfl
@[simp] theorem modWg_mem (s : State) (g : Nat) (f : Wg → Wg) : (modWg s g f).mem = s.mem := rfl
@[simp] theorem modWg_poison (s : State) (g : Nat) (f : Wg → Wg) : (modWg s g f).poison = s.poison := rfl
@[simp] theorem modWg_hostLines (s : State) (g : Nat) (f : Wg → Wg) : (modWg s g f).hostLines = s.hostLines := rfl
@[simp] theorem modWg_loads (s : State) (g : Nat) (f : Wg → Wg) : (modWg s g f).loads = s.loads := rfl
@[simp] theorem modWg_stores (s : State) (g : Nat) (f : Wg → Wg) : (modWg s g f).stores = s.stores := rfl
@[simp] theorem modWg_atoms (s : State) (g : Nat) (f : Wg → Wg) : (modWg s g f).atoms = s.atoms := rfl
@[simp] theorem modWg_dedup (s : State) (g : Nat) (f : Wg → Wg) : (modWg s g f).dedup = s.dedup := rfl
@[simp] theorem modWg_tlb (s : State) (g : Nat) (f : Wg → Wg) : (modWg s g f).tlb = s.tlb := rfl
@[simp] theorem modWg_walks (s : State) (g : Nat) (f : Wg → Wg) : (modWg s g f).walks = s.walks := rfl
@[simp] theorem modWg_contexts (s : State) (g : Nat) (f : Wg → Wg) : (modWg s g f).contexts = s.contexts := rfl
@[simp] theorem modWg_regions (s : State) (g : Nat) (f : Wg → Wg) : (modWg s g f).regions = s.regions := rfl
@[simp] theorem modWg_warps (s : State) (g : Nat) (f : Wg → Wg) : (modWg s g f).warps = s.warps := rfl
@[simp] theorem modWg_cores (s : State) (g : Nat) (f : Wg → Wg) : (modWg s g f).cores = s.cores := rfl
@[simp] theorem modWg_lgs (s : State) (g : Nat) (f : Wg → Wg) : (modWg s g f).lgs = s.lgs := rfl
@[simp] theorem modWg_pairs (s : State) (g : Nat) (f : Wg → Wg) : (modWg s g f).pairs = s.pairs := rfl
@[simp] theorem modWg_copies (s : State) (g : Nat) (f : Wg → Wg) : (modWg s g f).copies = s.copies := rfl
@[simp] theorem modWg_anvs (s : State) (g : Nat) (f : Wg → Wg) : (modWg s g f).anvs = s.anvs := rfl
@[simp] theorem modWg_lamps (s : State) (g : Nat) (f : Wg → Wg) : (modWg s g f).lamps = s.lamps := rfl
@[simp] theorem modWg_vaultOwner (s : State) (g : Nat) (f : Wg → Wg) : (modWg s g f).vaultOwner = s.vaultOwner := rfl
@[simp] theorem modWg_notify (s : State) (g : Nat) (f : Wg → Wg) : (modWg s g f).notify = s.notify := rfl
@[simp] theorem modWg_recSeq (s : State) (g : Nat) (f : Wg → Wg) : (modWg s g f).recSeq = s.recSeq := rfl
@[simp] theorem modWg_placed (s : State) (g : Nat) (f : Wg → Wg) : (modWg s g f).placed = s.placed := rfl
@[simp] theorem modWg_faultStores (s : State) (g : Nat) (f : Wg → Wg) : (modWg s g f).faultStores = s.faultStores := rfl
@[simp] theorem modWg_host (s : State) (g : Nat) (f : Wg → Wg) : (modWg s g f).host = s.host := rfl
@[simp] theorem modWg_bells (s : State) (g : Nat) (f : Wg → Wg) : (modWg s g f).bells = s.bells := rfl
@[simp] theorem modWg_rings (s : State) (g : Nat) (f : Wg → Wg) : (modWg s g f).rings = s.rings := rfl
@[simp] theorem modWg_tdis (s : State) (g : Nat) (f : Wg → Wg) : (modWg s g f).tdis = s.tdis := rfl
@[simp] theorem modWg_spdm (s : State) (g : Nat) (f : Wg → Wg) : (modWg s g f).spdm = s.spdm := rfl
@[simp] theorem modWg_spdmBeat (s : State) (g : Nat) (f : Wg → Wg) : (modWg s g f).spdmBeat = s.spdmBeat := rfl
@[simp] theorem modWg_links (s : State) (g : Nat) (f : Wg → Wg) : (modWg s g f).links = s.links := rfl
@[simp] theorem modWg_windows (s : State) (g : Nat) (f : Wg → Wg) : (modWg s g f).windows = s.windows := rfl
@[simp] theorem modWg_dom (s : State) (g : Nat) (f : Wg → Wg) : (modWg s g f).dom = s.dom := rfl
@[simp] theorem modWg_bellows (s : State) (g : Nat) (f : Wg → Wg) : (modWg s g f).bellows = s.bellows := rfl
@[simp] theorem modWg_obs (s : State) (g : Nat) (f : Wg → Wg) : (modWg s g f).obs = s.obs := rfl
@[simp] theorem modWg_ckpt (s : State) (g : Nat) (f : Wg → Wg) : (modWg s g f).ckpt = s.ckpt := rfl
@[simp] theorem modWg_fw (s : State) (g : Nat) (f : Wg → Wg) : (modWg s g f).fw = s.fw := rfl
@[simp] theorem modWg_msix (s : State) (g : Nat) (f : Wg → Wg) : (modWg s g f).msix = s.msix := rfl
@[simp] theorem modWg_completion (s : State) (g : Nat) (f : Wg → Wg) : (modWg s g f).completion = s.completion := rfl
@[simp] theorem modWg_gated (s : State) (g : Nat) (f : Wg → Wg) : (modWg s g f).gated = s.gated := rfl
@[simp] theorem modWg_marks (s : State) (g : Nat) (f : Wg → Wg) : (modWg s g f).marks = s.marks := rfl
@[simp] theorem modWg_msc (s : State) (g : Nat) (f : Wg → Wg) : (modWg s g f).msc = s.msc := rfl
@[simp] theorem modWg_lampq (s : State) (g : Nat) (f : Wg → Wg) : (modWg s g f).lampq = s.lampq := rfl
@[simp] theorem modWg_hostLow (s : State) (g : Nat) (f : Wg → Wg) : (modWg s g f).hostLow = s.hostLow := rfl
@[simp] theorem modWg_regrant (s : State) (g : Nat) (f : Wg → Wg) : (modWg s g f).regrant = s.regrant := rfl
@[simp] theorem modWg_peerq (s : State) (g : Nat) (f : Wg → Wg) : (modWg s g f).peerq = s.peerq := rfl
@[simp] theorem modWg_saw (s : State) (g : Nat) (f : Wg → Wg) : (modWg s g f).saw = s.saw := rfl
@[simp] theorem modWg_atsPages (s : State) (g : Nat) (f : Wg → Wg) : (modWg s g f).atsPages = s.atsPages := rfl
@[simp] theorem modWg_xpend (s : State) (g : Nat) (f : Wg → Wg) : (modWg s g f).xpend = s.xpend := rfl
@[simp] theorem modWg_outs (s : State) (g : Nat) (f : Wg → Wg) : (modWg s g f).outs = s.outs := rfl
@[simp] theorem modWg_epoch (s : State) (g : Nat) (f : Wg → Wg) : (modWg s g f).epoch = s.epoch := rfl
@[simp] theorem modWg_atsInvs (s : State) (g : Nat) (f : Wg → Wg) : (modWg s g f).atsInvs = s.atsInvs := rfl
@[simp] theorem modWg_posted (s : State) (g : Nat) (f : Wg → Wg) : (modWg s g f).posted = s.posted := rfl
@[simp] theorem modWg_hartRes (s : State) (g : Nat) (f : Wg → Wg) : (modWg s g f).hartRes = s.hartRes := rfl
@[simp] theorem modWg_windowsSeen (s : State) (g : Nat) (f : Wg → Wg) : (modWg s g f).windowsSeen = s.windowsSeen := rfl

/-! ### modCore -/

@[simp] theorem modCore_sched (s : State) (k : Nat) (f : Core → Core) : (modCore s k f).sched = s.sched := rfl
@[simp] theorem modCore_issuer (s : State) (k : Nat) (f : Core → Core) : (modCore s k f).issuer = s.issuer := rfl
@[simp] theorem modCore_freeCtr (s : State) (k : Nat) (f : Core → Core) : (modCore s k f).freeCtr = s.freeCtr := rfl
@[simp] theorem modCore_nextId (s : State) (k : Nat) (f : Core → Core) : (modCore s k f).nextId = s.nextId := rfl
@[simp] theorem modCore_clock (s : State) (k : Nat) (f : Core → Core) : (modCore s k f).clock = s.clock := rfl
@[simp] theorem modCore_mem (s : State) (k : Nat) (f : Core → Core) : (modCore s k f).mem = s.mem := rfl
@[simp] theorem modCore_poison (s : State) (k : Nat) (f : Core → Core) : (modCore s k f).poison = s.poison := rfl
@[simp] theorem modCore_hostLines (s : State) (k : Nat) (f : Core → Core) : (modCore s k f).hostLines = s.hostLines := rfl
@[simp] theorem modCore_loads (s : State) (k : Nat) (f : Core → Core) : (modCore s k f).loads = s.loads := rfl
@[simp] theorem modCore_stores (s : State) (k : Nat) (f : Core → Core) : (modCore s k f).stores = s.stores := rfl
@[simp] theorem modCore_atoms (s : State) (k : Nat) (f : Core → Core) : (modCore s k f).atoms = s.atoms := rfl
@[simp] theorem modCore_dedup (s : State) (k : Nat) (f : Core → Core) : (modCore s k f).dedup = s.dedup := rfl
@[simp] theorem modCore_tlb (s : State) (k : Nat) (f : Core → Core) : (modCore s k f).tlb = s.tlb := rfl
@[simp] theorem modCore_walks (s : State) (k : Nat) (f : Core → Core) : (modCore s k f).walks = s.walks := rfl
@[simp] theorem modCore_contexts (s : State) (k : Nat) (f : Core → Core) : (modCore s k f).contexts = s.contexts := rfl
@[simp] theorem modCore_regions (s : State) (k : Nat) (f : Core → Core) : (modCore s k f).regions = s.regions := rfl
@[simp] theorem modCore_wgs (s : State) (k : Nat) (f : Core → Core) : (modCore s k f).wgs = s.wgs := rfl
@[simp] theorem modCore_warps (s : State) (k : Nat) (f : Core → Core) : (modCore s k f).warps = s.warps := rfl
@[simp] theorem modCore_lgs (s : State) (k : Nat) (f : Core → Core) : (modCore s k f).lgs = s.lgs := rfl
@[simp] theorem modCore_pairs (s : State) (k : Nat) (f : Core → Core) : (modCore s k f).pairs = s.pairs := rfl
@[simp] theorem modCore_copies (s : State) (k : Nat) (f : Core → Core) : (modCore s k f).copies = s.copies := rfl
@[simp] theorem modCore_anvs (s : State) (k : Nat) (f : Core → Core) : (modCore s k f).anvs = s.anvs := rfl
@[simp] theorem modCore_lamps (s : State) (k : Nat) (f : Core → Core) : (modCore s k f).lamps = s.lamps := rfl
@[simp] theorem modCore_vaultOwner (s : State) (k : Nat) (f : Core → Core) : (modCore s k f).vaultOwner = s.vaultOwner := rfl
@[simp] theorem modCore_notify (s : State) (k : Nat) (f : Core → Core) : (modCore s k f).notify = s.notify := rfl
@[simp] theorem modCore_recSeq (s : State) (k : Nat) (f : Core → Core) : (modCore s k f).recSeq = s.recSeq := rfl
@[simp] theorem modCore_placed (s : State) (k : Nat) (f : Core → Core) : (modCore s k f).placed = s.placed := rfl
@[simp] theorem modCore_faultStores (s : State) (k : Nat) (f : Core → Core) : (modCore s k f).faultStores = s.faultStores := rfl
@[simp] theorem modCore_host (s : State) (k : Nat) (f : Core → Core) : (modCore s k f).host = s.host := rfl
@[simp] theorem modCore_bells (s : State) (k : Nat) (f : Core → Core) : (modCore s k f).bells = s.bells := rfl
@[simp] theorem modCore_rings (s : State) (k : Nat) (f : Core → Core) : (modCore s k f).rings = s.rings := rfl
@[simp] theorem modCore_tdis (s : State) (k : Nat) (f : Core → Core) : (modCore s k f).tdis = s.tdis := rfl
@[simp] theorem modCore_spdm (s : State) (k : Nat) (f : Core → Core) : (modCore s k f).spdm = s.spdm := rfl
@[simp] theorem modCore_spdmBeat (s : State) (k : Nat) (f : Core → Core) : (modCore s k f).spdmBeat = s.spdmBeat := rfl
@[simp] theorem modCore_links (s : State) (k : Nat) (f : Core → Core) : (modCore s k f).links = s.links := rfl
@[simp] theorem modCore_windows (s : State) (k : Nat) (f : Core → Core) : (modCore s k f).windows = s.windows := rfl
@[simp] theorem modCore_dom (s : State) (k : Nat) (f : Core → Core) : (modCore s k f).dom = s.dom := rfl
@[simp] theorem modCore_bellows (s : State) (k : Nat) (f : Core → Core) : (modCore s k f).bellows = s.bellows := rfl
@[simp] theorem modCore_obs (s : State) (k : Nat) (f : Core → Core) : (modCore s k f).obs = s.obs := rfl
@[simp] theorem modCore_ckpt (s : State) (k : Nat) (f : Core → Core) : (modCore s k f).ckpt = s.ckpt := rfl
@[simp] theorem modCore_fw (s : State) (k : Nat) (f : Core → Core) : (modCore s k f).fw = s.fw := rfl
@[simp] theorem modCore_msix (s : State) (k : Nat) (f : Core → Core) : (modCore s k f).msix = s.msix := rfl
@[simp] theorem modCore_completion (s : State) (k : Nat) (f : Core → Core) : (modCore s k f).completion = s.completion := rfl
@[simp] theorem modCore_gated (s : State) (k : Nat) (f : Core → Core) : (modCore s k f).gated = s.gated := rfl
@[simp] theorem modCore_marks (s : State) (k : Nat) (f : Core → Core) : (modCore s k f).marks = s.marks := rfl
@[simp] theorem modCore_msc (s : State) (k : Nat) (f : Core → Core) : (modCore s k f).msc = s.msc := rfl
@[simp] theorem modCore_lampq (s : State) (k : Nat) (f : Core → Core) : (modCore s k f).lampq = s.lampq := rfl
@[simp] theorem modCore_hostLow (s : State) (k : Nat) (f : Core → Core) : (modCore s k f).hostLow = s.hostLow := rfl
@[simp] theorem modCore_regrant (s : State) (k : Nat) (f : Core → Core) : (modCore s k f).regrant = s.regrant := rfl
@[simp] theorem modCore_peerq (s : State) (k : Nat) (f : Core → Core) : (modCore s k f).peerq = s.peerq := rfl
@[simp] theorem modCore_saw (s : State) (k : Nat) (f : Core → Core) : (modCore s k f).saw = s.saw := rfl
@[simp] theorem modCore_atsPages (s : State) (k : Nat) (f : Core → Core) : (modCore s k f).atsPages = s.atsPages := rfl
@[simp] theorem modCore_xpend (s : State) (k : Nat) (f : Core → Core) : (modCore s k f).xpend = s.xpend := rfl
@[simp] theorem modCore_outs (s : State) (k : Nat) (f : Core → Core) : (modCore s k f).outs = s.outs := rfl
@[simp] theorem modCore_epoch (s : State) (k : Nat) (f : Core → Core) : (modCore s k f).epoch = s.epoch := rfl
@[simp] theorem modCore_atsInvs (s : State) (k : Nat) (f : Core → Core) : (modCore s k f).atsInvs = s.atsInvs := rfl
@[simp] theorem modCore_posted (s : State) (k : Nat) (f : Core → Core) : (modCore s k f).posted = s.posted := rfl
@[simp] theorem modCore_hartRes (s : State) (k : Nat) (f : Core → Core) : (modCore s k f).hartRes = s.hartRes := rfl
@[simp] theorem modCore_windowsSeen (s : State) (k : Nat) (f : Core → Core) : (modCore s k f).windowsSeen = s.windowsSeen := rfl

/-! ### modLg -/

@[simp] theorem modLg_sched (s : State) (c l : Nat) (f : Lg → Lg) : (modLg s c l f).sched = s.sched := rfl
@[simp] theorem modLg_issuer (s : State) (c l : Nat) (f : Lg → Lg) : (modLg s c l f).issuer = s.issuer := rfl
@[simp] theorem modLg_freeCtr (s : State) (c l : Nat) (f : Lg → Lg) : (modLg s c l f).freeCtr = s.freeCtr := rfl
@[simp] theorem modLg_nextId (s : State) (c l : Nat) (f : Lg → Lg) : (modLg s c l f).nextId = s.nextId := rfl
@[simp] theorem modLg_clock (s : State) (c l : Nat) (f : Lg → Lg) : (modLg s c l f).clock = s.clock := rfl
@[simp] theorem modLg_mem (s : State) (c l : Nat) (f : Lg → Lg) : (modLg s c l f).mem = s.mem := rfl
@[simp] theorem modLg_poison (s : State) (c l : Nat) (f : Lg → Lg) : (modLg s c l f).poison = s.poison := rfl
@[simp] theorem modLg_hostLines (s : State) (c l : Nat) (f : Lg → Lg) : (modLg s c l f).hostLines = s.hostLines := rfl
@[simp] theorem modLg_loads (s : State) (c l : Nat) (f : Lg → Lg) : (modLg s c l f).loads = s.loads := rfl
@[simp] theorem modLg_stores (s : State) (c l : Nat) (f : Lg → Lg) : (modLg s c l f).stores = s.stores := rfl
@[simp] theorem modLg_atoms (s : State) (c l : Nat) (f : Lg → Lg) : (modLg s c l f).atoms = s.atoms := rfl
@[simp] theorem modLg_dedup (s : State) (c l : Nat) (f : Lg → Lg) : (modLg s c l f).dedup = s.dedup := rfl
@[simp] theorem modLg_tlb (s : State) (c l : Nat) (f : Lg → Lg) : (modLg s c l f).tlb = s.tlb := rfl
@[simp] theorem modLg_walks (s : State) (c l : Nat) (f : Lg → Lg) : (modLg s c l f).walks = s.walks := rfl
@[simp] theorem modLg_contexts (s : State) (c l : Nat) (f : Lg → Lg) : (modLg s c l f).contexts = s.contexts := rfl
@[simp] theorem modLg_regions (s : State) (c l : Nat) (f : Lg → Lg) : (modLg s c l f).regions = s.regions := rfl
@[simp] theorem modLg_wgs (s : State) (c l : Nat) (f : Lg → Lg) : (modLg s c l f).wgs = s.wgs := rfl
@[simp] theorem modLg_warps (s : State) (c l : Nat) (f : Lg → Lg) : (modLg s c l f).warps = s.warps := rfl
@[simp] theorem modLg_cores (s : State) (c l : Nat) (f : Lg → Lg) : (modLg s c l f).cores = s.cores := rfl
@[simp] theorem modLg_pairs (s : State) (c l : Nat) (f : Lg → Lg) : (modLg s c l f).pairs = s.pairs := rfl
@[simp] theorem modLg_copies (s : State) (c l : Nat) (f : Lg → Lg) : (modLg s c l f).copies = s.copies := rfl
@[simp] theorem modLg_anvs (s : State) (c l : Nat) (f : Lg → Lg) : (modLg s c l f).anvs = s.anvs := rfl
@[simp] theorem modLg_lamps (s : State) (c l : Nat) (f : Lg → Lg) : (modLg s c l f).lamps = s.lamps := rfl
@[simp] theorem modLg_vaultOwner (s : State) (c l : Nat) (f : Lg → Lg) : (modLg s c l f).vaultOwner = s.vaultOwner := rfl
@[simp] theorem modLg_notify (s : State) (c l : Nat) (f : Lg → Lg) : (modLg s c l f).notify = s.notify := rfl
@[simp] theorem modLg_recSeq (s : State) (c l : Nat) (f : Lg → Lg) : (modLg s c l f).recSeq = s.recSeq := rfl
@[simp] theorem modLg_placed (s : State) (c l : Nat) (f : Lg → Lg) : (modLg s c l f).placed = s.placed := rfl
@[simp] theorem modLg_faultStores (s : State) (c l : Nat) (f : Lg → Lg) : (modLg s c l f).faultStores = s.faultStores := rfl
@[simp] theorem modLg_host (s : State) (c l : Nat) (f : Lg → Lg) : (modLg s c l f).host = s.host := rfl
@[simp] theorem modLg_bells (s : State) (c l : Nat) (f : Lg → Lg) : (modLg s c l f).bells = s.bells := rfl
@[simp] theorem modLg_rings (s : State) (c l : Nat) (f : Lg → Lg) : (modLg s c l f).rings = s.rings := rfl
@[simp] theorem modLg_tdis (s : State) (c l : Nat) (f : Lg → Lg) : (modLg s c l f).tdis = s.tdis := rfl
@[simp] theorem modLg_spdm (s : State) (c l : Nat) (f : Lg → Lg) : (modLg s c l f).spdm = s.spdm := rfl
@[simp] theorem modLg_spdmBeat (s : State) (c l : Nat) (f : Lg → Lg) : (modLg s c l f).spdmBeat = s.spdmBeat := rfl
@[simp] theorem modLg_links (s : State) (c l : Nat) (f : Lg → Lg) : (modLg s c l f).links = s.links := rfl
@[simp] theorem modLg_windows (s : State) (c l : Nat) (f : Lg → Lg) : (modLg s c l f).windows = s.windows := rfl
@[simp] theorem modLg_dom (s : State) (c l : Nat) (f : Lg → Lg) : (modLg s c l f).dom = s.dom := rfl
@[simp] theorem modLg_bellows (s : State) (c l : Nat) (f : Lg → Lg) : (modLg s c l f).bellows = s.bellows := rfl
@[simp] theorem modLg_obs (s : State) (c l : Nat) (f : Lg → Lg) : (modLg s c l f).obs = s.obs := rfl
@[simp] theorem modLg_ckpt (s : State) (c l : Nat) (f : Lg → Lg) : (modLg s c l f).ckpt = s.ckpt := rfl
@[simp] theorem modLg_fw (s : State) (c l : Nat) (f : Lg → Lg) : (modLg s c l f).fw = s.fw := rfl
@[simp] theorem modLg_msix (s : State) (c l : Nat) (f : Lg → Lg) : (modLg s c l f).msix = s.msix := rfl
@[simp] theorem modLg_completion (s : State) (c l : Nat) (f : Lg → Lg) : (modLg s c l f).completion = s.completion := rfl
@[simp] theorem modLg_gated (s : State) (c l : Nat) (f : Lg → Lg) : (modLg s c l f).gated = s.gated := rfl
@[simp] theorem modLg_marks (s : State) (c l : Nat) (f : Lg → Lg) : (modLg s c l f).marks = s.marks := rfl
@[simp] theorem modLg_msc (s : State) (c l : Nat) (f : Lg → Lg) : (modLg s c l f).msc = s.msc := rfl
@[simp] theorem modLg_lampq (s : State) (c l : Nat) (f : Lg → Lg) : (modLg s c l f).lampq = s.lampq := rfl
@[simp] theorem modLg_hostLow (s : State) (c l : Nat) (f : Lg → Lg) : (modLg s c l f).hostLow = s.hostLow := rfl
@[simp] theorem modLg_regrant (s : State) (c l : Nat) (f : Lg → Lg) : (modLg s c l f).regrant = s.regrant := rfl
@[simp] theorem modLg_peerq (s : State) (c l : Nat) (f : Lg → Lg) : (modLg s c l f).peerq = s.peerq := rfl
@[simp] theorem modLg_saw (s : State) (c l : Nat) (f : Lg → Lg) : (modLg s c l f).saw = s.saw := rfl
@[simp] theorem modLg_atsPages (s : State) (c l : Nat) (f : Lg → Lg) : (modLg s c l f).atsPages = s.atsPages := rfl
@[simp] theorem modLg_xpend (s : State) (c l : Nat) (f : Lg → Lg) : (modLg s c l f).xpend = s.xpend := rfl
@[simp] theorem modLg_outs (s : State) (c l : Nat) (f : Lg → Lg) : (modLg s c l f).outs = s.outs := rfl
@[simp] theorem modLg_epoch (s : State) (c l : Nat) (f : Lg → Lg) : (modLg s c l f).epoch = s.epoch := rfl
@[simp] theorem modLg_atsInvs (s : State) (c l : Nat) (f : Lg → Lg) : (modLg s c l f).atsInvs = s.atsInvs := rfl
@[simp] theorem modLg_posted (s : State) (c l : Nat) (f : Lg → Lg) : (modLg s c l f).posted = s.posted := rfl
@[simp] theorem modLg_hartRes (s : State) (c l : Nat) (f : Lg → Lg) : (modLg s c l f).hartRes = s.hartRes := rfl
@[simp] theorem modLg_windowsSeen (s : State) (c l : Nat) (f : Lg → Lg) : (modLg s c l f).windowsSeen = s.windowsSeen := rfl

/-! ### modPair -/

@[simp] theorem modPair_sched (s : State) (p : Nat) (f : Pair → Pair) : (modPair s p f).sched = s.sched := rfl
@[simp] theorem modPair_issuer (s : State) (p : Nat) (f : Pair → Pair) : (modPair s p f).issuer = s.issuer := rfl
@[simp] theorem modPair_freeCtr (s : State) (p : Nat) (f : Pair → Pair) : (modPair s p f).freeCtr = s.freeCtr := rfl
@[simp] theorem modPair_nextId (s : State) (p : Nat) (f : Pair → Pair) : (modPair s p f).nextId = s.nextId := rfl
@[simp] theorem modPair_clock (s : State) (p : Nat) (f : Pair → Pair) : (modPair s p f).clock = s.clock := rfl
@[simp] theorem modPair_mem (s : State) (p : Nat) (f : Pair → Pair) : (modPair s p f).mem = s.mem := rfl
@[simp] theorem modPair_poison (s : State) (p : Nat) (f : Pair → Pair) : (modPair s p f).poison = s.poison := rfl
@[simp] theorem modPair_hostLines (s : State) (p : Nat) (f : Pair → Pair) : (modPair s p f).hostLines = s.hostLines := rfl
@[simp] theorem modPair_loads (s : State) (p : Nat) (f : Pair → Pair) : (modPair s p f).loads = s.loads := rfl
@[simp] theorem modPair_stores (s : State) (p : Nat) (f : Pair → Pair) : (modPair s p f).stores = s.stores := rfl
@[simp] theorem modPair_atoms (s : State) (p : Nat) (f : Pair → Pair) : (modPair s p f).atoms = s.atoms := rfl
@[simp] theorem modPair_dedup (s : State) (p : Nat) (f : Pair → Pair) : (modPair s p f).dedup = s.dedup := rfl
@[simp] theorem modPair_tlb (s : State) (p : Nat) (f : Pair → Pair) : (modPair s p f).tlb = s.tlb := rfl
@[simp] theorem modPair_walks (s : State) (p : Nat) (f : Pair → Pair) : (modPair s p f).walks = s.walks := rfl
@[simp] theorem modPair_contexts (s : State) (p : Nat) (f : Pair → Pair) : (modPair s p f).contexts = s.contexts := rfl
@[simp] theorem modPair_regions (s : State) (p : Nat) (f : Pair → Pair) : (modPair s p f).regions = s.regions := rfl
@[simp] theorem modPair_wgs (s : State) (p : Nat) (f : Pair → Pair) : (modPair s p f).wgs = s.wgs := rfl
@[simp] theorem modPair_warps (s : State) (p : Nat) (f : Pair → Pair) : (modPair s p f).warps = s.warps := rfl
@[simp] theorem modPair_cores (s : State) (p : Nat) (f : Pair → Pair) : (modPair s p f).cores = s.cores := rfl
@[simp] theorem modPair_lgs (s : State) (p : Nat) (f : Pair → Pair) : (modPair s p f).lgs = s.lgs := rfl
@[simp] theorem modPair_copies (s : State) (p : Nat) (f : Pair → Pair) : (modPair s p f).copies = s.copies := rfl
@[simp] theorem modPair_anvs (s : State) (p : Nat) (f : Pair → Pair) : (modPair s p f).anvs = s.anvs := rfl
@[simp] theorem modPair_lamps (s : State) (p : Nat) (f : Pair → Pair) : (modPair s p f).lamps = s.lamps := rfl
@[simp] theorem modPair_vaultOwner (s : State) (p : Nat) (f : Pair → Pair) : (modPair s p f).vaultOwner = s.vaultOwner := rfl
@[simp] theorem modPair_notify (s : State) (p : Nat) (f : Pair → Pair) : (modPair s p f).notify = s.notify := rfl
@[simp] theorem modPair_recSeq (s : State) (p : Nat) (f : Pair → Pair) : (modPair s p f).recSeq = s.recSeq := rfl
@[simp] theorem modPair_placed (s : State) (p : Nat) (f : Pair → Pair) : (modPair s p f).placed = s.placed := rfl
@[simp] theorem modPair_faultStores (s : State) (p : Nat) (f : Pair → Pair) : (modPair s p f).faultStores = s.faultStores := rfl
@[simp] theorem modPair_host (s : State) (p : Nat) (f : Pair → Pair) : (modPair s p f).host = s.host := rfl
@[simp] theorem modPair_bells (s : State) (p : Nat) (f : Pair → Pair) : (modPair s p f).bells = s.bells := rfl
@[simp] theorem modPair_rings (s : State) (p : Nat) (f : Pair → Pair) : (modPair s p f).rings = s.rings := rfl
@[simp] theorem modPair_tdis (s : State) (p : Nat) (f : Pair → Pair) : (modPair s p f).tdis = s.tdis := rfl
@[simp] theorem modPair_spdm (s : State) (p : Nat) (f : Pair → Pair) : (modPair s p f).spdm = s.spdm := rfl
@[simp] theorem modPair_spdmBeat (s : State) (p : Nat) (f : Pair → Pair) : (modPair s p f).spdmBeat = s.spdmBeat := rfl
@[simp] theorem modPair_links (s : State) (p : Nat) (f : Pair → Pair) : (modPair s p f).links = s.links := rfl
@[simp] theorem modPair_windows (s : State) (p : Nat) (f : Pair → Pair) : (modPair s p f).windows = s.windows := rfl
@[simp] theorem modPair_dom (s : State) (p : Nat) (f : Pair → Pair) : (modPair s p f).dom = s.dom := rfl
@[simp] theorem modPair_bellows (s : State) (p : Nat) (f : Pair → Pair) : (modPair s p f).bellows = s.bellows := rfl
@[simp] theorem modPair_obs (s : State) (p : Nat) (f : Pair → Pair) : (modPair s p f).obs = s.obs := rfl
@[simp] theorem modPair_ckpt (s : State) (p : Nat) (f : Pair → Pair) : (modPair s p f).ckpt = s.ckpt := rfl
@[simp] theorem modPair_fw (s : State) (p : Nat) (f : Pair → Pair) : (modPair s p f).fw = s.fw := rfl
@[simp] theorem modPair_msix (s : State) (p : Nat) (f : Pair → Pair) : (modPair s p f).msix = s.msix := rfl
@[simp] theorem modPair_completion (s : State) (p : Nat) (f : Pair → Pair) : (modPair s p f).completion = s.completion := rfl
@[simp] theorem modPair_gated (s : State) (p : Nat) (f : Pair → Pair) : (modPair s p f).gated = s.gated := rfl
@[simp] theorem modPair_marks (s : State) (p : Nat) (f : Pair → Pair) : (modPair s p f).marks = s.marks := rfl
@[simp] theorem modPair_msc (s : State) (p : Nat) (f : Pair → Pair) : (modPair s p f).msc = s.msc := rfl
@[simp] theorem modPair_lampq (s : State) (p : Nat) (f : Pair → Pair) : (modPair s p f).lampq = s.lampq := rfl
@[simp] theorem modPair_hostLow (s : State) (p : Nat) (f : Pair → Pair) : (modPair s p f).hostLow = s.hostLow := rfl
@[simp] theorem modPair_regrant (s : State) (p : Nat) (f : Pair → Pair) : (modPair s p f).regrant = s.regrant := rfl
@[simp] theorem modPair_peerq (s : State) (p : Nat) (f : Pair → Pair) : (modPair s p f).peerq = s.peerq := rfl
@[simp] theorem modPair_saw (s : State) (p : Nat) (f : Pair → Pair) : (modPair s p f).saw = s.saw := rfl
@[simp] theorem modPair_atsPages (s : State) (p : Nat) (f : Pair → Pair) : (modPair s p f).atsPages = s.atsPages := rfl
@[simp] theorem modPair_xpend (s : State) (p : Nat) (f : Pair → Pair) : (modPair s p f).xpend = s.xpend := rfl
@[simp] theorem modPair_outs (s : State) (p : Nat) (f : Pair → Pair) : (modPair s p f).outs = s.outs := rfl
@[simp] theorem modPair_epoch (s : State) (p : Nat) (f : Pair → Pair) : (modPair s p f).epoch = s.epoch := rfl
@[simp] theorem modPair_atsInvs (s : State) (p : Nat) (f : Pair → Pair) : (modPair s p f).atsInvs = s.atsInvs := rfl
@[simp] theorem modPair_posted (s : State) (p : Nat) (f : Pair → Pair) : (modPair s p f).posted = s.posted := rfl
@[simp] theorem modPair_hartRes (s : State) (p : Nat) (f : Pair → Pair) : (modPair s p f).hartRes = s.hartRes := rfl
@[simp] theorem modPair_windowsSeen (s : State) (p : Nat) (f : Pair → Pair) : (modPair s p f).windowsSeen = s.windowsSeen := rfl

/-! ### setLamp -/

@[simp] theorem setLamp_sched (s : State) (u : Nat) (l : Lamp) : (setLamp s u l).sched = s.sched := rfl
@[simp] theorem setLamp_issuer (s : State) (u : Nat) (l : Lamp) : (setLamp s u l).issuer = s.issuer := rfl
@[simp] theorem setLamp_freeCtr (s : State) (u : Nat) (l : Lamp) : (setLamp s u l).freeCtr = s.freeCtr := rfl
@[simp] theorem setLamp_nextId (s : State) (u : Nat) (l : Lamp) : (setLamp s u l).nextId = s.nextId := rfl
@[simp] theorem setLamp_clock (s : State) (u : Nat) (l : Lamp) : (setLamp s u l).clock = s.clock := rfl
@[simp] theorem setLamp_mem (s : State) (u : Nat) (l : Lamp) : (setLamp s u l).mem = s.mem := rfl
@[simp] theorem setLamp_poison (s : State) (u : Nat) (l : Lamp) : (setLamp s u l).poison = s.poison := rfl
@[simp] theorem setLamp_hostLines (s : State) (u : Nat) (l : Lamp) : (setLamp s u l).hostLines = s.hostLines := rfl
@[simp] theorem setLamp_loads (s : State) (u : Nat) (l : Lamp) : (setLamp s u l).loads = s.loads := rfl
@[simp] theorem setLamp_stores (s : State) (u : Nat) (l : Lamp) : (setLamp s u l).stores = s.stores := rfl
@[simp] theorem setLamp_atoms (s : State) (u : Nat) (l : Lamp) : (setLamp s u l).atoms = s.atoms := rfl
@[simp] theorem setLamp_dedup (s : State) (u : Nat) (l : Lamp) : (setLamp s u l).dedup = s.dedup := rfl
@[simp] theorem setLamp_tlb (s : State) (u : Nat) (l : Lamp) : (setLamp s u l).tlb = s.tlb := rfl
@[simp] theorem setLamp_walks (s : State) (u : Nat) (l : Lamp) : (setLamp s u l).walks = s.walks := rfl
@[simp] theorem setLamp_contexts (s : State) (u : Nat) (l : Lamp) : (setLamp s u l).contexts = s.contexts := rfl
@[simp] theorem setLamp_regions (s : State) (u : Nat) (l : Lamp) : (setLamp s u l).regions = s.regions := rfl
@[simp] theorem setLamp_wgs (s : State) (u : Nat) (l : Lamp) : (setLamp s u l).wgs = s.wgs := rfl
@[simp] theorem setLamp_warps (s : State) (u : Nat) (l : Lamp) : (setLamp s u l).warps = s.warps := rfl
@[simp] theorem setLamp_cores (s : State) (u : Nat) (l : Lamp) : (setLamp s u l).cores = s.cores := rfl
@[simp] theorem setLamp_lgs (s : State) (u : Nat) (l : Lamp) : (setLamp s u l).lgs = s.lgs := rfl
@[simp] theorem setLamp_pairs (s : State) (u : Nat) (l : Lamp) : (setLamp s u l).pairs = s.pairs := rfl
@[simp] theorem setLamp_copies (s : State) (u : Nat) (l : Lamp) : (setLamp s u l).copies = s.copies := rfl
@[simp] theorem setLamp_anvs (s : State) (u : Nat) (l : Lamp) : (setLamp s u l).anvs = s.anvs := rfl
@[simp] theorem setLamp_vaultOwner (s : State) (u : Nat) (l : Lamp) : (setLamp s u l).vaultOwner = s.vaultOwner := rfl
@[simp] theorem setLamp_notify (s : State) (u : Nat) (l : Lamp) : (setLamp s u l).notify = s.notify := rfl
@[simp] theorem setLamp_recSeq (s : State) (u : Nat) (l : Lamp) : (setLamp s u l).recSeq = s.recSeq := rfl
@[simp] theorem setLamp_placed (s : State) (u : Nat) (l : Lamp) : (setLamp s u l).placed = s.placed := rfl
@[simp] theorem setLamp_faultStores (s : State) (u : Nat) (l : Lamp) : (setLamp s u l).faultStores = s.faultStores := rfl
@[simp] theorem setLamp_host (s : State) (u : Nat) (l : Lamp) : (setLamp s u l).host = s.host := rfl
@[simp] theorem setLamp_bells (s : State) (u : Nat) (l : Lamp) : (setLamp s u l).bells = s.bells := rfl
@[simp] theorem setLamp_rings (s : State) (u : Nat) (l : Lamp) : (setLamp s u l).rings = s.rings := rfl
@[simp] theorem setLamp_tdis (s : State) (u : Nat) (l : Lamp) : (setLamp s u l).tdis = s.tdis := rfl
@[simp] theorem setLamp_spdm (s : State) (u : Nat) (l : Lamp) : (setLamp s u l).spdm = s.spdm := rfl
@[simp] theorem setLamp_spdmBeat (s : State) (u : Nat) (l : Lamp) : (setLamp s u l).spdmBeat = s.spdmBeat := rfl
@[simp] theorem setLamp_links (s : State) (u : Nat) (l : Lamp) : (setLamp s u l).links = s.links := rfl
@[simp] theorem setLamp_windows (s : State) (u : Nat) (l : Lamp) : (setLamp s u l).windows = s.windows := rfl
@[simp] theorem setLamp_dom (s : State) (u : Nat) (l : Lamp) : (setLamp s u l).dom = s.dom := rfl
@[simp] theorem setLamp_bellows (s : State) (u : Nat) (l : Lamp) : (setLamp s u l).bellows = s.bellows := rfl
@[simp] theorem setLamp_obs (s : State) (u : Nat) (l : Lamp) : (setLamp s u l).obs = s.obs := rfl
@[simp] theorem setLamp_ckpt (s : State) (u : Nat) (l : Lamp) : (setLamp s u l).ckpt = s.ckpt := rfl
@[simp] theorem setLamp_fw (s : State) (u : Nat) (l : Lamp) : (setLamp s u l).fw = s.fw := rfl
@[simp] theorem setLamp_msix (s : State) (u : Nat) (l : Lamp) : (setLamp s u l).msix = s.msix := rfl
@[simp] theorem setLamp_completion (s : State) (u : Nat) (l : Lamp) : (setLamp s u l).completion = s.completion := rfl
@[simp] theorem setLamp_gated (s : State) (u : Nat) (l : Lamp) : (setLamp s u l).gated = s.gated := rfl
@[simp] theorem setLamp_marks (s : State) (u : Nat) (l : Lamp) : (setLamp s u l).marks = s.marks := rfl
@[simp] theorem setLamp_msc (s : State) (u : Nat) (l : Lamp) : (setLamp s u l).msc = s.msc := rfl
@[simp] theorem setLamp_lampq (s : State) (u : Nat) (l : Lamp) : (setLamp s u l).lampq = s.lampq := rfl
@[simp] theorem setLamp_hostLow (s : State) (u : Nat) (l : Lamp) : (setLamp s u l).hostLow = s.hostLow := rfl
@[simp] theorem setLamp_regrant (s : State) (u : Nat) (l : Lamp) : (setLamp s u l).regrant = s.regrant := rfl
@[simp] theorem setLamp_peerq (s : State) (u : Nat) (l : Lamp) : (setLamp s u l).peerq = s.peerq := rfl
@[simp] theorem setLamp_saw (s : State) (u : Nat) (l : Lamp) : (setLamp s u l).saw = s.saw := rfl
@[simp] theorem setLamp_atsPages (s : State) (u : Nat) (l : Lamp) : (setLamp s u l).atsPages = s.atsPages := rfl
@[simp] theorem setLamp_xpend (s : State) (u : Nat) (l : Lamp) : (setLamp s u l).xpend = s.xpend := rfl
@[simp] theorem setLamp_outs (s : State) (u : Nat) (l : Lamp) : (setLamp s u l).outs = s.outs := rfl
@[simp] theorem setLamp_epoch (s : State) (u : Nat) (l : Lamp) : (setLamp s u l).epoch = s.epoch := rfl
@[simp] theorem setLamp_atsInvs (s : State) (u : Nat) (l : Lamp) : (setLamp s u l).atsInvs = s.atsInvs := rfl
@[simp] theorem setLamp_posted (s : State) (u : Nat) (l : Lamp) : (setLamp s u l).posted = s.posted := rfl
@[simp] theorem setLamp_hartRes (s : State) (u : Nat) (l : Lamp) : (setLamp s u l).hartRes = s.hartRes := rfl
@[simp] theorem setLamp_windowsSeen (s : State) (u : Nat) (l : Lamp) : (setLamp s u l).windowsSeen = s.windowsSeen := rfl

/-! ### swrite -/

@[simp] theorem swrite_sched (s : State) (g w n : Nat) (v : Word64) : (swrite s g w n v).sched = s.sched := rfl
@[simp] theorem swrite_issuer (s : State) (g w n : Nat) (v : Word64) : (swrite s g w n v).issuer = s.issuer := rfl
@[simp] theorem swrite_freeCtr (s : State) (g w n : Nat) (v : Word64) : (swrite s g w n v).freeCtr = s.freeCtr := rfl
@[simp] theorem swrite_nextId (s : State) (g w n : Nat) (v : Word64) : (swrite s g w n v).nextId = s.nextId := rfl
@[simp] theorem swrite_clock (s : State) (g w n : Nat) (v : Word64) : (swrite s g w n v).clock = s.clock := rfl
@[simp] theorem swrite_mem (s : State) (g w n : Nat) (v : Word64) : (swrite s g w n v).mem = s.mem := rfl
@[simp] theorem swrite_poison (s : State) (g w n : Nat) (v : Word64) : (swrite s g w n v).poison = s.poison := rfl
@[simp] theorem swrite_hostLines (s : State) (g w n : Nat) (v : Word64) : (swrite s g w n v).hostLines = s.hostLines := rfl
@[simp] theorem swrite_loads (s : State) (g w n : Nat) (v : Word64) : (swrite s g w n v).loads = s.loads := rfl
@[simp] theorem swrite_stores (s : State) (g w n : Nat) (v : Word64) : (swrite s g w n v).stores = s.stores := rfl
@[simp] theorem swrite_atoms (s : State) (g w n : Nat) (v : Word64) : (swrite s g w n v).atoms = s.atoms := rfl
@[simp] theorem swrite_dedup (s : State) (g w n : Nat) (v : Word64) : (swrite s g w n v).dedup = s.dedup := rfl
@[simp] theorem swrite_tlb (s : State) (g w n : Nat) (v : Word64) : (swrite s g w n v).tlb = s.tlb := rfl
@[simp] theorem swrite_walks (s : State) (g w n : Nat) (v : Word64) : (swrite s g w n v).walks = s.walks := rfl
@[simp] theorem swrite_contexts (s : State) (g w n : Nat) (v : Word64) : (swrite s g w n v).contexts = s.contexts := rfl
@[simp] theorem swrite_regions (s : State) (g w n : Nat) (v : Word64) : (swrite s g w n v).regions = s.regions := rfl
@[simp] theorem swrite_wgs (s : State) (g w n : Nat) (v : Word64) : (swrite s g w n v).wgs = s.wgs := rfl
@[simp] theorem swrite_cores (s : State) (g w n : Nat) (v : Word64) : (swrite s g w n v).cores = s.cores := rfl
@[simp] theorem swrite_lgs (s : State) (g w n : Nat) (v : Word64) : (swrite s g w n v).lgs = s.lgs := rfl
@[simp] theorem swrite_pairs (s : State) (g w n : Nat) (v : Word64) : (swrite s g w n v).pairs = s.pairs := rfl
@[simp] theorem swrite_copies (s : State) (g w n : Nat) (v : Word64) : (swrite s g w n v).copies = s.copies := rfl
@[simp] theorem swrite_anvs (s : State) (g w n : Nat) (v : Word64) : (swrite s g w n v).anvs = s.anvs := rfl
@[simp] theorem swrite_lamps (s : State) (g w n : Nat) (v : Word64) : (swrite s g w n v).lamps = s.lamps := rfl
@[simp] theorem swrite_vaultOwner (s : State) (g w n : Nat) (v : Word64) : (swrite s g w n v).vaultOwner = s.vaultOwner := rfl
@[simp] theorem swrite_notify (s : State) (g w n : Nat) (v : Word64) : (swrite s g w n v).notify = s.notify := rfl
@[simp] theorem swrite_recSeq (s : State) (g w n : Nat) (v : Word64) : (swrite s g w n v).recSeq = s.recSeq := rfl
@[simp] theorem swrite_placed (s : State) (g w n : Nat) (v : Word64) : (swrite s g w n v).placed = s.placed := rfl
@[simp] theorem swrite_faultStores (s : State) (g w n : Nat) (v : Word64) : (swrite s g w n v).faultStores = s.faultStores := rfl
@[simp] theorem swrite_host (s : State) (g w n : Nat) (v : Word64) : (swrite s g w n v).host = s.host := rfl
@[simp] theorem swrite_bells (s : State) (g w n : Nat) (v : Word64) : (swrite s g w n v).bells = s.bells := rfl
@[simp] theorem swrite_rings (s : State) (g w n : Nat) (v : Word64) : (swrite s g w n v).rings = s.rings := rfl
@[simp] theorem swrite_tdis (s : State) (g w n : Nat) (v : Word64) : (swrite s g w n v).tdis = s.tdis := rfl
@[simp] theorem swrite_spdm (s : State) (g w n : Nat) (v : Word64) : (swrite s g w n v).spdm = s.spdm := rfl
@[simp] theorem swrite_spdmBeat (s : State) (g w n : Nat) (v : Word64) : (swrite s g w n v).spdmBeat = s.spdmBeat := rfl
@[simp] theorem swrite_links (s : State) (g w n : Nat) (v : Word64) : (swrite s g w n v).links = s.links := rfl
@[simp] theorem swrite_windows (s : State) (g w n : Nat) (v : Word64) : (swrite s g w n v).windows = s.windows := rfl
@[simp] theorem swrite_dom (s : State) (g w n : Nat) (v : Word64) : (swrite s g w n v).dom = s.dom := rfl
@[simp] theorem swrite_bellows (s : State) (g w n : Nat) (v : Word64) : (swrite s g w n v).bellows = s.bellows := rfl
@[simp] theorem swrite_obs (s : State) (g w n : Nat) (v : Word64) : (swrite s g w n v).obs = s.obs := rfl
@[simp] theorem swrite_ckpt (s : State) (g w n : Nat) (v : Word64) : (swrite s g w n v).ckpt = s.ckpt := rfl
@[simp] theorem swrite_fw (s : State) (g w n : Nat) (v : Word64) : (swrite s g w n v).fw = s.fw := rfl
@[simp] theorem swrite_msix (s : State) (g w n : Nat) (v : Word64) : (swrite s g w n v).msix = s.msix := rfl
@[simp] theorem swrite_completion (s : State) (g w n : Nat) (v : Word64) : (swrite s g w n v).completion = s.completion := rfl
@[simp] theorem swrite_gated (s : State) (g w n : Nat) (v : Word64) : (swrite s g w n v).gated = s.gated := rfl
@[simp] theorem swrite_marks (s : State) (g w n : Nat) (v : Word64) : (swrite s g w n v).marks = s.marks := rfl
@[simp] theorem swrite_msc (s : State) (g w n : Nat) (v : Word64) : (swrite s g w n v).msc = s.msc := rfl
@[simp] theorem swrite_lampq (s : State) (g w n : Nat) (v : Word64) : (swrite s g w n v).lampq = s.lampq := rfl
@[simp] theorem swrite_hostLow (s : State) (g w n : Nat) (v : Word64) : (swrite s g w n v).hostLow = s.hostLow := rfl
@[simp] theorem swrite_regrant (s : State) (g w n : Nat) (v : Word64) : (swrite s g w n v).regrant = s.regrant := rfl
@[simp] theorem swrite_peerq (s : State) (g w n : Nat) (v : Word64) : (swrite s g w n v).peerq = s.peerq := rfl
@[simp] theorem swrite_saw (s : State) (g w n : Nat) (v : Word64) : (swrite s g w n v).saw = s.saw := rfl
@[simp] theorem swrite_atsPages (s : State) (g w n : Nat) (v : Word64) : (swrite s g w n v).atsPages = s.atsPages := rfl
@[simp] theorem swrite_xpend (s : State) (g w n : Nat) (v : Word64) : (swrite s g w n v).xpend = s.xpend := rfl
@[simp] theorem swrite_outs (s : State) (g w n : Nat) (v : Word64) : (swrite s g w n v).outs = s.outs := rfl
@[simp] theorem swrite_epoch (s : State) (g w n : Nat) (v : Word64) : (swrite s g w n v).epoch = s.epoch := rfl
@[simp] theorem swrite_atsInvs (s : State) (g w n : Nat) (v : Word64) : (swrite s g w n v).atsInvs = s.atsInvs := rfl
@[simp] theorem swrite_posted (s : State) (g w n : Nat) (v : Word64) : (swrite s g w n v).posted = s.posted := rfl
@[simp] theorem swrite_hartRes (s : State) (g w n : Nat) (v : Word64) : (swrite s g w n v).hartRes = s.hartRes := rfl
@[simp] theorem swrite_windowsSeen (s : State) (g w n : Nat) (v : Word64) : (swrite s g w n v).windowsSeen = s.windowsSeen := rfl

/-! ### mwrite -/

@[simp] theorem mwrite_sched (s : State) (g w n : Nat) (v : Lanes) : (mwrite s g w n v).sched = s.sched := rfl
@[simp] theorem mwrite_issuer (s : State) (g w n : Nat) (v : Lanes) : (mwrite s g w n v).issuer = s.issuer := rfl
@[simp] theorem mwrite_freeCtr (s : State) (g w n : Nat) (v : Lanes) : (mwrite s g w n v).freeCtr = s.freeCtr := rfl
@[simp] theorem mwrite_nextId (s : State) (g w n : Nat) (v : Lanes) : (mwrite s g w n v).nextId = s.nextId := rfl
@[simp] theorem mwrite_clock (s : State) (g w n : Nat) (v : Lanes) : (mwrite s g w n v).clock = s.clock := rfl
@[simp] theorem mwrite_mem (s : State) (g w n : Nat) (v : Lanes) : (mwrite s g w n v).mem = s.mem := rfl
@[simp] theorem mwrite_poison (s : State) (g w n : Nat) (v : Lanes) : (mwrite s g w n v).poison = s.poison := rfl
@[simp] theorem mwrite_hostLines (s : State) (g w n : Nat) (v : Lanes) : (mwrite s g w n v).hostLines = s.hostLines := rfl
@[simp] theorem mwrite_loads (s : State) (g w n : Nat) (v : Lanes) : (mwrite s g w n v).loads = s.loads := rfl
@[simp] theorem mwrite_stores (s : State) (g w n : Nat) (v : Lanes) : (mwrite s g w n v).stores = s.stores := rfl
@[simp] theorem mwrite_atoms (s : State) (g w n : Nat) (v : Lanes) : (mwrite s g w n v).atoms = s.atoms := rfl
@[simp] theorem mwrite_dedup (s : State) (g w n : Nat) (v : Lanes) : (mwrite s g w n v).dedup = s.dedup := rfl
@[simp] theorem mwrite_tlb (s : State) (g w n : Nat) (v : Lanes) : (mwrite s g w n v).tlb = s.tlb := rfl
@[simp] theorem mwrite_walks (s : State) (g w n : Nat) (v : Lanes) : (mwrite s g w n v).walks = s.walks := rfl
@[simp] theorem mwrite_contexts (s : State) (g w n : Nat) (v : Lanes) : (mwrite s g w n v).contexts = s.contexts := rfl
@[simp] theorem mwrite_regions (s : State) (g w n : Nat) (v : Lanes) : (mwrite s g w n v).regions = s.regions := rfl
@[simp] theorem mwrite_wgs (s : State) (g w n : Nat) (v : Lanes) : (mwrite s g w n v).wgs = s.wgs := rfl
@[simp] theorem mwrite_cores (s : State) (g w n : Nat) (v : Lanes) : (mwrite s g w n v).cores = s.cores := rfl
@[simp] theorem mwrite_lgs (s : State) (g w n : Nat) (v : Lanes) : (mwrite s g w n v).lgs = s.lgs := rfl
@[simp] theorem mwrite_pairs (s : State) (g w n : Nat) (v : Lanes) : (mwrite s g w n v).pairs = s.pairs := rfl
@[simp] theorem mwrite_copies (s : State) (g w n : Nat) (v : Lanes) : (mwrite s g w n v).copies = s.copies := rfl
@[simp] theorem mwrite_anvs (s : State) (g w n : Nat) (v : Lanes) : (mwrite s g w n v).anvs = s.anvs := rfl
@[simp] theorem mwrite_lamps (s : State) (g w n : Nat) (v : Lanes) : (mwrite s g w n v).lamps = s.lamps := rfl
@[simp] theorem mwrite_vaultOwner (s : State) (g w n : Nat) (v : Lanes) : (mwrite s g w n v).vaultOwner = s.vaultOwner := rfl
@[simp] theorem mwrite_notify (s : State) (g w n : Nat) (v : Lanes) : (mwrite s g w n v).notify = s.notify := rfl
@[simp] theorem mwrite_recSeq (s : State) (g w n : Nat) (v : Lanes) : (mwrite s g w n v).recSeq = s.recSeq := rfl
@[simp] theorem mwrite_placed (s : State) (g w n : Nat) (v : Lanes) : (mwrite s g w n v).placed = s.placed := rfl
@[simp] theorem mwrite_faultStores (s : State) (g w n : Nat) (v : Lanes) : (mwrite s g w n v).faultStores = s.faultStores := rfl
@[simp] theorem mwrite_host (s : State) (g w n : Nat) (v : Lanes) : (mwrite s g w n v).host = s.host := rfl
@[simp] theorem mwrite_bells (s : State) (g w n : Nat) (v : Lanes) : (mwrite s g w n v).bells = s.bells := rfl
@[simp] theorem mwrite_rings (s : State) (g w n : Nat) (v : Lanes) : (mwrite s g w n v).rings = s.rings := rfl
@[simp] theorem mwrite_tdis (s : State) (g w n : Nat) (v : Lanes) : (mwrite s g w n v).tdis = s.tdis := rfl
@[simp] theorem mwrite_spdm (s : State) (g w n : Nat) (v : Lanes) : (mwrite s g w n v).spdm = s.spdm := rfl
@[simp] theorem mwrite_spdmBeat (s : State) (g w n : Nat) (v : Lanes) : (mwrite s g w n v).spdmBeat = s.spdmBeat := rfl
@[simp] theorem mwrite_links (s : State) (g w n : Nat) (v : Lanes) : (mwrite s g w n v).links = s.links := rfl
@[simp] theorem mwrite_windows (s : State) (g w n : Nat) (v : Lanes) : (mwrite s g w n v).windows = s.windows := rfl
@[simp] theorem mwrite_dom (s : State) (g w n : Nat) (v : Lanes) : (mwrite s g w n v).dom = s.dom := rfl
@[simp] theorem mwrite_bellows (s : State) (g w n : Nat) (v : Lanes) : (mwrite s g w n v).bellows = s.bellows := rfl
@[simp] theorem mwrite_obs (s : State) (g w n : Nat) (v : Lanes) : (mwrite s g w n v).obs = s.obs := rfl
@[simp] theorem mwrite_ckpt (s : State) (g w n : Nat) (v : Lanes) : (mwrite s g w n v).ckpt = s.ckpt := rfl
@[simp] theorem mwrite_fw (s : State) (g w n : Nat) (v : Lanes) : (mwrite s g w n v).fw = s.fw := rfl
@[simp] theorem mwrite_msix (s : State) (g w n : Nat) (v : Lanes) : (mwrite s g w n v).msix = s.msix := rfl
@[simp] theorem mwrite_completion (s : State) (g w n : Nat) (v : Lanes) : (mwrite s g w n v).completion = s.completion := rfl
@[simp] theorem mwrite_gated (s : State) (g w n : Nat) (v : Lanes) : (mwrite s g w n v).gated = s.gated := rfl
@[simp] theorem mwrite_marks (s : State) (g w n : Nat) (v : Lanes) : (mwrite s g w n v).marks = s.marks := rfl
@[simp] theorem mwrite_msc (s : State) (g w n : Nat) (v : Lanes) : (mwrite s g w n v).msc = s.msc := rfl
@[simp] theorem mwrite_lampq (s : State) (g w n : Nat) (v : Lanes) : (mwrite s g w n v).lampq = s.lampq := rfl
@[simp] theorem mwrite_hostLow (s : State) (g w n : Nat) (v : Lanes) : (mwrite s g w n v).hostLow = s.hostLow := rfl
@[simp] theorem mwrite_regrant (s : State) (g w n : Nat) (v : Lanes) : (mwrite s g w n v).regrant = s.regrant := rfl
@[simp] theorem mwrite_peerq (s : State) (g w n : Nat) (v : Lanes) : (mwrite s g w n v).peerq = s.peerq := rfl
@[simp] theorem mwrite_saw (s : State) (g w n : Nat) (v : Lanes) : (mwrite s g w n v).saw = s.saw := rfl
@[simp] theorem mwrite_atsPages (s : State) (g w n : Nat) (v : Lanes) : (mwrite s g w n v).atsPages = s.atsPages := rfl
@[simp] theorem mwrite_xpend (s : State) (g w n : Nat) (v : Lanes) : (mwrite s g w n v).xpend = s.xpend := rfl
@[simp] theorem mwrite_outs (s : State) (g w n : Nat) (v : Lanes) : (mwrite s g w n v).outs = s.outs := rfl
@[simp] theorem mwrite_epoch (s : State) (g w n : Nat) (v : Lanes) : (mwrite s g w n v).epoch = s.epoch := rfl
@[simp] theorem mwrite_atsInvs (s : State) (g w n : Nat) (v : Lanes) : (mwrite s g w n v).atsInvs = s.atsInvs := rfl
@[simp] theorem mwrite_posted (s : State) (g w n : Nat) (v : Lanes) : (mwrite s g w n v).posted = s.posted := rfl
@[simp] theorem mwrite_hartRes (s : State) (g w n : Nat) (v : Lanes) : (mwrite s g w n v).hartRes = s.hartRes := rfl
@[simp] theorem mwrite_windowsSeen (s : State) (g w n : Nat) (v : Lanes) : (mwrite s g w n v).windowsSeen = s.windowsSeen := rfl

/-! ### raiseFlags -/

@[simp] theorem raiseFlags_sched (s : State) (g w : Nat) (fl : BitVec 5) : (raiseFlags s g w fl).sched = s.sched := rfl
@[simp] theorem raiseFlags_issuer (s : State) (g w : Nat) (fl : BitVec 5) : (raiseFlags s g w fl).issuer = s.issuer := rfl
@[simp] theorem raiseFlags_freeCtr (s : State) (g w : Nat) (fl : BitVec 5) : (raiseFlags s g w fl).freeCtr = s.freeCtr := rfl
@[simp] theorem raiseFlags_nextId (s : State) (g w : Nat) (fl : BitVec 5) : (raiseFlags s g w fl).nextId = s.nextId := rfl
@[simp] theorem raiseFlags_clock (s : State) (g w : Nat) (fl : BitVec 5) : (raiseFlags s g w fl).clock = s.clock := rfl
@[simp] theorem raiseFlags_mem (s : State) (g w : Nat) (fl : BitVec 5) : (raiseFlags s g w fl).mem = s.mem := rfl
@[simp] theorem raiseFlags_poison (s : State) (g w : Nat) (fl : BitVec 5) : (raiseFlags s g w fl).poison = s.poison := rfl
@[simp] theorem raiseFlags_hostLines (s : State) (g w : Nat) (fl : BitVec 5) : (raiseFlags s g w fl).hostLines = s.hostLines := rfl
@[simp] theorem raiseFlags_loads (s : State) (g w : Nat) (fl : BitVec 5) : (raiseFlags s g w fl).loads = s.loads := rfl
@[simp] theorem raiseFlags_stores (s : State) (g w : Nat) (fl : BitVec 5) : (raiseFlags s g w fl).stores = s.stores := rfl
@[simp] theorem raiseFlags_atoms (s : State) (g w : Nat) (fl : BitVec 5) : (raiseFlags s g w fl).atoms = s.atoms := rfl
@[simp] theorem raiseFlags_dedup (s : State) (g w : Nat) (fl : BitVec 5) : (raiseFlags s g w fl).dedup = s.dedup := rfl
@[simp] theorem raiseFlags_tlb (s : State) (g w : Nat) (fl : BitVec 5) : (raiseFlags s g w fl).tlb = s.tlb := rfl
@[simp] theorem raiseFlags_walks (s : State) (g w : Nat) (fl : BitVec 5) : (raiseFlags s g w fl).walks = s.walks := rfl
@[simp] theorem raiseFlags_contexts (s : State) (g w : Nat) (fl : BitVec 5) : (raiseFlags s g w fl).contexts = s.contexts := rfl
@[simp] theorem raiseFlags_regions (s : State) (g w : Nat) (fl : BitVec 5) : (raiseFlags s g w fl).regions = s.regions := rfl
@[simp] theorem raiseFlags_wgs (s : State) (g w : Nat) (fl : BitVec 5) : (raiseFlags s g w fl).wgs = s.wgs := rfl
@[simp] theorem raiseFlags_cores (s : State) (g w : Nat) (fl : BitVec 5) : (raiseFlags s g w fl).cores = s.cores := rfl
@[simp] theorem raiseFlags_lgs (s : State) (g w : Nat) (fl : BitVec 5) : (raiseFlags s g w fl).lgs = s.lgs := rfl
@[simp] theorem raiseFlags_pairs (s : State) (g w : Nat) (fl : BitVec 5) : (raiseFlags s g w fl).pairs = s.pairs := rfl
@[simp] theorem raiseFlags_copies (s : State) (g w : Nat) (fl : BitVec 5) : (raiseFlags s g w fl).copies = s.copies := rfl
@[simp] theorem raiseFlags_anvs (s : State) (g w : Nat) (fl : BitVec 5) : (raiseFlags s g w fl).anvs = s.anvs := rfl
@[simp] theorem raiseFlags_lamps (s : State) (g w : Nat) (fl : BitVec 5) : (raiseFlags s g w fl).lamps = s.lamps := rfl
@[simp] theorem raiseFlags_vaultOwner (s : State) (g w : Nat) (fl : BitVec 5) : (raiseFlags s g w fl).vaultOwner = s.vaultOwner := rfl
@[simp] theorem raiseFlags_notify (s : State) (g w : Nat) (fl : BitVec 5) : (raiseFlags s g w fl).notify = s.notify := rfl
@[simp] theorem raiseFlags_recSeq (s : State) (g w : Nat) (fl : BitVec 5) : (raiseFlags s g w fl).recSeq = s.recSeq := rfl
@[simp] theorem raiseFlags_placed (s : State) (g w : Nat) (fl : BitVec 5) : (raiseFlags s g w fl).placed = s.placed := rfl
@[simp] theorem raiseFlags_faultStores (s : State) (g w : Nat) (fl : BitVec 5) : (raiseFlags s g w fl).faultStores = s.faultStores := rfl
@[simp] theorem raiseFlags_host (s : State) (g w : Nat) (fl : BitVec 5) : (raiseFlags s g w fl).host = s.host := rfl
@[simp] theorem raiseFlags_bells (s : State) (g w : Nat) (fl : BitVec 5) : (raiseFlags s g w fl).bells = s.bells := rfl
@[simp] theorem raiseFlags_rings (s : State) (g w : Nat) (fl : BitVec 5) : (raiseFlags s g w fl).rings = s.rings := rfl
@[simp] theorem raiseFlags_tdis (s : State) (g w : Nat) (fl : BitVec 5) : (raiseFlags s g w fl).tdis = s.tdis := rfl
@[simp] theorem raiseFlags_spdm (s : State) (g w : Nat) (fl : BitVec 5) : (raiseFlags s g w fl).spdm = s.spdm := rfl
@[simp] theorem raiseFlags_spdmBeat (s : State) (g w : Nat) (fl : BitVec 5) : (raiseFlags s g w fl).spdmBeat = s.spdmBeat := rfl
@[simp] theorem raiseFlags_links (s : State) (g w : Nat) (fl : BitVec 5) : (raiseFlags s g w fl).links = s.links := rfl
@[simp] theorem raiseFlags_windows (s : State) (g w : Nat) (fl : BitVec 5) : (raiseFlags s g w fl).windows = s.windows := rfl
@[simp] theorem raiseFlags_dom (s : State) (g w : Nat) (fl : BitVec 5) : (raiseFlags s g w fl).dom = s.dom := rfl
@[simp] theorem raiseFlags_bellows (s : State) (g w : Nat) (fl : BitVec 5) : (raiseFlags s g w fl).bellows = s.bellows := rfl
@[simp] theorem raiseFlags_obs (s : State) (g w : Nat) (fl : BitVec 5) : (raiseFlags s g w fl).obs = s.obs := rfl
@[simp] theorem raiseFlags_ckpt (s : State) (g w : Nat) (fl : BitVec 5) : (raiseFlags s g w fl).ckpt = s.ckpt := rfl
@[simp] theorem raiseFlags_fw (s : State) (g w : Nat) (fl : BitVec 5) : (raiseFlags s g w fl).fw = s.fw := rfl
@[simp] theorem raiseFlags_msix (s : State) (g w : Nat) (fl : BitVec 5) : (raiseFlags s g w fl).msix = s.msix := rfl
@[simp] theorem raiseFlags_completion (s : State) (g w : Nat) (fl : BitVec 5) : (raiseFlags s g w fl).completion = s.completion := rfl
@[simp] theorem raiseFlags_gated (s : State) (g w : Nat) (fl : BitVec 5) : (raiseFlags s g w fl).gated = s.gated := rfl
@[simp] theorem raiseFlags_marks (s : State) (g w : Nat) (fl : BitVec 5) : (raiseFlags s g w fl).marks = s.marks := rfl
@[simp] theorem raiseFlags_msc (s : State) (g w : Nat) (fl : BitVec 5) : (raiseFlags s g w fl).msc = s.msc := rfl
@[simp] theorem raiseFlags_lampq (s : State) (g w : Nat) (fl : BitVec 5) : (raiseFlags s g w fl).lampq = s.lampq := rfl
@[simp] theorem raiseFlags_hostLow (s : State) (g w : Nat) (fl : BitVec 5) : (raiseFlags s g w fl).hostLow = s.hostLow := rfl
@[simp] theorem raiseFlags_regrant (s : State) (g w : Nat) (fl : BitVec 5) : (raiseFlags s g w fl).regrant = s.regrant := rfl
@[simp] theorem raiseFlags_peerq (s : State) (g w : Nat) (fl : BitVec 5) : (raiseFlags s g w fl).peerq = s.peerq := rfl
@[simp] theorem raiseFlags_saw (s : State) (g w : Nat) (fl : BitVec 5) : (raiseFlags s g w fl).saw = s.saw := rfl
@[simp] theorem raiseFlags_atsPages (s : State) (g w : Nat) (fl : BitVec 5) : (raiseFlags s g w fl).atsPages = s.atsPages := rfl
@[simp] theorem raiseFlags_xpend (s : State) (g w : Nat) (fl : BitVec 5) : (raiseFlags s g w fl).xpend = s.xpend := rfl
@[simp] theorem raiseFlags_outs (s : State) (g w : Nat) (fl : BitVec 5) : (raiseFlags s g w fl).outs = s.outs := rfl
@[simp] theorem raiseFlags_epoch (s : State) (g w : Nat) (fl : BitVec 5) : (raiseFlags s g w fl).epoch = s.epoch := rfl
@[simp] theorem raiseFlags_atsInvs (s : State) (g w : Nat) (fl : BitVec 5) : (raiseFlags s g w fl).atsInvs = s.atsInvs := rfl
@[simp] theorem raiseFlags_posted (s : State) (g w : Nat) (fl : BitVec 5) : (raiseFlags s g w fl).posted = s.posted := rfl
@[simp] theorem raiseFlags_hartRes (s : State) (g w : Nat) (fl : BitVec 5) : (raiseFlags s g w fl).hartRes = s.hartRes := rfl
@[simp] theorem raiseFlags_windowsSeen (s : State) (g w : Nat) (fl : BitVec 5) : (raiseFlags s g w fl).windowsSeen = s.windowsSeen := rfl

/-! ### setPc -/

@[simp] theorem setPc_sched (s : State) (g w e : Nat) (pc : Word64) : (setPc s g w e pc).sched = s.sched := rfl
@[simp] theorem setPc_issuer (s : State) (g w e : Nat) (pc : Word64) : (setPc s g w e pc).issuer = s.issuer := rfl
@[simp] theorem setPc_freeCtr (s : State) (g w e : Nat) (pc : Word64) : (setPc s g w e pc).freeCtr = s.freeCtr := rfl
@[simp] theorem setPc_nextId (s : State) (g w e : Nat) (pc : Word64) : (setPc s g w e pc).nextId = s.nextId := rfl
@[simp] theorem setPc_clock (s : State) (g w e : Nat) (pc : Word64) : (setPc s g w e pc).clock = s.clock := rfl
@[simp] theorem setPc_mem (s : State) (g w e : Nat) (pc : Word64) : (setPc s g w e pc).mem = s.mem := rfl
@[simp] theorem setPc_poison (s : State) (g w e : Nat) (pc : Word64) : (setPc s g w e pc).poison = s.poison := rfl
@[simp] theorem setPc_hostLines (s : State) (g w e : Nat) (pc : Word64) : (setPc s g w e pc).hostLines = s.hostLines := rfl
@[simp] theorem setPc_loads (s : State) (g w e : Nat) (pc : Word64) : (setPc s g w e pc).loads = s.loads := rfl
@[simp] theorem setPc_stores (s : State) (g w e : Nat) (pc : Word64) : (setPc s g w e pc).stores = s.stores := rfl
@[simp] theorem setPc_atoms (s : State) (g w e : Nat) (pc : Word64) : (setPc s g w e pc).atoms = s.atoms := rfl
@[simp] theorem setPc_dedup (s : State) (g w e : Nat) (pc : Word64) : (setPc s g w e pc).dedup = s.dedup := rfl
@[simp] theorem setPc_tlb (s : State) (g w e : Nat) (pc : Word64) : (setPc s g w e pc).tlb = s.tlb := rfl
@[simp] theorem setPc_walks (s : State) (g w e : Nat) (pc : Word64) : (setPc s g w e pc).walks = s.walks := rfl
@[simp] theorem setPc_contexts (s : State) (g w e : Nat) (pc : Word64) : (setPc s g w e pc).contexts = s.contexts := rfl
@[simp] theorem setPc_regions (s : State) (g w e : Nat) (pc : Word64) : (setPc s g w e pc).regions = s.regions := rfl
@[simp] theorem setPc_wgs (s : State) (g w e : Nat) (pc : Word64) : (setPc s g w e pc).wgs = s.wgs := rfl
@[simp] theorem setPc_cores (s : State) (g w e : Nat) (pc : Word64) : (setPc s g w e pc).cores = s.cores := rfl
@[simp] theorem setPc_lgs (s : State) (g w e : Nat) (pc : Word64) : (setPc s g w e pc).lgs = s.lgs := rfl
@[simp] theorem setPc_pairs (s : State) (g w e : Nat) (pc : Word64) : (setPc s g w e pc).pairs = s.pairs := rfl
@[simp] theorem setPc_copies (s : State) (g w e : Nat) (pc : Word64) : (setPc s g w e pc).copies = s.copies := rfl
@[simp] theorem setPc_anvs (s : State) (g w e : Nat) (pc : Word64) : (setPc s g w e pc).anvs = s.anvs := rfl
@[simp] theorem setPc_lamps (s : State) (g w e : Nat) (pc : Word64) : (setPc s g w e pc).lamps = s.lamps := rfl
@[simp] theorem setPc_vaultOwner (s : State) (g w e : Nat) (pc : Word64) : (setPc s g w e pc).vaultOwner = s.vaultOwner := rfl
@[simp] theorem setPc_notify (s : State) (g w e : Nat) (pc : Word64) : (setPc s g w e pc).notify = s.notify := rfl
@[simp] theorem setPc_recSeq (s : State) (g w e : Nat) (pc : Word64) : (setPc s g w e pc).recSeq = s.recSeq := rfl
@[simp] theorem setPc_placed (s : State) (g w e : Nat) (pc : Word64) : (setPc s g w e pc).placed = s.placed := rfl
@[simp] theorem setPc_faultStores (s : State) (g w e : Nat) (pc : Word64) : (setPc s g w e pc).faultStores = s.faultStores := rfl
@[simp] theorem setPc_host (s : State) (g w e : Nat) (pc : Word64) : (setPc s g w e pc).host = s.host := rfl
@[simp] theorem setPc_bells (s : State) (g w e : Nat) (pc : Word64) : (setPc s g w e pc).bells = s.bells := rfl
@[simp] theorem setPc_rings (s : State) (g w e : Nat) (pc : Word64) : (setPc s g w e pc).rings = s.rings := rfl
@[simp] theorem setPc_tdis (s : State) (g w e : Nat) (pc : Word64) : (setPc s g w e pc).tdis = s.tdis := rfl
@[simp] theorem setPc_spdm (s : State) (g w e : Nat) (pc : Word64) : (setPc s g w e pc).spdm = s.spdm := rfl
@[simp] theorem setPc_spdmBeat (s : State) (g w e : Nat) (pc : Word64) : (setPc s g w e pc).spdmBeat = s.spdmBeat := rfl
@[simp] theorem setPc_links (s : State) (g w e : Nat) (pc : Word64) : (setPc s g w e pc).links = s.links := rfl
@[simp] theorem setPc_windows (s : State) (g w e : Nat) (pc : Word64) : (setPc s g w e pc).windows = s.windows := rfl
@[simp] theorem setPc_dom (s : State) (g w e : Nat) (pc : Word64) : (setPc s g w e pc).dom = s.dom := rfl
@[simp] theorem setPc_bellows (s : State) (g w e : Nat) (pc : Word64) : (setPc s g w e pc).bellows = s.bellows := rfl
@[simp] theorem setPc_obs (s : State) (g w e : Nat) (pc : Word64) : (setPc s g w e pc).obs = s.obs := rfl
@[simp] theorem setPc_ckpt (s : State) (g w e : Nat) (pc : Word64) : (setPc s g w e pc).ckpt = s.ckpt := rfl
@[simp] theorem setPc_fw (s : State) (g w e : Nat) (pc : Word64) : (setPc s g w e pc).fw = s.fw := rfl
@[simp] theorem setPc_msix (s : State) (g w e : Nat) (pc : Word64) : (setPc s g w e pc).msix = s.msix := rfl
@[simp] theorem setPc_completion (s : State) (g w e : Nat) (pc : Word64) : (setPc s g w e pc).completion = s.completion := rfl
@[simp] theorem setPc_gated (s : State) (g w e : Nat) (pc : Word64) : (setPc s g w e pc).gated = s.gated := rfl
@[simp] theorem setPc_marks (s : State) (g w e : Nat) (pc : Word64) : (setPc s g w e pc).marks = s.marks := rfl
@[simp] theorem setPc_msc (s : State) (g w e : Nat) (pc : Word64) : (setPc s g w e pc).msc = s.msc := rfl
@[simp] theorem setPc_lampq (s : State) (g w e : Nat) (pc : Word64) : (setPc s g w e pc).lampq = s.lampq := rfl
@[simp] theorem setPc_hostLow (s : State) (g w e : Nat) (pc : Word64) : (setPc s g w e pc).hostLow = s.hostLow := rfl
@[simp] theorem setPc_regrant (s : State) (g w e : Nat) (pc : Word64) : (setPc s g w e pc).regrant = s.regrant := rfl
@[simp] theorem setPc_peerq (s : State) (g w e : Nat) (pc : Word64) : (setPc s g w e pc).peerq = s.peerq := rfl
@[simp] theorem setPc_saw (s : State) (g w e : Nat) (pc : Word64) : (setPc s g w e pc).saw = s.saw := rfl
@[simp] theorem setPc_atsPages (s : State) (g w e : Nat) (pc : Word64) : (setPc s g w e pc).atsPages = s.atsPages := rfl
@[simp] theorem setPc_xpend (s : State) (g w e : Nat) (pc : Word64) : (setPc s g w e pc).xpend = s.xpend := rfl
@[simp] theorem setPc_outs (s : State) (g w e : Nat) (pc : Word64) : (setPc s g w e pc).outs = s.outs := rfl
@[simp] theorem setPc_epoch (s : State) (g w e : Nat) (pc : Word64) : (setPc s g w e pc).epoch = s.epoch := rfl
@[simp] theorem setPc_atsInvs (s : State) (g w e : Nat) (pc : Word64) : (setPc s g w e pc).atsInvs = s.atsInvs := rfl
@[simp] theorem setPc_posted (s : State) (g w e : Nat) (pc : Word64) : (setPc s g w e pc).posted = s.posted := rfl
@[simp] theorem setPc_hartRes (s : State) (g w e : Nat) (pc : Word64) : (setPc s g w e pc).hartRes = s.hartRes := rfl
@[simp] theorem setPc_windowsSeen (s : State) (g w e : Nat) (pc : Word64) : (setPc s g w e pc).windowsSeen = s.windowsSeen := rfl

/-! ### putCells -/

@[simp] theorem putCells_sched (s : State) (cs : List Host.Cell) : (putCells s cs).sched = s.sched := rfl
@[simp] theorem putCells_issuer (s : State) (cs : List Host.Cell) : (putCells s cs).issuer = s.issuer := rfl
@[simp] theorem putCells_freeCtr (s : State) (cs : List Host.Cell) : (putCells s cs).freeCtr = s.freeCtr := rfl
@[simp] theorem putCells_nextId (s : State) (cs : List Host.Cell) : (putCells s cs).nextId = s.nextId := rfl
@[simp] theorem putCells_clock (s : State) (cs : List Host.Cell) : (putCells s cs).clock = s.clock := rfl
@[simp] theorem putCells_hostLines (s : State) (cs : List Host.Cell) : (putCells s cs).hostLines = s.hostLines := rfl
@[simp] theorem putCells_loads (s : State) (cs : List Host.Cell) : (putCells s cs).loads = s.loads := rfl
@[simp] theorem putCells_stores (s : State) (cs : List Host.Cell) : (putCells s cs).stores = s.stores := rfl
@[simp] theorem putCells_atoms (s : State) (cs : List Host.Cell) : (putCells s cs).atoms = s.atoms := rfl
@[simp] theorem putCells_dedup (s : State) (cs : List Host.Cell) : (putCells s cs).dedup = s.dedup := rfl
@[simp] theorem putCells_tlb (s : State) (cs : List Host.Cell) : (putCells s cs).tlb = s.tlb := rfl
@[simp] theorem putCells_walks (s : State) (cs : List Host.Cell) : (putCells s cs).walks = s.walks := rfl
@[simp] theorem putCells_contexts (s : State) (cs : List Host.Cell) : (putCells s cs).contexts = s.contexts := rfl
@[simp] theorem putCells_regions (s : State) (cs : List Host.Cell) : (putCells s cs).regions = s.regions := rfl
@[simp] theorem putCells_wgs (s : State) (cs : List Host.Cell) : (putCells s cs).wgs = s.wgs := rfl
@[simp] theorem putCells_warps (s : State) (cs : List Host.Cell) : (putCells s cs).warps = s.warps := rfl
@[simp] theorem putCells_cores (s : State) (cs : List Host.Cell) : (putCells s cs).cores = s.cores := rfl
@[simp] theorem putCells_lgs (s : State) (cs : List Host.Cell) : (putCells s cs).lgs = s.lgs := rfl
@[simp] theorem putCells_pairs (s : State) (cs : List Host.Cell) : (putCells s cs).pairs = s.pairs := rfl
@[simp] theorem putCells_copies (s : State) (cs : List Host.Cell) : (putCells s cs).copies = s.copies := rfl
@[simp] theorem putCells_anvs (s : State) (cs : List Host.Cell) : (putCells s cs).anvs = s.anvs := rfl
@[simp] theorem putCells_lamps (s : State) (cs : List Host.Cell) : (putCells s cs).lamps = s.lamps := rfl
@[simp] theorem putCells_vaultOwner (s : State) (cs : List Host.Cell) : (putCells s cs).vaultOwner = s.vaultOwner := rfl
@[simp] theorem putCells_notify (s : State) (cs : List Host.Cell) : (putCells s cs).notify = s.notify := rfl
@[simp] theorem putCells_recSeq (s : State) (cs : List Host.Cell) : (putCells s cs).recSeq = s.recSeq := rfl
@[simp] theorem putCells_placed (s : State) (cs : List Host.Cell) : (putCells s cs).placed = s.placed := rfl
@[simp] theorem putCells_faultStores (s : State) (cs : List Host.Cell) : (putCells s cs).faultStores = s.faultStores := rfl
@[simp] theorem putCells_host (s : State) (cs : List Host.Cell) : (putCells s cs).host = s.host := rfl
@[simp] theorem putCells_bells (s : State) (cs : List Host.Cell) : (putCells s cs).bells = s.bells := rfl
@[simp] theorem putCells_rings (s : State) (cs : List Host.Cell) : (putCells s cs).rings = s.rings := rfl
@[simp] theorem putCells_tdis (s : State) (cs : List Host.Cell) : (putCells s cs).tdis = s.tdis := rfl
@[simp] theorem putCells_spdm (s : State) (cs : List Host.Cell) : (putCells s cs).spdm = s.spdm := rfl
@[simp] theorem putCells_spdmBeat (s : State) (cs : List Host.Cell) : (putCells s cs).spdmBeat = s.spdmBeat := rfl
@[simp] theorem putCells_links (s : State) (cs : List Host.Cell) : (putCells s cs).links = s.links := rfl
@[simp] theorem putCells_windows (s : State) (cs : List Host.Cell) : (putCells s cs).windows = s.windows := rfl
@[simp] theorem putCells_dom (s : State) (cs : List Host.Cell) : (putCells s cs).dom = s.dom := rfl
@[simp] theorem putCells_bellows (s : State) (cs : List Host.Cell) : (putCells s cs).bellows = s.bellows := rfl
@[simp] theorem putCells_obs (s : State) (cs : List Host.Cell) : (putCells s cs).obs = s.obs := rfl
@[simp] theorem putCells_ckpt (s : State) (cs : List Host.Cell) : (putCells s cs).ckpt = s.ckpt := rfl
@[simp] theorem putCells_fw (s : State) (cs : List Host.Cell) : (putCells s cs).fw = s.fw := rfl
@[simp] theorem putCells_msix (s : State) (cs : List Host.Cell) : (putCells s cs).msix = s.msix := rfl
@[simp] theorem putCells_completion (s : State) (cs : List Host.Cell) : (putCells s cs).completion = s.completion := rfl
@[simp] theorem putCells_gated (s : State) (cs : List Host.Cell) : (putCells s cs).gated = s.gated := rfl
@[simp] theorem putCells_marks (s : State) (cs : List Host.Cell) : (putCells s cs).marks = s.marks := rfl
@[simp] theorem putCells_msc (s : State) (cs : List Host.Cell) : (putCells s cs).msc = s.msc := rfl
@[simp] theorem putCells_lampq (s : State) (cs : List Host.Cell) : (putCells s cs).lampq = s.lampq := rfl
@[simp] theorem putCells_hostLow (s : State) (cs : List Host.Cell) : (putCells s cs).hostLow = s.hostLow := rfl
@[simp] theorem putCells_regrant (s : State) (cs : List Host.Cell) : (putCells s cs).regrant = s.regrant := rfl
@[simp] theorem putCells_peerq (s : State) (cs : List Host.Cell) : (putCells s cs).peerq = s.peerq := rfl
@[simp] theorem putCells_saw (s : State) (cs : List Host.Cell) : (putCells s cs).saw = s.saw := rfl
@[simp] theorem putCells_atsPages (s : State) (cs : List Host.Cell) : (putCells s cs).atsPages = s.atsPages := rfl
@[simp] theorem putCells_xpend (s : State) (cs : List Host.Cell) : (putCells s cs).xpend = s.xpend := rfl
@[simp] theorem putCells_outs (s : State) (cs : List Host.Cell) : (putCells s cs).outs = s.outs := rfl
@[simp] theorem putCells_epoch (s : State) (cs : List Host.Cell) : (putCells s cs).epoch = s.epoch := rfl
@[simp] theorem putCells_atsInvs (s : State) (cs : List Host.Cell) : (putCells s cs).atsInvs = s.atsInvs := rfl
@[simp] theorem putCells_posted (s : State) (cs : List Host.Cell) : (putCells s cs).posted = s.posted := rfl
@[simp] theorem putCells_hartRes (s : State) (cs : List Host.Cell) : (putCells s cs).hartRes = s.hartRes := rfl
@[simp] theorem putCells_windowsSeen (s : State) (cs : List Host.Cell) : (putCells s cs).windowsSeen = s.windowsSeen := rfl

/-! ### zeroRange -/

@[simp] theorem zeroRange_sched (s : State) (k n : Nat) : (zeroRange s k n).sched = s.sched := rfl
@[simp] theorem zeroRange_issuer (s : State) (k n : Nat) : (zeroRange s k n).issuer = s.issuer := rfl
@[simp] theorem zeroRange_freeCtr (s : State) (k n : Nat) : (zeroRange s k n).freeCtr = s.freeCtr := rfl
@[simp] theorem zeroRange_nextId (s : State) (k n : Nat) : (zeroRange s k n).nextId = s.nextId := rfl
@[simp] theorem zeroRange_clock (s : State) (k n : Nat) : (zeroRange s k n).clock = s.clock := rfl
@[simp] theorem zeroRange_hostLines (s : State) (k n : Nat) : (zeroRange s k n).hostLines = s.hostLines := rfl
@[simp] theorem zeroRange_loads (s : State) (k n : Nat) : (zeroRange s k n).loads = s.loads := rfl
@[simp] theorem zeroRange_stores (s : State) (k n : Nat) : (zeroRange s k n).stores = s.stores := rfl
@[simp] theorem zeroRange_atoms (s : State) (k n : Nat) : (zeroRange s k n).atoms = s.atoms := rfl
@[simp] theorem zeroRange_dedup (s : State) (k n : Nat) : (zeroRange s k n).dedup = s.dedup := rfl
@[simp] theorem zeroRange_tlb (s : State) (k n : Nat) : (zeroRange s k n).tlb = s.tlb := rfl
@[simp] theorem zeroRange_walks (s : State) (k n : Nat) : (zeroRange s k n).walks = s.walks := rfl
@[simp] theorem zeroRange_contexts (s : State) (k n : Nat) : (zeroRange s k n).contexts = s.contexts := rfl
@[simp] theorem zeroRange_regions (s : State) (k n : Nat) : (zeroRange s k n).regions = s.regions := rfl
@[simp] theorem zeroRange_wgs (s : State) (k n : Nat) : (zeroRange s k n).wgs = s.wgs := rfl
@[simp] theorem zeroRange_warps (s : State) (k n : Nat) : (zeroRange s k n).warps = s.warps := rfl
@[simp] theorem zeroRange_cores (s : State) (k n : Nat) : (zeroRange s k n).cores = s.cores := rfl
@[simp] theorem zeroRange_lgs (s : State) (k n : Nat) : (zeroRange s k n).lgs = s.lgs := rfl
@[simp] theorem zeroRange_pairs (s : State) (k n : Nat) : (zeroRange s k n).pairs = s.pairs := rfl
@[simp] theorem zeroRange_copies (s : State) (k n : Nat) : (zeroRange s k n).copies = s.copies := rfl
@[simp] theorem zeroRange_anvs (s : State) (k n : Nat) : (zeroRange s k n).anvs = s.anvs := rfl
@[simp] theorem zeroRange_lamps (s : State) (k n : Nat) : (zeroRange s k n).lamps = s.lamps := rfl
@[simp] theorem zeroRange_vaultOwner (s : State) (k n : Nat) : (zeroRange s k n).vaultOwner = s.vaultOwner := rfl
@[simp] theorem zeroRange_notify (s : State) (k n : Nat) : (zeroRange s k n).notify = s.notify := rfl
@[simp] theorem zeroRange_recSeq (s : State) (k n : Nat) : (zeroRange s k n).recSeq = s.recSeq := rfl
@[simp] theorem zeroRange_placed (s : State) (k n : Nat) : (zeroRange s k n).placed = s.placed := rfl
@[simp] theorem zeroRange_faultStores (s : State) (k n : Nat) : (zeroRange s k n).faultStores = s.faultStores := rfl
@[simp] theorem zeroRange_host (s : State) (k n : Nat) : (zeroRange s k n).host = s.host := rfl
@[simp] theorem zeroRange_bells (s : State) (k n : Nat) : (zeroRange s k n).bells = s.bells := rfl
@[simp] theorem zeroRange_rings (s : State) (k n : Nat) : (zeroRange s k n).rings = s.rings := rfl
@[simp] theorem zeroRange_tdis (s : State) (k n : Nat) : (zeroRange s k n).tdis = s.tdis := rfl
@[simp] theorem zeroRange_spdm (s : State) (k n : Nat) : (zeroRange s k n).spdm = s.spdm := rfl
@[simp] theorem zeroRange_spdmBeat (s : State) (k n : Nat) : (zeroRange s k n).spdmBeat = s.spdmBeat := rfl
@[simp] theorem zeroRange_links (s : State) (k n : Nat) : (zeroRange s k n).links = s.links := rfl
@[simp] theorem zeroRange_windows (s : State) (k n : Nat) : (zeroRange s k n).windows = s.windows := rfl
@[simp] theorem zeroRange_dom (s : State) (k n : Nat) : (zeroRange s k n).dom = s.dom := rfl
@[simp] theorem zeroRange_bellows (s : State) (k n : Nat) : (zeroRange s k n).bellows = s.bellows := rfl
@[simp] theorem zeroRange_obs (s : State) (k n : Nat) : (zeroRange s k n).obs = s.obs := rfl
@[simp] theorem zeroRange_ckpt (s : State) (k n : Nat) : (zeroRange s k n).ckpt = s.ckpt := rfl
@[simp] theorem zeroRange_fw (s : State) (k n : Nat) : (zeroRange s k n).fw = s.fw := rfl
@[simp] theorem zeroRange_msix (s : State) (k n : Nat) : (zeroRange s k n).msix = s.msix := rfl
@[simp] theorem zeroRange_completion (s : State) (k n : Nat) : (zeroRange s k n).completion = s.completion := rfl
@[simp] theorem zeroRange_gated (s : State) (k n : Nat) : (zeroRange s k n).gated = s.gated := rfl
@[simp] theorem zeroRange_marks (s : State) (k n : Nat) : (zeroRange s k n).marks = s.marks := rfl
@[simp] theorem zeroRange_msc (s : State) (k n : Nat) : (zeroRange s k n).msc = s.msc := rfl
@[simp] theorem zeroRange_lampq (s : State) (k n : Nat) : (zeroRange s k n).lampq = s.lampq := rfl
@[simp] theorem zeroRange_hostLow (s : State) (k n : Nat) : (zeroRange s k n).hostLow = s.hostLow := rfl
@[simp] theorem zeroRange_regrant (s : State) (k n : Nat) : (zeroRange s k n).regrant = s.regrant := rfl
@[simp] theorem zeroRange_peerq (s : State) (k n : Nat) : (zeroRange s k n).peerq = s.peerq := rfl
@[simp] theorem zeroRange_saw (s : State) (k n : Nat) : (zeroRange s k n).saw = s.saw := rfl
@[simp] theorem zeroRange_atsPages (s : State) (k n : Nat) : (zeroRange s k n).atsPages = s.atsPages := rfl
@[simp] theorem zeroRange_xpend (s : State) (k n : Nat) : (zeroRange s k n).xpend = s.xpend := rfl
@[simp] theorem zeroRange_outs (s : State) (k n : Nat) : (zeroRange s k n).outs = s.outs := rfl
@[simp] theorem zeroRange_epoch (s : State) (k n : Nat) : (zeroRange s k n).epoch = s.epoch := rfl
@[simp] theorem zeroRange_atsInvs (s : State) (k n : Nat) : (zeroRange s k n).atsInvs = s.atsInvs := rfl
@[simp] theorem zeroRange_posted (s : State) (k n : Nat) : (zeroRange s k n).posted = s.posted := rfl
@[simp] theorem zeroRange_hartRes (s : State) (k n : Nat) : (zeroRange s k n).hartRes = s.hartRes := rfl
@[simp] theorem zeroRange_windowsSeen (s : State) (k n : Nat) : (zeroRange s k n).windowsSeen = s.windowsSeen := rfl

/-! ### clearIssuer -/

@[simp] theorem clearIssuer_sched (s : State) : (clearIssuer s ).sched = s.sched := rfl
@[simp] theorem clearIssuer_freeCtr (s : State) : (clearIssuer s ).freeCtr = s.freeCtr := rfl
@[simp] theorem clearIssuer_nextId (s : State) : (clearIssuer s ).nextId = s.nextId := rfl
@[simp] theorem clearIssuer_clock (s : State) : (clearIssuer s ).clock = s.clock := rfl
@[simp] theorem clearIssuer_mem (s : State) : (clearIssuer s ).mem = s.mem := rfl
@[simp] theorem clearIssuer_poison (s : State) : (clearIssuer s ).poison = s.poison := rfl
@[simp] theorem clearIssuer_hostLines (s : State) : (clearIssuer s ).hostLines = s.hostLines := rfl
@[simp] theorem clearIssuer_loads (s : State) : (clearIssuer s ).loads = s.loads := rfl
@[simp] theorem clearIssuer_stores (s : State) : (clearIssuer s ).stores = s.stores := rfl
@[simp] theorem clearIssuer_atoms (s : State) : (clearIssuer s ).atoms = s.atoms := rfl
@[simp] theorem clearIssuer_dedup (s : State) : (clearIssuer s ).dedup = s.dedup := rfl
@[simp] theorem clearIssuer_tlb (s : State) : (clearIssuer s ).tlb = s.tlb := rfl
@[simp] theorem clearIssuer_walks (s : State) : (clearIssuer s ).walks = s.walks := rfl
@[simp] theorem clearIssuer_contexts (s : State) : (clearIssuer s ).contexts = s.contexts := rfl
@[simp] theorem clearIssuer_regions (s : State) : (clearIssuer s ).regions = s.regions := rfl
@[simp] theorem clearIssuer_wgs (s : State) : (clearIssuer s ).wgs = s.wgs := rfl
@[simp] theorem clearIssuer_warps (s : State) : (clearIssuer s ).warps = s.warps := rfl
@[simp] theorem clearIssuer_cores (s : State) : (clearIssuer s ).cores = s.cores := rfl
@[simp] theorem clearIssuer_lgs (s : State) : (clearIssuer s ).lgs = s.lgs := rfl
@[simp] theorem clearIssuer_pairs (s : State) : (clearIssuer s ).pairs = s.pairs := rfl
@[simp] theorem clearIssuer_copies (s : State) : (clearIssuer s ).copies = s.copies := rfl
@[simp] theorem clearIssuer_anvs (s : State) : (clearIssuer s ).anvs = s.anvs := rfl
@[simp] theorem clearIssuer_lamps (s : State) : (clearIssuer s ).lamps = s.lamps := rfl
@[simp] theorem clearIssuer_vaultOwner (s : State) : (clearIssuer s ).vaultOwner = s.vaultOwner := rfl
@[simp] theorem clearIssuer_notify (s : State) : (clearIssuer s ).notify = s.notify := rfl
@[simp] theorem clearIssuer_recSeq (s : State) : (clearIssuer s ).recSeq = s.recSeq := rfl
@[simp] theorem clearIssuer_placed (s : State) : (clearIssuer s ).placed = s.placed := rfl
@[simp] theorem clearIssuer_faultStores (s : State) : (clearIssuer s ).faultStores = s.faultStores := rfl
@[simp] theorem clearIssuer_host (s : State) : (clearIssuer s ).host = s.host := rfl
@[simp] theorem clearIssuer_bells (s : State) : (clearIssuer s ).bells = s.bells := rfl
@[simp] theorem clearIssuer_rings (s : State) : (clearIssuer s ).rings = s.rings := rfl
@[simp] theorem clearIssuer_tdis (s : State) : (clearIssuer s ).tdis = s.tdis := rfl
@[simp] theorem clearIssuer_spdm (s : State) : (clearIssuer s ).spdm = s.spdm := rfl
@[simp] theorem clearIssuer_spdmBeat (s : State) : (clearIssuer s ).spdmBeat = s.spdmBeat := rfl
@[simp] theorem clearIssuer_links (s : State) : (clearIssuer s ).links = s.links := rfl
@[simp] theorem clearIssuer_windows (s : State) : (clearIssuer s ).windows = s.windows := rfl
@[simp] theorem clearIssuer_dom (s : State) : (clearIssuer s ).dom = s.dom := rfl
@[simp] theorem clearIssuer_bellows (s : State) : (clearIssuer s ).bellows = s.bellows := rfl
@[simp] theorem clearIssuer_obs (s : State) : (clearIssuer s ).obs = s.obs := rfl
@[simp] theorem clearIssuer_ckpt (s : State) : (clearIssuer s ).ckpt = s.ckpt := rfl
@[simp] theorem clearIssuer_fw (s : State) : (clearIssuer s ).fw = s.fw := rfl
@[simp] theorem clearIssuer_msix (s : State) : (clearIssuer s ).msix = s.msix := rfl
@[simp] theorem clearIssuer_completion (s : State) : (clearIssuer s ).completion = s.completion := rfl
@[simp] theorem clearIssuer_gated (s : State) : (clearIssuer s ).gated = s.gated := rfl
@[simp] theorem clearIssuer_marks (s : State) : (clearIssuer s ).marks = s.marks := rfl
@[simp] theorem clearIssuer_msc (s : State) : (clearIssuer s ).msc = s.msc := rfl
@[simp] theorem clearIssuer_lampq (s : State) : (clearIssuer s ).lampq = s.lampq := rfl
@[simp] theorem clearIssuer_hostLow (s : State) : (clearIssuer s ).hostLow = s.hostLow := rfl
@[simp] theorem clearIssuer_regrant (s : State) : (clearIssuer s ).regrant = s.regrant := rfl
@[simp] theorem clearIssuer_peerq (s : State) : (clearIssuer s ).peerq = s.peerq := rfl
@[simp] theorem clearIssuer_saw (s : State) : (clearIssuer s ).saw = s.saw := rfl
@[simp] theorem clearIssuer_atsPages (s : State) : (clearIssuer s ).atsPages = s.atsPages := rfl
@[simp] theorem clearIssuer_xpend (s : State) : (clearIssuer s ).xpend = s.xpend := rfl
@[simp] theorem clearIssuer_outs (s : State) : (clearIssuer s ).outs = s.outs := rfl
@[simp] theorem clearIssuer_epoch (s : State) : (clearIssuer s ).epoch = s.epoch := rfl
@[simp] theorem clearIssuer_atsInvs (s : State) : (clearIssuer s ).atsInvs = s.atsInvs := rfl
@[simp] theorem clearIssuer_posted (s : State) : (clearIssuer s ).posted = s.posted := rfl
@[simp] theorem clearIssuer_hartRes (s : State) : (clearIssuer s ).hartRes = s.hartRes := rfl
@[simp] theorem clearIssuer_windowsSeen (s : State) : (clearIssuer s ).windowsSeen = s.windowsSeen := rfl

/-! ### blockFrag -/

@[simp] theorem blockFrag_sched (s : State) (g w e : Nat) (wt : Wait) : (blockFrag s g w e wt).sched = s.sched := rfl
@[simp] theorem blockFrag_issuer (s : State) (g w e : Nat) (wt : Wait) : (blockFrag s g w e wt).issuer = s.issuer := rfl
@[simp] theorem blockFrag_freeCtr (s : State) (g w e : Nat) (wt : Wait) : (blockFrag s g w e wt).freeCtr = s.freeCtr := rfl
@[simp] theorem blockFrag_nextId (s : State) (g w e : Nat) (wt : Wait) : (blockFrag s g w e wt).nextId = s.nextId := rfl
@[simp] theorem blockFrag_clock (s : State) (g w e : Nat) (wt : Wait) : (blockFrag s g w e wt).clock = s.clock := rfl
@[simp] theorem blockFrag_mem (s : State) (g w e : Nat) (wt : Wait) : (blockFrag s g w e wt).mem = s.mem := rfl
@[simp] theorem blockFrag_poison (s : State) (g w e : Nat) (wt : Wait) : (blockFrag s g w e wt).poison = s.poison := rfl
@[simp] theorem blockFrag_hostLines (s : State) (g w e : Nat) (wt : Wait) : (blockFrag s g w e wt).hostLines = s.hostLines := rfl
@[simp] theorem blockFrag_loads (s : State) (g w e : Nat) (wt : Wait) : (blockFrag s g w e wt).loads = s.loads := rfl
@[simp] theorem blockFrag_stores (s : State) (g w e : Nat) (wt : Wait) : (blockFrag s g w e wt).stores = s.stores := rfl
@[simp] theorem blockFrag_atoms (s : State) (g w e : Nat) (wt : Wait) : (blockFrag s g w e wt).atoms = s.atoms := rfl
@[simp] theorem blockFrag_dedup (s : State) (g w e : Nat) (wt : Wait) : (blockFrag s g w e wt).dedup = s.dedup := rfl
@[simp] theorem blockFrag_tlb (s : State) (g w e : Nat) (wt : Wait) : (blockFrag s g w e wt).tlb = s.tlb := rfl
@[simp] theorem blockFrag_walks (s : State) (g w e : Nat) (wt : Wait) : (blockFrag s g w e wt).walks = s.walks := rfl
@[simp] theorem blockFrag_contexts (s : State) (g w e : Nat) (wt : Wait) : (blockFrag s g w e wt).contexts = s.contexts := rfl
@[simp] theorem blockFrag_regions (s : State) (g w e : Nat) (wt : Wait) : (blockFrag s g w e wt).regions = s.regions := rfl
@[simp] theorem blockFrag_wgs (s : State) (g w e : Nat) (wt : Wait) : (blockFrag s g w e wt).wgs = s.wgs := rfl
@[simp] theorem blockFrag_cores (s : State) (g w e : Nat) (wt : Wait) : (blockFrag s g w e wt).cores = s.cores := rfl
@[simp] theorem blockFrag_lgs (s : State) (g w e : Nat) (wt : Wait) : (blockFrag s g w e wt).lgs = s.lgs := rfl
@[simp] theorem blockFrag_pairs (s : State) (g w e : Nat) (wt : Wait) : (blockFrag s g w e wt).pairs = s.pairs := rfl
@[simp] theorem blockFrag_copies (s : State) (g w e : Nat) (wt : Wait) : (blockFrag s g w e wt).copies = s.copies := rfl
@[simp] theorem blockFrag_anvs (s : State) (g w e : Nat) (wt : Wait) : (blockFrag s g w e wt).anvs = s.anvs := rfl
@[simp] theorem blockFrag_lamps (s : State) (g w e : Nat) (wt : Wait) : (blockFrag s g w e wt).lamps = s.lamps := rfl
@[simp] theorem blockFrag_vaultOwner (s : State) (g w e : Nat) (wt : Wait) : (blockFrag s g w e wt).vaultOwner = s.vaultOwner := rfl
@[simp] theorem blockFrag_notify (s : State) (g w e : Nat) (wt : Wait) : (blockFrag s g w e wt).notify = s.notify := rfl
@[simp] theorem blockFrag_recSeq (s : State) (g w e : Nat) (wt : Wait) : (blockFrag s g w e wt).recSeq = s.recSeq := rfl
@[simp] theorem blockFrag_placed (s : State) (g w e : Nat) (wt : Wait) : (blockFrag s g w e wt).placed = s.placed := rfl
@[simp] theorem blockFrag_faultStores (s : State) (g w e : Nat) (wt : Wait) : (blockFrag s g w e wt).faultStores = s.faultStores := rfl
@[simp] theorem blockFrag_host (s : State) (g w e : Nat) (wt : Wait) : (blockFrag s g w e wt).host = s.host := rfl
@[simp] theorem blockFrag_bells (s : State) (g w e : Nat) (wt : Wait) : (blockFrag s g w e wt).bells = s.bells := rfl
@[simp] theorem blockFrag_rings (s : State) (g w e : Nat) (wt : Wait) : (blockFrag s g w e wt).rings = s.rings := rfl
@[simp] theorem blockFrag_tdis (s : State) (g w e : Nat) (wt : Wait) : (blockFrag s g w e wt).tdis = s.tdis := rfl
@[simp] theorem blockFrag_spdm (s : State) (g w e : Nat) (wt : Wait) : (blockFrag s g w e wt).spdm = s.spdm := rfl
@[simp] theorem blockFrag_spdmBeat (s : State) (g w e : Nat) (wt : Wait) : (blockFrag s g w e wt).spdmBeat = s.spdmBeat := rfl
@[simp] theorem blockFrag_links (s : State) (g w e : Nat) (wt : Wait) : (blockFrag s g w e wt).links = s.links := rfl
@[simp] theorem blockFrag_windows (s : State) (g w e : Nat) (wt : Wait) : (blockFrag s g w e wt).windows = s.windows := rfl
@[simp] theorem blockFrag_dom (s : State) (g w e : Nat) (wt : Wait) : (blockFrag s g w e wt).dom = s.dom := rfl
@[simp] theorem blockFrag_bellows (s : State) (g w e : Nat) (wt : Wait) : (blockFrag s g w e wt).bellows = s.bellows := rfl
@[simp] theorem blockFrag_obs (s : State) (g w e : Nat) (wt : Wait) : (blockFrag s g w e wt).obs = s.obs := rfl
@[simp] theorem blockFrag_ckpt (s : State) (g w e : Nat) (wt : Wait) : (blockFrag s g w e wt).ckpt = s.ckpt := rfl
@[simp] theorem blockFrag_fw (s : State) (g w e : Nat) (wt : Wait) : (blockFrag s g w e wt).fw = s.fw := rfl
@[simp] theorem blockFrag_msix (s : State) (g w e : Nat) (wt : Wait) : (blockFrag s g w e wt).msix = s.msix := rfl
@[simp] theorem blockFrag_completion (s : State) (g w e : Nat) (wt : Wait) : (blockFrag s g w e wt).completion = s.completion := rfl
@[simp] theorem blockFrag_gated (s : State) (g w e : Nat) (wt : Wait) : (blockFrag s g w e wt).gated = s.gated := rfl
@[simp] theorem blockFrag_marks (s : State) (g w e : Nat) (wt : Wait) : (blockFrag s g w e wt).marks = s.marks := rfl
@[simp] theorem blockFrag_msc (s : State) (g w e : Nat) (wt : Wait) : (blockFrag s g w e wt).msc = s.msc := rfl
@[simp] theorem blockFrag_lampq (s : State) (g w e : Nat) (wt : Wait) : (blockFrag s g w e wt).lampq = s.lampq := rfl
@[simp] theorem blockFrag_hostLow (s : State) (g w e : Nat) (wt : Wait) : (blockFrag s g w e wt).hostLow = s.hostLow := rfl
@[simp] theorem blockFrag_regrant (s : State) (g w e : Nat) (wt : Wait) : (blockFrag s g w e wt).regrant = s.regrant := rfl
@[simp] theorem blockFrag_peerq (s : State) (g w e : Nat) (wt : Wait) : (blockFrag s g w e wt).peerq = s.peerq := rfl
@[simp] theorem blockFrag_saw (s : State) (g w e : Nat) (wt : Wait) : (blockFrag s g w e wt).saw = s.saw := rfl
@[simp] theorem blockFrag_atsPages (s : State) (g w e : Nat) (wt : Wait) : (blockFrag s g w e wt).atsPages = s.atsPages := rfl
@[simp] theorem blockFrag_xpend (s : State) (g w e : Nat) (wt : Wait) : (blockFrag s g w e wt).xpend = s.xpend := rfl
@[simp] theorem blockFrag_outs (s : State) (g w e : Nat) (wt : Wait) : (blockFrag s g w e wt).outs = s.outs := rfl
@[simp] theorem blockFrag_epoch (s : State) (g w e : Nat) (wt : Wait) : (blockFrag s g w e wt).epoch = s.epoch := rfl
@[simp] theorem blockFrag_atsInvs (s : State) (g w e : Nat) (wt : Wait) : (blockFrag s g w e wt).atsInvs = s.atsInvs := rfl
@[simp] theorem blockFrag_posted (s : State) (g w e : Nat) (wt : Wait) : (blockFrag s g w e wt).posted = s.posted := rfl
@[simp] theorem blockFrag_hartRes (s : State) (g w e : Nat) (wt : Wait) : (blockFrag s g w e wt).hartRes = s.hartRes := rfl
@[simp] theorem blockFrag_windowsSeen (s : State) (g w e : Nat) (wt : Wait) : (blockFrag s g w e wt).windowsSeen = s.windowsSeen := rfl

end Sys2Proof.Machine
end

