-- ==== Sys2Proof/Laws/Maps.lean ====
section
/-!
SUPPORT. The laws of the finite tables and of the one memory: what is read after a write, and the canonical form.
-/

namespace Sys2Proof.Machine

/-! ### Tables -/

@[simp] theorem mget_mset_same {α : Type} (m : SMap α) (k : Nat) (v : α) : mget (mset m k v) k = some v := by
  induction m with
  | nil => simp [mset, mget]
  | cons p t ih =>
    obtain ⟨j, x⟩ := p
    simp only [mset]
    split
    · simp [mget]
    · split
      · simp [mget]
      · simp [mget, *]

theorem mget_mset_ne {α : Type} (m : SMap α) {k l : Nat} (v : α) (h : l ≠ k) : mget (mset m k v) l = mget m l := by
  induction m with
  | nil => simp [mset, mget, h]
  | cons p t ih =>
    obtain ⟨j, x⟩ := p
    simp only [mset]
    split
    · simp [mget, h]
    · split
      · next h2 => subst h2; simp [mget, h]
      · simp [mget, ih]

theorem mget_filter_ne {α : Type} (m : SMap α) {k l : Nat} (h : l ≠ k) : mget (mdel m k) l = mget m l := by
  induction m with
  | nil => rfl
  | cons p t ih =>
    obtain ⟨j, x⟩ := p
    by_cases hj : j = k
    · subst hj; simp only [mdel, List.filter, ne_eq, not_true_eq_false, decide_false]
      simp only [mget, h, if_false]
      exact ih
    · simp only [mdel, List.filter, ne_eq, hj, not_false_eq_true, decide_true, mget]
      split
      · rfl
      · exact ih

@[simp] theorem mget_mdel_same {α : Type} (m : SMap α) (k : Nat) : mget (mdel m k) k = none := by
  induction m with
  | nil => rfl
  | cons p t ih =>
    obtain ⟨j, x⟩ := p
    by_cases hj : j = k
    · subst hj; simp only [mdel, List.filter, ne_eq, not_true_eq_false, decide_false]; exact ih
    · simp only [mdel, List.filter, ne_eq, hj, not_false_eq_true, decide_true, mget, Ne.symm hj, if_false]
      exact ih

@[simp] theorem mgetD_mset_same {α : Type} (m : SMap α) (k : Nat) (v d : α) : mgetD (mset m k v) k d = v := by
  simp [mgetD]

theorem mgetD_mset_ne {α : Type} (m : SMap α) {k l : Nat} (v d : α) (h : l ≠ k) : mgetD (mset m k v) l d = mgetD m l d := by
  simp [mgetD, mget_mset_ne m v h]

@[simp] theorem mgetD_mput_same {α : Type} [DecidableEq α] (m : SMap α) (k : Nat) (v d : α) : mgetD (mput m k v d) k d = v := by
  unfold mput
  split
  · simp [mgetD, *]
  · simp

theorem mgetD_mput_ne {α : Type} [DecidableEq α] (m : SMap α) {k l : Nat} (v d e : α) (h : l ≠ k) :
    mgetD (mput m k v d) l e = mgetD m l e := by
  unfold mput
  split
  · simp [mgetD, mget_filter_ne m h]
  · exact mgetD_mset_ne m v e h

theorem mget_mmod_ne {α : Type} (m : SMap α) {k l : Nat} (f : α → α) (h : l ≠ k) : mget (mmod m k f) l = mget m l := by
  unfold mmod
  split
  · exact mget_mset_ne m _ h
  · rfl

theorem mget_mmod_same {α : Type} (m : SMap α) (k : Nat) (f : α → α) : mget (mmod m k f) k = (mget m k).map f := by
  unfold mmod
  split
  · next h => simp [h]
  · next h => simp [h]

/-! ### Reading a byte -/

@[simp] theorem readByte_writeByte_same (m : List Host.Cell) (k : Nat) (b : Byte) : readByte (writeByte m k b) k = b := by
  simp [readByte, writeByte]

theorem readByte_writeByte_ne (m : List Host.Cell) {k l : Nat} (b : Byte) (h : l ≠ k) :
    readByte (writeByte m k b) l = readByte m l := mgetD_mput_ne m b blank blank h

/-- After a list of cells is stored, a byte reads as the last cell of its address, or as before. -/
theorem readByte_writeCells (m : List Host.Cell) (cs : List Host.Cell) (k : Nat) :
    readByte (writeCells m cs) k = cs.foldl (fun b c => if c.1 = k then c.2 else b) (readByte m k) := by
  induction cs generalizing m with
  | nil => rfl
  | cons c t ih =>
    have step : readByte (writeByte m c.1 c.2) k = if c.1 = k then c.2 else readByte m k := by
      by_cases h : c.1 = k
      · subst h; simp
      · rw [readByte_writeByte_ne m c.2 (Ne.symm h), if_neg h]
    have := ih (writeByte m c.1 c.2)
    simp only [writeCells, List.foldl_cons] at this ⊢
    rw [this, step]

theorem readByte_writeCells_ne (m : List Host.Cell) (cs : List Host.Cell) (k : Nat) (h : ∀ c ∈ cs, c.1 ≠ k) :
    readByte (writeCells m cs) k = readByte m k := by
  rw [readByte_writeCells]
  generalize readByte m k = b
  induction cs generalizing b with
  | nil => rfl
  | cons c t ih =>
    rw [List.foldl_cons, if_neg (h c (by simp))]
    exact ih (fun d hd => h d (by simp [hd])) b

/-! ### The canonical form -/

/-- The canonical form, as two facts about the list. -/
theorem wf_iff (m : List Host.Cell) :
    Memory.wf m = true ↔ m.Pairwise (fun a b => a.1 < b.1) ∧ ∀ c ∈ m, c.2 ≠ blank := by
  induction m with
  | nil => simp [Memory.wf]
  | cons c t ih =>
    cases t with
    | nil => simp [Memory.wf]
    | cons d t =>
      simp only [Memory.wf, Bool.and_eq_true, decide_eq_true_eq, ih, List.pairwise_cons]
      constructor
      · rintro ⟨⟨hc, hcd⟩, ⟨hd, ht⟩, hb⟩
        refine ⟨⟨?_, hd, ht⟩, ?_⟩
        · intro x hx
          rcases List.mem_cons.mp hx with rfl | hx
          · exact hcd
          · exact Nat.lt_trans hcd (hd x hx)
        · intro x hx
          rcases List.mem_cons.mp hx with rfl | hx
          · exact hc
          · exact hb x hx
      · rintro ⟨⟨hall, hd, ht⟩, hb⟩
        exact ⟨⟨hb c (by simp), hall d (by simp)⟩, ⟨hd, ht⟩, fun x hx => hb x (by simp [hx])⟩

theorem wf_filter (m : List Host.Cell) (p : Host.Cell → Bool) (h : Memory.wf m = true) : Memory.wf (m.filter p) = true := by
  rw [wf_iff] at h ⊢
  exact ⟨h.1.filter _, fun c hc => h.2 c (List.mem_filter.mp hc).1⟩

/-- A key of a table after a write is the key written or one that was there. -/
theorem mem_mset {α : Type} {m : SMap α} {k : Nat} {v : α} {c : Nat × α} (h : c ∈ mset m k v) : c = (k, v) ∨ c ∈ m := by
  induction m with
  | nil => simpa [mset] using h
  | cons p t ih =>
    obtain ⟨j, x⟩ := p
    simp only [mset] at h
    split at h
    · rcases List.mem_cons.mp h with h | h
      · exact .inl h
      · exact .inr h
    · split at h
      · rcases List.mem_cons.mp h with h | h
        · exact .inl h
        · exact .inr (List.mem_cons_of_mem _ h)
      · rcases List.mem_cons.mp h with h | h
        · exact .inr (h ▸ List.mem_cons_self)
        · rcases ih h with h | h
          · exact .inl h
          · exact .inr (List.mem_cons_of_mem _ h)

/-- A write keeps the keys of a table strictly rising. -/
theorem pairwise_mset {α : Type} (m : SMap α) (k : Nat) (v : α) (h : m.Pairwise (fun a b => a.1 < b.1)) :
    (mset m k v).Pairwise (fun a b => a.1 < b.1) := by
  induction m with
  | nil => simp [mset]
  | cons p t ih =>
    obtain ⟨j, x⟩ := p
    rw [List.pairwise_cons] at h
    simp only [mset]
    split
    · next hk =>
      rw [List.pairwise_cons, List.pairwise_cons]
      refine ⟨?_, h⟩
      intro c hc
      rcases List.mem_cons.mp hc with rfl | hc
      · exact hk
      · exact Nat.lt_trans hk (h.1 c hc)
    · split
      · next hk => subst hk; rw [List.pairwise_cons]; exact h
      · next h1 h2 =>
        rw [List.pairwise_cons]
        refine ⟨?_, ih h.2⟩
        intro c hc
        rcases mem_mset hc with rfl | hc
        · exact Nat.lt_of_le_of_ne (Nat.le_of_not_lt h1) (Ne.symm h2)
        · exact h.1 c hc

/-- Storing a byte keeps the canonical form. -/
theorem wf_writeByte (m : List Host.Cell) (k : Nat) (b : Byte) (h : Memory.wf m = true) : Memory.wf (writeByte m k b) = true := by
  unfold writeByte mput
  split
  · exact wf_filter m _ h
  · next hb =>
    rw [wf_iff] at h ⊢
    refine ⟨pairwise_mset m k b h.1, ?_⟩
    intro c hc
    rcases mem_mset hc with rfl | hc
    · exact hb
    · exact h.2 c hc

/-- Storing cells keeps the canonical form. -/
theorem wf_writeCells (m cs : List Host.Cell) (h : Memory.wf m = true) : Memory.wf (writeCells m cs) = true := by
  induction cs generalizing m with
  | nil => exact h
  | cons c t ih => exact ih _ (wf_writeByte m c.1 c.2 h)

/-- Copying a range keeps the canonical form. -/
theorem wf_copyRange (m : List Host.Cell) (src dst n : Nat) (h : Memory.wf m = true) : Memory.wf (copyRange m src dst n) = true := by
  unfold copyRange
  generalize m.filter (fun c => src ≤ c.1 ∧ c.1 < src + n) = cs
  have h2 := wf_filter m (fun c => c.1 < dst ∨ dst + n ≤ c.1) h
  generalize m.filter (fun c => c.1 < dst ∨ dst + n ≤ c.1) = kept at h2
  show Memory.wf (cs.foldl _ kept) = true
  induction cs generalizing kept with
  | nil => exact h2
  | cons c t ih => exact ih _ (wf_writeByte kept _ _ h2)

/-! ### Observation leaves memory as it is -/

theorem recordEntry_mem (s : State) (cls addr r : Nat) : (recordEntry s cls addr r).mem = s.mem := by
  unfold recordEntry
  split <;> rfl

theorem freeze_mem (s : State) (n : Nat) : (freeze s n).mem = s.mem := by
  unfold freeze
  split <;> rfl

theorem fireTrigger_mem (s : State) (i : Nat) : (fireTrigger s i).mem = s.mem := by
  unfold fireTrigger
  simp only
  split
  · exact freeze_mem _ _
  · rfl

/-- A fold of updates that leave memory as it is leaves it so. -/
theorem foldl_mem {α : Type} (f : State → α → State) (hf : ∀ s a, (f s a).mem = s.mem) (l : List α) (s : State) :
    (l.foldl f s).mem = s.mem := by
  induction l generalizing s with
  | nil => rfl
  | cons a t ih => exact (ih _).trans (hf s a)

theorem observe_mem (s : State) (cls lat addr : Nat) : (observe s cls lat addr).mem = s.mem :=
  (foldl_mem _ fireTrigger_mem _ _).trans (foldl_mem _ (fun s r => recordEntry_mem s cls addr r) _ s)

theorem countAsk_mem (s : State) (since k : Nat) : (countAsk s since k).mem = s.mem := by
  unfold countAsk
  split
  · exact observe_mem _ _ _ _
  · rfl

/-! ### Every operation on memory keeps the canonical form -/

section
variable (s : State) (h : Memory.wf s.mem = true)
include h

theorem putCells_wf (cs : List Host.Cell) : Memory.wf (putCells s cs).mem = true := wf_writeCells _ _ h
theorem putNat_wf (k n v : Nat) : Memory.wf (putNat s k n v).mem = true := wf_writeCells _ _ h
theorem zeroRange_wf (k n : Nat) : Memory.wf (zeroRange s k n).mem = true := wf_filter _ _ h

theorem writeBack_wf (l : Nat) : Memory.wf (writeBack s l).mem = true := by
  unfold writeBack
  split
  · exact wf_copyRange _ _ _ _ h
  · exact h

theorem dropHostLine_wf (l : Nat) : Memory.wf (dropHostLine s l).mem = true := zeroRange_wf s h _ _

/-- Making room in a list takes a free value and nothing else of the state. -/
theorem makeRoom_wf {α : Type} {cap : Nat} {first : α → Bool} {l kept : List α} {gone : Option α} {u : State}
    (e : makeRoom s cap first l = (kept, gone, u)) : Memory.wf u.mem = true := by
  unfold makeRoom at e
  split at e
  · cases e; exact h
  · cases e; exact h

theorem sliceRoom_wf (die : Nat) : Memory.wf (sliceRoom s die).mem = true := by
  unfold sliceRoom
  split
  · next e => exact dropHostLine_wf _ (writeBack_wf _ (makeRoom_wf s h e) _) _
  · next e => have := makeRoom_wf s h e; exact this
  · next e => exact makeRoom_wf s h e

theorem hostFill_wf (str : Bool) (k : Nat) : Memory.wf (hostFill s str k).mem = true := by
  unfold hostFill
  split
  · split
    · exact h
    · exact wf_copyRange _ _ _ _ (sliceRoom_wf s h _)
  · exact h

theorem useLine_wf (str : Bool) (k : Nat) : Memory.wf (useLine s str k).mem = true := by
  unfold useLine
  split
  · split
    · exact h
    · exact sliceRoom_wf s h _
  · exact hostFill_wf s h str k

theorem askLine_wf (since : Nat) (str : Bool) (k : Nat) : Memory.wf (askLine s since str k).mem = true :=
  useLine_wf _ ((countAsk_mem s since k).symm ▸ h) str k

theorem hostDirty_wf (k : Nat) : Memory.wf (hostDirty s k).mem = true := by
  unfold hostDirty
  split <;> exact h

theorem writeLine_wf (since : Nat) (str : Bool) (cs : List Host.Cell) (k : Nat) :
    Memory.wf (writeLine since str cs s k).mem = true :=
  putCells_wf _ (hostDirty_wf _ (askLine_wf s h since str k) k) _

theorem pocWriteAs_wf (since : Nat) (str : Bool) (cs : List Host.Cell) : Memory.wf (pocWriteAs s since str cs).mem = true := by
  unfold pocWriteAs
  generalize linesOf cs = ks
  induction ks generalizing s with
  | nil => exact h
  | cons k t ih => exact ih _ (writeLine_wf s h since str cs k)

theorem pocWrite_wf (cs : List Host.Cell) : Memory.wf (pocWrite s cs).mem = true := pocWriteAs_wf s h s.clock false cs

theorem dropL1_wf (core : Nat) (p : Nat → Bool) : Memory.wf (dropL1 s core p).mem = true := wf_filter _ _ h
theorem dropK_wf (core : Nat) : Memory.wf (dropK s core).mem = true := wf_filter _ _ h
theorem dropKLine_wf (core l : Nat) : Memory.wf (dropKLine s core l).mem = true := zeroRange_wf s h _ _
theorem dropAllI_wf : Memory.wf (dropAllI s).mem = true := wf_filter _ _ h

theorem l1Room_wf (core : Nat) : Memory.wf (l1Room s core).mem = true := by
  unfold l1Room
  split
  · next e => exact dropL1_wf _ (makeRoom_wf s h e) _ _
  · next e => exact makeRoom_wf s h e

theorem kRoom_wf (core : Nat) : Memory.wf (kRoom s core).mem = true := by
  unfold kRoom
  split
  · next e => exact dropKLine_wf _ (makeRoom_wf s h e) _ _
  · next e => exact makeRoom_wf s h e

theorem iRoom_wf (core : Nat) : Memory.wf (iRoom s core).mem = true := by
  unfold iRoom
  split
  · next e => simp only [modCore_mem]; exact zeroRange_wf _ (makeRoom_wf s h e) _ _
  · next e => exact makeRoom_wf s h e

theorem fillL1_wf (core : Nat) (str : Bool) (k : Nat) : Memory.wf (fillL1 s core str k).mem = true := by
  unfold fillL1
  split
  · simp only [modCore_mem]
    exact wf_writeCells _ _ (l1Room_wf _ (dropL1_wf _ (useLine_wf s h str k) _ _) _)
  · exact h

theorem fillK_wf (core ka k : Nat) : Memory.wf (fillK s core ka k).mem = true := by
  unfold fillK
  simp only
  split
  · exact h
  · simp only [modCore_mem]
    exact wf_writeCells _ _ (kRoom_wf _ (askLine_wf s h s.clock false k) core)

theorem fillI_wf (core k : Nat) : Memory.wf (fillI s core k).mem = true := by
  unfold fillI
  split
  · exact h
  · simp only [modCore_mem]
    exact wf_writeCells _ _ (iRoom_wf _ (askLine_wf s h s.clock false k) core)

theorem setLamp_wf (u : Nat) (l : Lamp) : Memory.wf (setLamp s u l).mem = true := h

theorem grantUnit_wf (u : Nat) : Memory.wf (grantUnit s u).mem = true := by
  unfold grantUnit
  simp only
  split <;> exact zeroRange_wf _ (setLamp_wf s h u _) _ _

theorem touch_wf (u : Nat) : Memory.wf (touch s u).mem = true := by
  unfold touch
  repeat' split
  all_goals exact h

theorem touchAll_wf (us : List Nat) : Memory.wf (touchAll s us).mem = true := by
  unfold touchAll
  induction us generalizing s with
  | nil => exact h
  | cons u t ih => exact ih _ (touch_wf s h u)

theorem lampJoin_wf (who : Nat) (us : List Nat) : Memory.wf (lampJoin s who us).mem = true := by
  unfold lampJoin
  simp only
  split <;> exact touchAll_wf s h _

theorem lampLeave_wf (who : Nat) : Memory.wf (lampLeave s who).mem = true := h

theorem tlbInsert_wf (e : Tlb) : Memory.wf (tlbInsert s e).mem = true := by
  unfold tlbInsert
  simp only
  split
  · next e => have := makeRoom_wf s h e; exact this
  · next e => have := makeRoom_wf s h e; exact this

end

/-! ### The order of things within a cycle, and room in a full list -/

/-- What a class allows after something of it was taken: its place, and the places past it. -/
@[simp] theorem inOrder_takePlace_same (s : State) (cls p q : Nat) : inOrder (takePlace s cls p) cls q = decide (p ≤ q) := by
  simp [inOrder, takePlace]

/-- Another class is as it was. -/
theorem inOrder_takePlace_ne (s : State) {cls other : Nat} (p q : Nat) (h : other ≠ cls) :
    inOrder (takePlace s cls p) other q = inOrder s other q := by
  simp [inOrder, takePlace, mgetD_mset_ne _ _ _ h]

/-- Making room keeps entries of the list alone. -/
theorem makeRoom_mem {α : Type} (s : State) (cap : Nat) (first : α → Bool) (l : List α) :
    ∀ x ∈ (makeRoom s cap first l).1, x ∈ l := by
  unfold makeRoom
  split
  · exact fun _ h => h
  · exact fun _ h => List.mem_of_mem_eraseIdx h

/-- Where no more entries stand than there are places, making room leaves a place free. -/
theorem makeRoom_length {α : Type} (s : State) {cap : Nat} (first : α → Bool) (l : List α) (hc : 0 < cap) (h : l.length ≤ cap) :
    (makeRoom s cap first l).1.length < cap := by
  unfold makeRoom
  split
  · assumption
  · have hl : 0 < l.length := by omega
    have key : ∀ js : List Nat, js ≠ [] → (∀ i ∈ js, i < l.length) →
        (l.eraseIdx (js.getD ((freshFree s).1.toNat % js.length) 0)).length < cap := by
      intro js hne hlt
      have hn : (freshFree s).1.toNat % js.length < js.length := Nat.mod_lt _ (List.length_pos_iff.2 hne)
      have hd : js.getD ((freshFree s).1.toNat % js.length) 0 = js[(freshFree s).1.toNat % js.length] := by
        simp [List.getD, List.getElem?_eq_getElem hn]
      rw [hd, List.length_eraseIdx_of_lt (hlt _ (List.getElem_mem hn))]
      omega
    refine key _ ?_ ?_
    · split
      · simpa using List.length_pos_iff.1 hl
      · next he => intro hz; rw [hz] at he; exact he rfl
    · split
      · simp
      · exact fun i hi => List.mem_range.1 (List.mem_filter.1 hi).1

end Sys2Proof.Machine
end

