-- ==== Sys2Proof/Laws/PerInstr.lean ====
section
/-!
SUPPORT. What holds of every instruction as syntax, constructor by constructor: an instruction of the warp word is its
operation over its fields, and no other instruction is one.
-/

namespace Sys2Proof.Laws.Coded

/-- An instruction that has an operation of the warp word and its fields is what the operation makes of the fields (02 R24). -/
def Statement (i : Instr) : Prop := ∀ op f, i.word? = some (op, f) → op.instr f = i

theorem nop : ∀ a0, Statement (.nop a0) := by
  intros; intro op f h; cases h; rfl
theorem bra : ∀ a0, Statement (.bra a0) := by
  intros; intro op f h; cases h; rfl
theorem brx : ∀ a0, Statement (.brx a0) := by
  intros; intro op f h; cases h; rfl
theorem join : ∀ a0, Statement (.join a0) := by
  intros; intro op f h; cases h; rfl
theorem call : ∀ a0, Statement (.call a0) := by
  intros; intro op f h; cases h; rfl
theorem ret : ∀ a0, Statement (.ret a0) := by
  intros; intro op f h; cases h; rfl
theorem exit : ∀ a0, Statement (.exit a0) := by
  intros; intro op f h; cases h; rfl
theorem yield : ∀ a0, Statement (.yield a0) := by
  intros; intro op f h; cases h; rfl
theorem sleep : ∀ a0, Statement (.sleep a0) := by
  intros; intro op f h; cases h; rfl
theorem sleepExpiry : ∀ a0 a1 a2, Statement (.sleepExpiry a0 a1 a2) := by
  intros; intro op f h; cases h
theorem ballot : ∀ a0, Statement (.ballot a0) := by
  intros; intro op f h; cases h; rfl
theorem vote : ∀ a0, Statement (.vote a0) := by
  intros; intro op f h; cases h; rfl
theorem mskOp : ∀ a0, Statement (.mskOp a0) := by
  intros; intro op f h; cases h; rfl
theorem mskSave : ∀ a0, Statement (.mskSave a0) := by
  intros; intro op f h; cases h; rfl
theorem mskWset : ∀ a0, Statement (.mskWset a0) := by
  intros; intro op f h; cases h; rfl
theorem popcM : ∀ a0, Statement (.popcM a0) := by
  intros; intro op f h; cases h; rfl
theorem firstM : ∀ a0, Statement (.firstM a0) := by
  intros; intro op f h; cases h; rfl
theorem leader : ∀ a0, Statement (.leader a0) := by
  intros; intro op f h; cases h; rfl
theorem shfl : ∀ a0, Statement (.shfl a0) := by
  intros; intro op f h; cases h; rfl
theorem bcast : ∀ a0, Statement (.bcast a0) := by
  intros; intro op f h; cases h; rfl
theorem lscan : ∀ a0, Statement (.lscan a0) := by
  intros; intro op f h; cases h; rfl
theorem lred : ∀ a0, Statement (.lred a0) := by
  intros; intro op f h; cases h; rfl
theorem getsr : ∀ a0, Statement (.getsr a0) := by
  intros; intro op f h; cases h; rfl
theorem setsr : ∀ a0, Statement (.setsr a0) := by
  intros; intro op f h; cases h; rfl
theorem modeLw : ∀ a0, Statement (.modeLw a0) := by
  intros; intro op f h; cases h; rfl
theorem modeLwUnblock : ∀ a0, Statement (.modeLwUnblock a0) := by
  intros; intro op f h; cases h
theorem iadd : ∀ a0, Statement (.iadd a0) := by
  intros; intro op f h; cases h; rfl
theorem isub : ∀ a0, Statement (.isub a0) := by
  intros; intro op f h; cases h; rfl
theorem iaddc : ∀ a0, Statement (.iaddc a0) := by
  intros; intro op f h; cases h; rfl
theorem imul : ∀ a0, Statement (.imul a0) := by
  intros; intro op f h; cases h; rfl
theorem imulh : ∀ a0, Statement (.imulh a0) := by
  intros; intro op f h; cases h; rfl
theorem imad : ∀ a0, Statement (.imad a0) := by
  intros; intro op f h; cases h; rfl
theorem imin : ∀ a0, Statement (.imin a0) := by
  intros; intro op f h; cases h; rfl
theorem imax : ∀ a0, Statement (.imax a0) := by
  intros; intro op f h; cases h; rfl
theorem iabsd : ∀ a0, Statement (.iabsd a0) := by
  intros; intro op f h; cases h; rfl
theorem ishl : ∀ a0, Statement (.ishl a0) := by
  intros; intro op f h; cases h; rfl
theorem ishr : ∀ a0, Statement (.ishr a0) := by
  intros; intro op f h; cases h; rfl
theorem ishra : ∀ a0, Statement (.ishra a0) := by
  intros; intro op f h; cases h; rfl
theorem fshf : ∀ a0, Statement (.fshf a0) := by
  intros; intro op f h; cases h; rfl
theorem bool3 : ∀ a0, Statement (.bool3 a0) := by
  intros; intro op f h; cases h; rfl
theorem bfx : ∀ a0, Statement (.bfx a0) := by
  intros; intro op f h; cases h; rfl
theorem bfi : ∀ a0, Statement (.bfi a0) := by
  intros; intro op f h; cases h; rfl
theorem clz : ∀ a0, Statement (.clz a0) := by
  intros; intro op f h; cases h; rfl
theorem popc : ∀ a0, Statement (.popc a0) := by
  intros; intro op f h; cases h; rfl
theorem brev : ∀ a0, Statement (.brev a0) := by
  intros; intro op f h; cases h; rfl
theorem icmp : ∀ a0, Statement (.icmp a0) := by
  intros; intro op f h; cases h; rfl
theorem sel : ∀ a0, Statement (.sel a0) := by
  intros; intro op f h; cases h; rfl
theorem idp4 : ∀ a0, Statement (.idp4 a0) := by
  intros; intro op f h; cases h; rfl
theorem mov : ∀ a0, Statement (.mov a0) := by
  intros; intro op f h; cases h; rfl
theorem movi : ∀ a0, Statement (.movi a0) := by
  intros; intro op f h; cases h; rfl
theorem bysel : ∀ a0, Statement (.bysel a0) := by
  intros; intro op f h; cases h; rfl
theorem fadd : ∀ a0, Statement (.fadd a0) := by
  intros; intro op f h; cases h; rfl
theorem fsub : ∀ a0, Statement (.fsub a0) := by
  intros; intro op f h; cases h; rfl
theorem fmul : ∀ a0, Statement (.fmul a0) := by
  intros; intro op f h; cases h; rfl
theorem ffma : ∀ a0, Statement (.ffma a0) := by
  intros; intro op f h; cases h; rfl
theorem fmin : ∀ a0, Statement (.fmin a0) := by
  intros; intro op f h; cases h; rfl
theorem fmax : ∀ a0, Statement (.fmax a0) := by
  intros; intro op f h; cases h; rfl
theorem fcmp : ∀ a0, Statement (.fcmp a0) := by
  intros; intro op f h; cases h; rfl
theorem frcp : ∀ a0, Statement (.frcp a0) := by
  intros; intro op f h; cases h; rfl
theorem frsq : ∀ a0, Statement (.frsq a0) := by
  intros; intro op f h; cases h; rfl
theorem fsqrt : ∀ a0, Statement (.fsqrt a0) := by
  intros; intro op f h; cases h; rfl
theorem fdiv : ∀ a0, Statement (.fdiv a0) := by
  intros; intro op f h; cases h; rfl
theorem fexp2 : ∀ a0, Statement (.fexp2 a0) := by
  intros; intro op f h; cases h; rfl
theorem flog2 : ∀ a0, Statement (.flog2 a0) := by
  intros; intro op f h; cases h; rfl
theorem fsinpi : ∀ a0, Statement (.fsinpi a0) := by
  intros; intro op f h; cases h; rfl
theorem fcospi : ∀ a0, Statement (.fcospi a0) := by
  intros; intro op f h; cases h; rfl
theorem ftanh : ∀ a0, Statement (.ftanh a0) := by
  intros; intro op f h; cases h; rfl
theorem fclass : ∀ a0, Statement (.fclass a0) := by
  intros; intro op f h; cases h; rfl
theorem frnd : ∀ a0, Statement (.frnd a0) := by
  intros; intro op f h; cases h; rfl
theorem fscale : ∀ a0, Statement (.fscale a0) := by
  intros; intro op f h; cases h; rfl
theorem cvt : ∀ a0, Statement (.cvt a0) := by
  intros; intro op f h; cases h; rfl
theorem pack : ∀ a0, Statement (.pack a0) := by
  intros; intro op f h; cases h; rfl
theorem unpack : ∀ a0, Statement (.unpack a0) := by
  intros; intro op f h; cases h; rfl
theorem qblk : ∀ a0, Statement (.qblk a0) := by
  intros; intro op f h; cases h; rfl
theorem dqblk : ∀ a0, Statement (.dqblk a0) := by
  intros; intro op f h; cases h; rfl
theorem sadd : ∀ a0, Statement (.sadd a0) := by
  intros; intro op f h; cases h; rfl
theorem ssub : ∀ a0, Statement (.ssub a0) := by
  intros; intro op f h; cases h; rfl
theorem smul : ∀ a0, Statement (.smul a0) := by
  intros; intro op f h; cases h; rfl
theorem smulh : ∀ a0, Statement (.smulh a0) := by
  intros; intro op f h; cases h; rfl
theorem sand : ∀ a0, Statement (.sand a0) := by
  intros; intro op f h; cases h; rfl
theorem sor : ∀ a0, Statement (.sor a0) := by
  intros; intro op f h; cases h; rfl
theorem sxor : ∀ a0, Statement (.sxor a0) := by
  intros; intro op f h; cases h; rfl
theorem sshl : ∀ a0, Statement (.sshl a0) := by
  intros; intro op f h; cases h; rfl
theorem sshr : ∀ a0, Statement (.sshr a0) := by
  intros; intro op f h; cases h; rfl
theorem sshra : ∀ a0, Statement (.sshra a0) := by
  intros; intro op f h; cases h; rfl
theorem smin : ∀ a0, Statement (.smin a0) := by
  intros; intro op f h; cases h; rfl
theorem smax : ∀ a0, Statement (.smax a0) := by
  intros; intro op f h; cases h; rfl
theorem scmp : ∀ a0, Statement (.scmp a0) := by
  intros; intro op f h; cases h; rfl
theorem ssel : ∀ a0, Statement (.ssel a0) := by
  intros; intro op f h; cases h; rfl
theorem smov : ∀ a0, Statement (.smov a0) := by
  intros; intro op f h; cases h; rfl
theorem sli : ∀ a0, Statement (.sli a0) := by
  intros; intro op f h; cases h; rfl
theorem sld : ∀ a0, Statement (.sld a0) := by
  intros; intro op f h; cases h; rfl
theorem sst : ∀ a0, Statement (.sst a0) := by
  intros; intro op f h; cases h; rfl
theorem sbfx : ∀ a0, Statement (.sbfx a0) := by
  intros; intro op f h; cases h; rfl
theorem sclz : ∀ a0, Statement (.sclz a0) := by
  intros; intro op f h; cases h; rfl
theorem spopc : ∀ a0, Statement (.spopc a0) := by
  intros; intro op f h; cases h; rfl
theorem v2s : ∀ a0, Statement (.v2s a0) := by
  intros; intro op f h; cases h; rfl
theorem ld : ∀ a0, Statement (.ld a0) := by
  intros; intro op f h; cases h; rfl
theorem loadLands : ∀ a0, Statement (.loadLands a0) := by
  intros; intro op f h; cases h
theorem st : ∀ a0, Statement (.st a0) := by
  intros; intro op f h; cases h; rfl
theorem pref : ∀ a0, Statement (.pref a0) := by
  intros; intro op f h; cases h; rfl
theorem cctl : ∀ a0, Statement (.cctl a0) := by
  intros; intro op f h; cases h; rfl
theorem hflush : ∀ a0, Statement (.hflush a0) := by
  intros; intro op f h; cases h; rfl
theorem hinv : ∀ a0, Statement (.hinv a0) := by
  intros; intro op f h; cases h; rfl
theorem hinvComplete : ∀ a0 a1 a2, Statement (.hinvComplete a0 a1 a2) := by
  intros; intro op f h; cases h
theorem phase : ∀ a0, Statement (.phase a0) := by
  intros; intro op f h; cases h; rfl
theorem padq : ∀ a0, Statement (.padq a0) := by
  intros; intro op f h; cases h; rfl
theorem atom : ∀ a0, Statement (.atom a0) := by
  intros; intro op f h; cases h; rfl
theorem atomCas : ∀ a0, Statement (.atomCas a0) := by
  intros; intro op f h; cases h; rfl
theorem red : ∀ a0, Statement (.red a0) := by
  intros; intro op f h; cases h; rfl
theorem atomicRequest : ∀ a0, Statement (.atomicRequest a0) := by
  intros; intro op f h; cases h
theorem dedupAck : ∀ a0, Statement (.dedupAck a0) := by
  intros; intro op f h; cases h
theorem fence : ∀ a0, Statement (.fence a0) := by
  intros; intro op f h; cases h; rfl
theorem barInit : ∀ a0, Statement (.barInit a0) := by
  intros; intro op f h; cases h; rfl
theorem barArrive : ∀ a0, Statement (.barArrive a0) := by
  intros; intro op f h; cases h; rfl
theorem barWait : ∀ a0, Statement (.barWait a0) := by
  intros; intro op f h; cases h; rfl
theorem barSync : ∀ a0, Statement (.barSync a0) := by
  intros; intro op f h; cases h; rfl
theorem barQuery : ∀ a0, Statement (.barQuery a0) := by
  intros; intro op f h; cases h; rfl
theorem barrierPhaseComplete : ∀ a0 a1, Statement (.barrierPhaseComplete a0 a1) := by
  intros; intro op f h; cases h
theorem banklock : ∀ a0, Statement (.banklock a0) := by
  intros; intro op f h; cases h; rfl
theorem banklockSpanEnd : ∀ a0 a1 a2, Statement (.banklockSpanEnd a0 a1 a2) := by
  intros; intro op f h; cases h
theorem tlwait : ∀ a0, Statement (.tlwait a0) := by
  intros; intro op f h; cases h; rfl
theorem tlread : ∀ a0, Statement (.tlread a0) := by
  intros; intro op f h; cases h; rfl
theorem copyT : ∀ a0, Statement (.copyT a0) := by
  intros; intro op f h; cases h; rfl
theorem copyL : ∀ a0, Statement (.copyL a0) := by
  intros; intro op f h; cases h; rfl
theorem copyG : ∀ a0, Statement (.copyG a0) := by
  intros; intro op f h; cases h; rfl
theorem copyFill : ∀ a0, Statement (.copyFill a0) := by
  intros; intro op f h; cases h; rfl
theorem copyStat : ∀ a0, Statement (.copyStat a0) := by
  intros; intro op f h; cases h; rfl
theorem copyComplete : ∀ a0, Statement (.copyComplete a0) := by
  intros; intro op f h; cases h
theorem copyFault : ∀ a0, Statement (.copyFault a0) := by
  intros; intro op f h; cases h
theorem obRes : ∀ a0, Statement (.obRes a0) := by
  intros; intro op f h; cases h; rfl
theorem obResZeroDone : ∀ a0, Statement (.obResZeroDone a0) := by
  intros; intro op f h; cases h
theorem obFree : ∀ a0, Statement (.obFree a0) := by
  intros; intro op f h; cases h; rfl
theorem obFreeRelease : ∀ a0, Statement (.obFreeRelease a0) := by
  intros; intro op f h; cases h
theorem anvMma : ∀ a0, Statement (.anvMma a0) := by
  intros; intro op f h; cases h; rfl
theorem anvStepStart : ∀ a0, Statement (.anvStepStart a0) := by
  intros; intro op f h; cases h
theorem anvStepCommit : ∀ a0, Statement (.anvStepCommit a0) := by
  intros; intro op f h; cases h
theorem anvZero : ∀ a0, Statement (.anvZero a0) := by
  intros; intro op f h; cases h; rfl
theorem anvZeroComplete : ∀ a0, Statement (.anvZeroComplete a0) := by
  intros; intro op f h; cases h
theorem anvDrain : ∀ a0, Statement (.anvDrain a0) := by
  intros; intro op f h; cases h; rfl
theorem anvDrainComplete : ∀ a0, Statement (.anvDrainComplete a0) := by
  intros; intro op f h; cases h
theorem anvLoadz : ∀ a0, Statement (.anvLoadz a0) := by
  intros; intro op f h; cases h; rfl
theorem anvLoadzComplete : ∀ a0, Statement (.anvLoadzComplete a0) := by
  intros; intro op f h; cases h
theorem anvFault : ∀ a0, Statement (.anvFault a0) := by
  intros; intro op f h; cases h
theorem gangSet : ∀ a0, Statement (.gangSet a0) := by
  intros; intro op f h; cases h; rfl
theorem licAcq : ∀ a0, Statement (.licAcq a0) := by
  intros; intro op f h; cases h; rfl
theorem licRel : ∀ a0, Statement (.licRel a0) := by
  intros; intro op f h; cases h; rfl
theorem licQuery : ∀ a0, Statement (.licQuery a0) := by
  intros; intro op f h; cases h; rfl
theorem licenceTransferDone : ∀ a0, Statement (.licenceTransferDone a0) := by
  intros; intro op f h; cases h
theorem licenceIdleFree : ∀ a0, Statement (.licenceIdleFree a0) := by
  intros; intro op f h; cases h
theorem licenceUrgentHandover : ∀ a0, Statement (.licenceUrgentHandover a0) := by
  intros; intro op f h; cases h
theorem twSig : ∀ a0, Statement (.twSig a0) := by
  intros; intro op f h; cases h; rfl
theorem twWait : ∀ a0, Statement (.twWait a0) := by
  intros; intro op f h; cases h; rfl
theorem recAlloc : ∀ a0, Statement (.recAlloc a0) := by
  intros; intro op f h; cases h; rfl
theorem recCommit : ∀ a0, Statement (.recCommit a0) := by
  intros; intro op f h; cases h; rfl
theorem recAbort : ∀ a0, Statement (.recAbort a0) := by
  intros; intro op f h; cases h; rfl
theorem recInfo : ∀ a0, Statement (.recInfo a0) := by
  intros; intro op f h; cases h; rfl
theorem spawn : ∀ a0, Statement (.spawn a0) := by
  intros; intro op f h; cases h; rfl
theorem pendingSpawnStart : ∀ a0, Statement (.pendingSpawnStart a0) := by
  intros; intro op f h; cases h
theorem regGive : ∀ a0, Statement (.regGive a0) := by
  intros; intro op f h; cases h; rfl
theorem regClaim : ∀ a0, Statement (.regClaim a0) := by
  intros; intro op f h; cases h; rfl
theorem ntfPost : ∀ a0, Statement (.ntfPost a0) := by
  intros; intro op f h; cases h; rfl
theorem ntfWait : ∀ a0, Statement (.ntfWait a0) := by
  intros; intro op f h; cases h; rfl
theorem trap : ∀ a0, Statement (.trap a0) := by
  intros; intro op f h; cases h; rfl
theorem brk : ∀ a0, Statement (.brk a0) := by
  intros; intro op f h; cases h; rfl
theorem trapRet : ∀ a0, Statement (.trapRet a0) := by
  intros; intro op f h; cases h; rfl
theorem vary : ∀ a0, Statement (.vary a0) := by
  intros; intro op f h; cases h; rfl
theorem bundleIssue : ∀ a0, Statement (.bundleIssue a0) := by
  intros; intro op f h; cases h
theorem resultLanding : ∀ a0 a1, Statement (.resultLanding a0 a1) := by
  intros; intro op f h; cases h
theorem lwLdComplete : ∀ a0, Statement (.lwLdComplete a0) := by
  intros; intro op f h; cases h
theorem lwStComplete : ∀ a0, Statement (.lwStComplete a0) := by
  intros; intro op f h; cases h
theorem modeSimtDrainDone : ∀ a0 a1, Statement (.modeSimtDrainDone a0 a1) := by
  intros; intro op f h; cases h
theorem safePointWatchdog : ∀ a0 a1, Statement (.safePointWatchdog a0 a1) := by
  intros; intro op f h; cases h
theorem limewashGranuleClear : ∀ a0 a1, Statement (.limewashGranuleClear a0 a1) := by
  intros; intro op f h; cases h
theorem lampColdThreshold : ∀ a0, Statement (.lampColdThreshold a0) := by
  intros; intro op f h; cases h
theorem lampWakeComplete : ∀ a0, Statement (.lampWakeComplete a0) := by
  intros; intro op f h; cases h
theorem lampRelease : ∀ a0, Statement (.lampRelease a0) := by
  intros; intro op f h; cases h
theorem nearThresholdEnter : ∀ a0 a1, Statement (.nearThresholdEnter a0 a1) := by
  intros; intro op f h; cases h
theorem nearThresholdLeave : ∀ a0 a1, Statement (.nearThresholdLeave a0 a1) := by
  intros; intro op f h; cases h
theorem parkWorkgroup : ∀ a0, Statement (.parkWorkgroup a0) := by
  intros; intro op f h; cases h
theorem batchTimerExpiry : ∀ a0 a1, Statement (.batchTimerExpiry a0 a1) := by
  intros; intro op f h; cases h
theorem workgroupPlace : ∀ a0, Statement (.workgroupPlace a0) := by
  intros; intro op f h; cases h
theorem preemptVictims : ∀ a0 a1, Statement (.preemptVictims a0 a1) := by
  intros; intro op f h; cases h
theorem preemptSave : ∀ a0, Statement (.preemptSave a0) := by
  intros; intro op f h; cases h
theorem workgroupRestore : ∀ a0 a1, Statement (.workgroupRestore a0 a1) := by
  intros; intro op f h; cases h
theorem activate : ∀ a0, Statement (.activate a0) := by
  intros; intro op f h; cases h
theorem reload : ∀ a0, Statement (.reload a0) := by
  intros; intro op f h; cases h
theorem deactivate : ∀ a0, Statement (.deactivate a0) := by
  intros; intro op f h; cases h
theorem doorbell : ∀ a0 a1, Statement (.doorbell a0 a1) := by
  intros; intro op f h; cases h
theorem trapEntry : ∀ a0 a1, Statement (.trapEntry a0 a1) := by
  intros; intro op f h; cases h
theorem lateFault : ∀ a0 a1 a2, Statement (.lateFault a0 a1 a2) := by
  intros; intro op f h; cases h
theorem pageWalkComplete : ∀ a0, Statement (.pageWalkComplete a0) := by
  intros; intro op f h; cases h
theorem atsCompletion : ∀ a0 a1, Statement (.atsCompletion a0 a1) := by
  intros; intro op f h; cases h
theorem priResponse : ∀ a0 a1, Statement (.priResponse a0 a1) := by
  intros; intro op f h; cases h
theorem atsInvalidation : ∀ a0 a1 a2, Statement (.atsInvalidation a0 a1 a2) := by
  intros; intro op f h; cases h
theorem tlbInvalidateAll : ∀ a0 a1, Statement (.tlbInvalidateAll a0 a1) := by
  intros; intro op f h; cases h
theorem tlbInvalidateAsid : ∀ a0 a1, Statement (.tlbInvalidateAsid a0 a1) := by
  intros; intro op f h; cases h
theorem tlbInvalidateRange : ∀ a0 a1, Statement (.tlbInvalidateRange a0 a1) := by
  intros; intro op f h; cases h
theorem tlbInvalidationComplete : ∀ a0, Statement (.tlbInvalidationComplete a0) := by
  intros; intro op f h; cases h
theorem fsrdWrite : ∀ a0 a1, Statement (.fsrdWrite a0 a1) := by
  intros; intro op f h; cases h
theorem hostBarRead : ∀ a0 a1 a2 a3 a4, Statement (.hostBarRead a0 a1 a2 a3 a4) := by
  intros; intro op f h; cases h
theorem hostBarWrite : ∀ a0 a1 a2 a3 a4, Statement (.hostBarWrite a0 a1 a2 a3 a4) := by
  intros; intro op f h; cases h
theorem hostAtomicop : ∀ a0 a1 a2, Statement (.hostAtomicop a0 a1 a2) := by
  intros; intro op f h; cases h
theorem pcieLinkTrain : ∀ a0 a1, Statement (.pcieLinkTrain a0 a1) := by
  intros; intro op f h; cases h
theorem lockInterface : ∀ a0, Statement (.lockInterface a0) := by
  intros; intro op f h; cases h
theorem stopInterface : ∀ a0, Statement (.stopInterface a0) := by
  intros; intro op f h; cases h
theorem ideIntegrityFailure : ∀ a0, Statement (.ideIntegrityFailure a0) := by
  intros; intro op f h; cases h
theorem keyUpdate : ∀ a0, Statement (.keyUpdate a0) := by
  intros; intro op f h; cases h
theorem tdiUnlockComplete : ∀ a0, Statement (.tdiUnlockComplete a0) := by
  intros; intro op f h; cases h
theorem flitReceive : ∀ a0 a1, Statement (.flitReceive a0 a1) := by
  intros; intro op f h; cases h
theorem negativeAcknowledgement : ∀ a0 a1, Statement (.negativeAcknowledgement a0 a1) := by
  intros; intro op f h; cases h
theorem linkFailed : ∀ a0, Statement (.linkFailed a0) := by
  intros; intro op f h; cases h
theorem admissionRequest : ∀ a0 a1 a2, Statement (.admissionRequest a0 a1 a2) := by
  intros; intro op f h; cases h
theorem admissionGrant : ∀ a0 a1, Statement (.admissionGrant a0 a1) := by
  intros; intro op f h; cases h
theorem peerRequest : ∀ a0 a1 a2, Statement (.peerRequest a0 a1 a2) := by
  intros; intro op f h; cases h
theorem linkTrain : ∀ a0 a1 a2, Statement (.linkTrain a0 a1 a2) := by
  intros; intro op f h; cases h
theorem hartAccess : ∀ a0 a1 a2 a3 a4, Statement (.hartAccess a0 a1 a2 a3 a4) := by
  intros; intro op f h; cases h
theorem retag : ∀ a0, Statement (.retag a0) := by
  intros; intro op f h; cases h
theorem sethart : ∀ a0, Statement (.sethart a0) := by
  intros; intro op f h; cases h
theorem domReload : ∀ a0, Statement (.domReload a0) := by
  intros; intro op f h; cases h
theorem readtag : ∀ a0, Statement (.readtag a0) := by
  intros; intro op f h; cases h
theorem notifyWindowSet : ∀ a0 a1 a2, Statement (.notifyWindowSet a0 a1 a2) := by
  intros; intro op f h; cases h
theorem notifyWindowAdd : ∀ a0 a1 a2, Statement (.notifyWindowAdd a0 a1 a2) := by
  intros; intro op f h; cases h
theorem capw : ∀ a0, Statement (.capw a0) := by
  intros; intro op f h; cases h
theorem plevelChange : ∀ a0 a1 a2, Statement (.plevelChange a0 a1 a2) := by
  intros; intro op f h; cases h
theorem supplyDroop : ∀ a0, Statement (.supplyDroop a0) := by
  intros; intro op f h; cases h
theorem supplyRecover : ∀ a0, Statement (.supplyRecover a0) := by
  intros; intro op f h; cases h
theorem thermalTrip : ∀ a0, Statement (.thermalTrip a0) := by
  intros; intro op f h; cases h
theorem thermalTripEnd : ∀ a0, Statement (.thermalTripEnd a0) := by
  intros; intro op f h; cases h
theorem sampleWrite : ∀ a0 a1, Statement (.sampleWrite a0 a1) := by
  intros; intro op f h; cases h
theorem sampctlWrite : ∀ a0, Statement (.sampctlWrite a0) := by
  intros; intro op f h; cases h
theorem hclr : ∀ a0, Statement (.hclr a0) := by
  intros; intro op f h; cases h
theorem update : ∀ a0, Statement (.update a0) := by
  intros; intro op f h; cases h
theorem firmwareUpdateDone : ∀ a0 a1, Statement (.firmwareUpdateDone a0 a1) := by
  intros; intro op f h; cases h
theorem vfFlr : ∀ a0, Statement (.vfFlr a0) := by
  intros; intro op f h; cases h
theorem registerWrite : ∀ a0 a1, Statement (.registerWrite a0 a1) := by
  intros; intro op f h; cases h
theorem storePerformed : ∀ a0, Statement (.storePerformed a0) := by
  intros; intro op f h; cases h
theorem clusterPowerGate : ∀ a0, Statement (.clusterPowerGate a0) := by
  intros; intro op f h; cases h
theorem startInterface : ∀ a0, Statement (.startInterface a0) := by
  intros; intro op f h; cases h
theorem ideKm : ∀ a0, Statement (.ideKm a0) := by
  intros; intro op f h; cases h
theorem doorbellCommit : Statement .doorbellCommit := by
  intro op f h; cases h
theorem endSession : Statement .endSession := by
  intro op f h; cases h
theorem spdmHeartbeatMissed : Statement .spdmHeartbeatMissed := by
  intro op f h; cases h
theorem getMeasurements : Statement .getMeasurements := by
  intro op f h; cases h
theorem bellowsWatchdogRestart : Statement .bellowsWatchdogRestart := by
  intro op f h; cases h
theorem icinv : Statement .icinv := by
  intro op f h; cases h
theorem unfreeze : Statement .unfreeze := by
  intro op f h; cases h
theorem start : Statement .start := by
  intro op f h; cases h
theorem restore : Statement .restore := by
  intro op f h; cases h
theorem checkpointDone : Statement .checkpointDone := by
  intro op f h; cases h
theorem powerOnReset : Statement .powerOnReset := by
  intro op f h; cases h
theorem pcieFundamentalReset : Statement .pcieFundamentalReset := by
  intro op f h; cases h
theorem spdmSessionStart : Statement .spdmSessionStart := by
  intro op f h; cases h
theorem spdmHeartbeat : Statement .spdmHeartbeat := by
  intro op f h; cases h
theorem rcmdComplete : Statement .rcmdComplete := by
  intro op f h; cases h
theorem domcmdComplete : Statement .domcmdComplete := by
  intro op f h; cases h

end Sys2Proof.Laws.Coded
end

