-- ==== Sys2Proof/Laws/Regs.lean ====
section
/-!
SUPPORT. What the writes of registers leave as it was: in the warp, and in the state.
-/

namespace Sys2Proof.Machine

/-! ### Warp.setVreg -/

@[simp] theorem Warp.setVreg_lg (x : Warp) (n i : Nat) (v : Word32) : (x.setVreg n i v).lg = x.lg := by
  unfold Warp.setVreg; split
  · split <;> rfl
  · rfl
@[simp] theorem Warp.setVreg_slot (x : Warp) (n i : Nat) (v : Word32) : (x.setVreg n i v).slot = x.slot := by
  unfold Warp.setVreg; split
  · split <;> rfl
  · rfl
@[simp] theorem Warp.setVreg_alloc (x : Warp) (n i : Nat) (v : Word32) : (x.setVreg n i v).alloc = x.alloc := by
  unfold Warp.setVreg; split
  · split <;> rfl
  · rfl
@[simp] theorem Warp.setVreg_role (x : Warp) (n i : Nat) (v : Word32) : (x.setVreg n i v).role = x.role := by
  unfold Warp.setVreg; split
  · split <;> rfl
  · rfl
@[simp] theorem Warp.setVreg_xlg (x : Warp) (n i : Nat) (v : Word32) : (x.setVreg n i v).xlg = x.xlg := by
  unfold Warp.setVreg; split
  · split <;> rfl
  · rfl
@[simp] theorem Warp.setVreg_frags (x : Warp) (n i : Nat) (v : Word32) : (x.setVreg n i v).frags = x.frags := by
  unfold Warp.setVreg; split
  · split <;> rfl
  · rfl
@[simp] theorem Warp.setVreg_wmask (x : Warp) (n i : Nat) (v : Word32) : (x.setVreg n i v).wmask = x.wmask := by
  unfold Warp.setVreg; split
  · split <;> rfl
  · rfl
@[simp] theorem Warp.setVreg_sregs (x : Warp) (n i : Nat) (v : Word32) : (x.setVreg n i v).sregs = x.sregs := by
  unfold Warp.setVreg; split
  · split <;> rfl
  · rfl
@[simp] theorem Warp.setVreg_mregs (x : Warp) (n i : Nat) (v : Word32) : (x.setVreg n i v).mregs = x.mregs := by
  unfold Warp.setVreg; split
  · split <;> rfl
  · rfl
@[simp] theorem Warp.setVreg_fpstat (x : Warp) (n i : Nat) (v : Word32) : (x.setVreg n i v).fpstat = x.fpstat := by
  unfold Warp.setVreg; split
  · split <;> rfl
  · rfl
@[simp] theorem Warp.setVreg_sf (x : Warp) (n i : Nat) (v : Word32) : (x.setVreg n i v).sf = x.sf := by
  unfold Warp.setVreg; split
  · split <;> rfl
  · rfl
@[simp] theorem Warp.setVreg_seeds (x : Warp) (n i : Nat) (v : Word32) : (x.setVreg n i v).seeds = x.seeds := by
  unfold Warp.setVreg; split
  · split <;> rfl
  · rfl
@[simp] theorem Warp.setVreg_tcount (x : Warp) (n i : Nat) (v : Word32) : (x.setVreg n i v).tcount = x.tcount := by
  unfold Warp.setVreg; split
  · split <;> rfl
  · rfl
@[simp] theorem Warp.setVreg_due (x : Warp) (n i : Nat) (v : Word32) : (x.setVreg n i v).due = x.due := by
  unfold Warp.setVreg; split
  · split <;> rfl
  · rfl
@[simp] theorem Warp.setVreg_late (x : Warp) (n i : Nat) (v : Word32) : (x.setVreg n i v).late = x.late := by
  unfold Warp.setVreg; split
  · split <;> rfl
  · rfl
@[simp] theorem Warp.setVreg_lw (x : Warp) (n i : Nat) (v : Word32) : (x.setVreg n i v).lw = x.lw := by
  unfold Warp.setVreg; split
  · split <;> rfl
  · rfl
@[simp] theorem Warp.setVreg_vals (x : Warp) (n i : Nat) (v : Word32) : (x.setVreg n i v).vals = x.vals := by
  unfold Warp.setVreg; split
  · split <;> rfl
  · rfl
@[simp] theorem Warp.setVreg_washing (x : Warp) (n i : Nat) (v : Word32) : (x.setVreg n i v).washing = x.washing := by
  unfold Warp.setVreg; split
  · split <;> rfl
  · rfl
@[simp] theorem Warp.setVreg_engine (x : Warp) (n i : Nat) (v : Word32) : (x.setVreg n i v).engine = x.engine := by
  unfold Warp.setVreg; split
  · split <;> rfl
  · rfl

/-! ### Warp.setSreg -/

@[simp] theorem Warp.setSreg_lg (x : Warp) (n : Nat) (v : Word64) : (x.setSreg n v).lg = x.lg := by
  unfold Warp.setSreg; split
  · rfl
  · split
    · split <;> rfl
    · rfl
@[simp] theorem Warp.setSreg_slot (x : Warp) (n : Nat) (v : Word64) : (x.setSreg n v).slot = x.slot := by
  unfold Warp.setSreg; split
  · rfl
  · split
    · split <;> rfl
    · rfl
@[simp] theorem Warp.setSreg_alloc (x : Warp) (n : Nat) (v : Word64) : (x.setSreg n v).alloc = x.alloc := by
  unfold Warp.setSreg; split
  · rfl
  · split
    · split <;> rfl
    · rfl
@[simp] theorem Warp.setSreg_role (x : Warp) (n : Nat) (v : Word64) : (x.setSreg n v).role = x.role := by
  unfold Warp.setSreg; split
  · rfl
  · split
    · split <;> rfl
    · rfl
@[simp] theorem Warp.setSreg_xlg (x : Warp) (n : Nat) (v : Word64) : (x.setSreg n v).xlg = x.xlg := by
  unfold Warp.setSreg; split
  · rfl
  · split
    · split <;> rfl
    · rfl
@[simp] theorem Warp.setSreg_frags (x : Warp) (n : Nat) (v : Word64) : (x.setSreg n v).frags = x.frags := by
  unfold Warp.setSreg; split
  · rfl
  · split
    · split <;> rfl
    · rfl
@[simp] theorem Warp.setSreg_wmask (x : Warp) (n : Nat) (v : Word64) : (x.setSreg n v).wmask = x.wmask := by
  unfold Warp.setSreg; split
  · rfl
  · split
    · split <;> rfl
    · rfl
@[simp] theorem Warp.setSreg_vregs (x : Warp) (n : Nat) (v : Word64) : (x.setSreg n v).vregs = x.vregs := by
  unfold Warp.setSreg; split
  · rfl
  · split
    · split <;> rfl
    · rfl
@[simp] theorem Warp.setSreg_mregs (x : Warp) (n : Nat) (v : Word64) : (x.setSreg n v).mregs = x.mregs := by
  unfold Warp.setSreg; split
  · rfl
  · split
    · split <;> rfl
    · rfl
@[simp] theorem Warp.setSreg_fpstat (x : Warp) (n : Nat) (v : Word64) : (x.setSreg n v).fpstat = x.fpstat := by
  unfold Warp.setSreg; split
  · rfl
  · split
    · split <;> rfl
    · rfl
@[simp] theorem Warp.setSreg_sf (x : Warp) (n : Nat) (v : Word64) : (x.setSreg n v).sf = x.sf := by
  unfold Warp.setSreg; split
  · rfl
  · split
    · split <;> rfl
    · rfl
@[simp] theorem Warp.setSreg_seeds (x : Warp) (n : Nat) (v : Word64) : (x.setSreg n v).seeds = x.seeds := by
  unfold Warp.setSreg; split
  · rfl
  · split
    · split <;> rfl
    · rfl
@[simp] theorem Warp.setSreg_poisoned (x : Warp) (n : Nat) (v : Word64) : (x.setSreg n v).poisoned = x.poisoned := by
  unfold Warp.setSreg; split
  · rfl
  · split
    · split <;> rfl
    · rfl
@[simp] theorem Warp.setSreg_tcount (x : Warp) (n : Nat) (v : Word64) : (x.setSreg n v).tcount = x.tcount := by
  unfold Warp.setSreg; split
  · rfl
  · split
    · split <;> rfl
    · rfl
@[simp] theorem Warp.setSreg_due (x : Warp) (n : Nat) (v : Word64) : (x.setSreg n v).due = x.due := by
  unfold Warp.setSreg; split
  · rfl
  · split
    · split <;> rfl
    · rfl
@[simp] theorem Warp.setSreg_late (x : Warp) (n : Nat) (v : Word64) : (x.setSreg n v).late = x.late := by
  unfold Warp.setSreg; split
  · rfl
  · split
    · split <;> rfl
    · rfl
@[simp] theorem Warp.setSreg_lw (x : Warp) (n : Nat) (v : Word64) : (x.setSreg n v).lw = x.lw := by
  unfold Warp.setSreg; split
  · rfl
  · split
    · split <;> rfl
    · rfl
@[simp] theorem Warp.setSreg_vals (x : Warp) (n : Nat) (v : Word64) : (x.setSreg n v).vals = x.vals := by
  unfold Warp.setSreg; split
  · rfl
  · split
    · split <;> rfl
    · rfl
@[simp] theorem Warp.setSreg_washing (x : Warp) (n : Nat) (v : Word64) : (x.setSreg n v).washing = x.washing := by
  unfold Warp.setSreg; split
  · rfl
  · split
    · split <;> rfl
    · rfl
@[simp] theorem Warp.setSreg_engine (x : Warp) (n : Nat) (v : Word64) : (x.setSreg n v).engine = x.engine := by
  unfold Warp.setSreg; split
  · rfl
  · split
    · split <;> rfl
    · rfl

/-! ### Warp.setMreg -/

@[simp] theorem Warp.setMreg_lg (x : Warp) (n : Nat) (v : Lanes) : (x.setMreg n v).lg = x.lg := by
  unfold Warp.setMreg; split <;> rfl
@[simp] theorem Warp.setMreg_slot (x : Warp) (n : Nat) (v : Lanes) : (x.setMreg n v).slot = x.slot := by
  unfold Warp.setMreg; split <;> rfl
@[simp] theorem Warp.setMreg_alloc (x : Warp) (n : Nat) (v : Lanes) : (x.setMreg n v).alloc = x.alloc := by
  unfold Warp.setMreg; split <;> rfl
@[simp] theorem Warp.setMreg_role (x : Warp) (n : Nat) (v : Lanes) : (x.setMreg n v).role = x.role := by
  unfold Warp.setMreg; split <;> rfl
@[simp] theorem Warp.setMreg_xlg (x : Warp) (n : Nat) (v : Lanes) : (x.setMreg n v).xlg = x.xlg := by
  unfold Warp.setMreg; split <;> rfl
@[simp] theorem Warp.setMreg_frags (x : Warp) (n : Nat) (v : Lanes) : (x.setMreg n v).frags = x.frags := by
  unfold Warp.setMreg; split <;> rfl
@[simp] theorem Warp.setMreg_wmask (x : Warp) (n : Nat) (v : Lanes) : (x.setMreg n v).wmask = x.wmask := by
  unfold Warp.setMreg; split <;> rfl
@[simp] theorem Warp.setMreg_vregs (x : Warp) (n : Nat) (v : Lanes) : (x.setMreg n v).vregs = x.vregs := by
  unfold Warp.setMreg; split <;> rfl
@[simp] theorem Warp.setMreg_sregs (x : Warp) (n : Nat) (v : Lanes) : (x.setMreg n v).sregs = x.sregs := by
  unfold Warp.setMreg; split <;> rfl
@[simp] theorem Warp.setMreg_fpstat (x : Warp) (n : Nat) (v : Lanes) : (x.setMreg n v).fpstat = x.fpstat := by
  unfold Warp.setMreg; split <;> rfl
@[simp] theorem Warp.setMreg_sf (x : Warp) (n : Nat) (v : Lanes) : (x.setMreg n v).sf = x.sf := by
  unfold Warp.setMreg; split <;> rfl
@[simp] theorem Warp.setMreg_seeds (x : Warp) (n : Nat) (v : Lanes) : (x.setMreg n v).seeds = x.seeds := by
  unfold Warp.setMreg; split <;> rfl
@[simp] theorem Warp.setMreg_poisoned (x : Warp) (n : Nat) (v : Lanes) : (x.setMreg n v).poisoned = x.poisoned := by
  unfold Warp.setMreg; split <;> rfl
@[simp] theorem Warp.setMreg_bank (x : Warp) (n : Nat) (v : Lanes) : (x.setMreg n v).bank = x.bank := by
  unfold Warp.setMreg; split <;> rfl
@[simp] theorem Warp.setMreg_tcount (x : Warp) (n : Nat) (v : Lanes) : (x.setMreg n v).tcount = x.tcount := by
  unfold Warp.setMreg; split <;> rfl
@[simp] theorem Warp.setMreg_due (x : Warp) (n : Nat) (v : Lanes) : (x.setMreg n v).due = x.due := by
  unfold Warp.setMreg; split <;> rfl
@[simp] theorem Warp.setMreg_late (x : Warp) (n : Nat) (v : Lanes) : (x.setMreg n v).late = x.late := by
  unfold Warp.setMreg; split <;> rfl
@[simp] theorem Warp.setMreg_lw (x : Warp) (n : Nat) (v : Lanes) : (x.setMreg n v).lw = x.lw := by
  unfold Warp.setMreg; split <;> rfl
@[simp] theorem Warp.setMreg_vals (x : Warp) (n : Nat) (v : Lanes) : (x.setMreg n v).vals = x.vals := by
  unfold Warp.setMreg; split <;> rfl
@[simp] theorem Warp.setMreg_washing (x : Warp) (n : Nat) (v : Lanes) : (x.setMreg n v).washing = x.washing := by
  unfold Warp.setMreg; split <;> rfl
@[simp] theorem Warp.setMreg_engine (x : Warp) (n : Nat) (v : Lanes) : (x.setMreg n v).engine = x.engine := by
  unfold Warp.setMreg; split <;> rfl

/-! ### Warp.setMask -/

@[simp] theorem Warp.setMask_lg (x : Warp) (v : Lanes) : (x.setMask v).lg = x.lg := by
  unfold Warp.setMask; split <;> rfl
@[simp] theorem Warp.setMask_slot (x : Warp) (v : Lanes) : (x.setMask v).slot = x.slot := by
  unfold Warp.setMask; split <;> rfl
@[simp] theorem Warp.setMask_alloc (x : Warp) (v : Lanes) : (x.setMask v).alloc = x.alloc := by
  unfold Warp.setMask; split <;> rfl
@[simp] theorem Warp.setMask_role (x : Warp) (v : Lanes) : (x.setMask v).role = x.role := by
  unfold Warp.setMask; split <;> rfl
@[simp] theorem Warp.setMask_xlg (x : Warp) (v : Lanes) : (x.setMask v).xlg = x.xlg := by
  unfold Warp.setMask; split <;> rfl
@[simp] theorem Warp.setMask_frags (x : Warp) (v : Lanes) : (x.setMask v).frags = x.frags := by
  unfold Warp.setMask; split <;> rfl
@[simp] theorem Warp.setMask_vregs (x : Warp) (v : Lanes) : (x.setMask v).vregs = x.vregs := by
  unfold Warp.setMask; split <;> rfl
@[simp] theorem Warp.setMask_sregs (x : Warp) (v : Lanes) : (x.setMask v).sregs = x.sregs := by
  unfold Warp.setMask; split <;> rfl
@[simp] theorem Warp.setMask_mregs (x : Warp) (v : Lanes) : (x.setMask v).mregs = x.mregs := by
  unfold Warp.setMask; split <;> rfl
@[simp] theorem Warp.setMask_fpstat (x : Warp) (v : Lanes) : (x.setMask v).fpstat = x.fpstat := by
  unfold Warp.setMask; split <;> rfl
@[simp] theorem Warp.setMask_sf (x : Warp) (v : Lanes) : (x.setMask v).sf = x.sf := by
  unfold Warp.setMask; split <;> rfl
@[simp] theorem Warp.setMask_seeds (x : Warp) (v : Lanes) : (x.setMask v).seeds = x.seeds := by
  unfold Warp.setMask; split <;> rfl
@[simp] theorem Warp.setMask_poisoned (x : Warp) (v : Lanes) : (x.setMask v).poisoned = x.poisoned := by
  unfold Warp.setMask; split <;> rfl
@[simp] theorem Warp.setMask_tcount (x : Warp) (v : Lanes) : (x.setMask v).tcount = x.tcount := by
  unfold Warp.setMask; split <;> rfl
@[simp] theorem Warp.setMask_due (x : Warp) (v : Lanes) : (x.setMask v).due = x.due := by
  unfold Warp.setMask; split <;> rfl
@[simp] theorem Warp.setMask_late (x : Warp) (v : Lanes) : (x.setMask v).late = x.late := by
  unfold Warp.setMask; split <;> rfl
@[simp] theorem Warp.setMask_lw (x : Warp) (v : Lanes) : (x.setMask v).lw = x.lw := by
  unfold Warp.setMask; split <;> rfl
@[simp] theorem Warp.setMask_vals (x : Warp) (v : Lanes) : (x.setMask v).vals = x.vals := by
  unfold Warp.setMask; split <;> rfl
@[simp] theorem Warp.setMask_washing (x : Warp) (v : Lanes) : (x.setMask v).washing = x.washing := by
  unfold Warp.setMask; split <;> rfl
@[simp] theorem Warp.setMask_engine (x : Warp) (v : Lanes) : (x.setMask v).engine = x.engine := by
  unfold Warp.setMask; split <;> rfl

/-! ### Warp.raise -/

@[simp] theorem Warp.raise_lg (x : Warp) (fl : BitVec 5) : (x.raise fl).lg = x.lg := rfl
@[simp] theorem Warp.raise_slot (x : Warp) (fl : BitVec 5) : (x.raise fl).slot = x.slot := rfl
@[simp] theorem Warp.raise_alloc (x : Warp) (fl : BitVec 5) : (x.raise fl).alloc = x.alloc := rfl
@[simp] theorem Warp.raise_role (x : Warp) (fl : BitVec 5) : (x.raise fl).role = x.role := rfl
@[simp] theorem Warp.raise_xlg (x : Warp) (fl : BitVec 5) : (x.raise fl).xlg = x.xlg := rfl
@[simp] theorem Warp.raise_frags (x : Warp) (fl : BitVec 5) : (x.raise fl).frags = x.frags := rfl
@[simp] theorem Warp.raise_wmask (x : Warp) (fl : BitVec 5) : (x.raise fl).wmask = x.wmask := rfl
@[simp] theorem Warp.raise_vregs (x : Warp) (fl : BitVec 5) : (x.raise fl).vregs = x.vregs := rfl
@[simp] theorem Warp.raise_sregs (x : Warp) (fl : BitVec 5) : (x.raise fl).sregs = x.sregs := rfl
@[simp] theorem Warp.raise_mregs (x : Warp) (fl : BitVec 5) : (x.raise fl).mregs = x.mregs := rfl
@[simp] theorem Warp.raise_sf (x : Warp) (fl : BitVec 5) : (x.raise fl).sf = x.sf := rfl
@[simp] theorem Warp.raise_seeds (x : Warp) (fl : BitVec 5) : (x.raise fl).seeds = x.seeds := rfl
@[simp] theorem Warp.raise_poisoned (x : Warp) (fl : BitVec 5) : (x.raise fl).poisoned = x.poisoned := rfl
@[simp] theorem Warp.raise_bank (x : Warp) (fl : BitVec 5) : (x.raise fl).bank = x.bank := rfl
@[simp] theorem Warp.raise_tcount (x : Warp) (fl : BitVec 5) : (x.raise fl).tcount = x.tcount := rfl
@[simp] theorem Warp.raise_due (x : Warp) (fl : BitVec 5) : (x.raise fl).due = x.due := rfl
@[simp] theorem Warp.raise_late (x : Warp) (fl : BitVec 5) : (x.raise fl).late = x.late := rfl
@[simp] theorem Warp.raise_lw (x : Warp) (fl : BitVec 5) : (x.raise fl).lw = x.lw := rfl
@[simp] theorem Warp.raise_vals (x : Warp) (fl : BitVec 5) : (x.raise fl).vals = x.vals := rfl
@[simp] theorem Warp.raise_washing (x : Warp) (fl : BitVec 5) : (x.raise fl).washing = x.washing := rfl
@[simp] theorem Warp.raise_engine (x : Warp) (fl : BitVec 5) : (x.raise fl).engine = x.engine := rfl

/-! ### Warp.setSeed -/

@[simp] theorem Warp.setSeed_lg (x : Warp) (i : Nat) (v : Word32) : (x.setSeed i v).lg = x.lg := rfl
@[simp] theorem Warp.setSeed_slot (x : Warp) (i : Nat) (v : Word32) : (x.setSeed i v).slot = x.slot := rfl
@[simp] theorem Warp.setSeed_alloc (x : Warp) (i : Nat) (v : Word32) : (x.setSeed i v).alloc = x.alloc := rfl
@[simp] theorem Warp.setSeed_role (x : Warp) (i : Nat) (v : Word32) : (x.setSeed i v).role = x.role := rfl
@[simp] theorem Warp.setSeed_xlg (x : Warp) (i : Nat) (v : Word32) : (x.setSeed i v).xlg = x.xlg := rfl
@[simp] theorem Warp.setSeed_frags (x : Warp) (i : Nat) (v : Word32) : (x.setSeed i v).frags = x.frags := rfl
@[simp] theorem Warp.setSeed_wmask (x : Warp) (i : Nat) (v : Word32) : (x.setSeed i v).wmask = x.wmask := rfl
@[simp] theorem Warp.setSeed_vregs (x : Warp) (i : Nat) (v : Word32) : (x.setSeed i v).vregs = x.vregs := rfl
@[simp] theorem Warp.setSeed_sregs (x : Warp) (i : Nat) (v : Word32) : (x.setSeed i v).sregs = x.sregs := rfl
@[simp] theorem Warp.setSeed_mregs (x : Warp) (i : Nat) (v : Word32) : (x.setSeed i v).mregs = x.mregs := rfl
@[simp] theorem Warp.setSeed_fpstat (x : Warp) (i : Nat) (v : Word32) : (x.setSeed i v).fpstat = x.fpstat := rfl
@[simp] theorem Warp.setSeed_sf (x : Warp) (i : Nat) (v : Word32) : (x.setSeed i v).sf = x.sf := rfl
@[simp] theorem Warp.setSeed_poisoned (x : Warp) (i : Nat) (v : Word32) : (x.setSeed i v).poisoned = x.poisoned := rfl
@[simp] theorem Warp.setSeed_bank (x : Warp) (i : Nat) (v : Word32) : (x.setSeed i v).bank = x.bank := rfl
@[simp] theorem Warp.setSeed_tcount (x : Warp) (i : Nat) (v : Word32) : (x.setSeed i v).tcount = x.tcount := rfl
@[simp] theorem Warp.setSeed_due (x : Warp) (i : Nat) (v : Word32) : (x.setSeed i v).due = x.due := rfl
@[simp] theorem Warp.setSeed_late (x : Warp) (i : Nat) (v : Word32) : (x.setSeed i v).late = x.late := rfl
@[simp] theorem Warp.setSeed_lw (x : Warp) (i : Nat) (v : Word32) : (x.setSeed i v).lw = x.lw := rfl
@[simp] theorem Warp.setSeed_vals (x : Warp) (i : Nat) (v : Word32) : (x.setSeed i v).vals = x.vals := rfl
@[simp] theorem Warp.setSeed_washing (x : Warp) (i : Nat) (v : Word32) : (x.setSeed i v).washing = x.washing := rfl
@[simp] theorem Warp.setSeed_engine (x : Warp) (i : Nat) (v : Word32) : (x.setSeed i v).engine = x.engine := rfl

/-! ### Writes of vector registers -/

@[simp] theorem xwrite_sched (s : State) (n : Nat) (x : XWrite) : (xwrite s n x).sched = s.sched := by
  unfold xwrite; simp only; split
  · split <;> rfl
  · rfl
@[simp] theorem vwrite_sched (s : State) (g w n i : Nat) (v : Word32) : (vwrite s g w n i v).sched = s.sched := by
  unfold vwrite; split
  · rfl
  · split <;> rfl
@[simp] theorem vwrites_sched (s : State) (g w : Nat) (rs : List (Nat × Nat × Word32)) : (vwrites s g w rs).sched = s.sched := by
  unfold vwrites; induction rs generalizing s with
  | nil => rfl
  | cons r t ih => rw [List.foldl_cons, ih, vwrite_sched]
@[simp] theorem vecWrite_sched (s : State) (c : Ctx) (f : WarpWord) (k : Nat) (val : Nat → Word64) :
    (vecWrite s c f k val).sched = s.sched := vwrites_sched _ _ _ _
@[simp] theorem applyLanes_sched (s : State) (c : Ctx) (rs : List LaneRes) : (applyLanes s c rs).sched = s.sched :=
  vwrites_sched _ _ _ _
@[simp] theorem xwrite_issuer (s : State) (n : Nat) (x : XWrite) : (xwrite s n x).issuer = s.issuer := by
  unfold xwrite; simp only; split
  · split <;> rfl
  · rfl
@[simp] theorem vwrite_issuer (s : State) (g w n i : Nat) (v : Word32) : (vwrite s g w n i v).issuer = s.issuer := by
  unfold vwrite; split
  · rfl
  · split <;> rfl
@[simp] theorem vwrites_issuer (s : State) (g w : Nat) (rs : List (Nat × Nat × Word32)) : (vwrites s g w rs).issuer = s.issuer := by
  unfold vwrites; induction rs generalizing s with
  | nil => rfl
  | cons r t ih => rw [List.foldl_cons, ih, vwrite_issuer]
@[simp] theorem vecWrite_issuer (s : State) (c : Ctx) (f : WarpWord) (k : Nat) (val : Nat → Word64) :
    (vecWrite s c f k val).issuer = s.issuer := vwrites_issuer _ _ _ _
@[simp] theorem applyLanes_issuer (s : State) (c : Ctx) (rs : List LaneRes) : (applyLanes s c rs).issuer = s.issuer :=
  vwrites_issuer _ _ _ _
@[simp] theorem xwrite_freeCtr (s : State) (n : Nat) (x : XWrite) : (xwrite s n x).freeCtr = s.freeCtr := by
  unfold xwrite; simp only; split
  · split <;> rfl
  · rfl
@[simp] theorem vwrite_freeCtr (s : State) (g w n i : Nat) (v : Word32) : (vwrite s g w n i v).freeCtr = s.freeCtr := by
  unfold vwrite; split
  · rfl
  · split <;> rfl
@[simp] theorem vwrites_freeCtr (s : State) (g w : Nat) (rs : List (Nat × Nat × Word32)) : (vwrites s g w rs).freeCtr = s.freeCtr := by
  unfold vwrites; induction rs generalizing s with
  | nil => rfl
  | cons r t ih => rw [List.foldl_cons, ih, vwrite_freeCtr]
@[simp] theorem vecWrite_freeCtr (s : State) (c : Ctx) (f : WarpWord) (k : Nat) (val : Nat → Word64) :
    (vecWrite s c f k val).freeCtr = s.freeCtr := vwrites_freeCtr _ _ _ _
@[simp] theorem applyLanes_freeCtr (s : State) (c : Ctx) (rs : List LaneRes) : (applyLanes s c rs).freeCtr = s.freeCtr :=
  vwrites_freeCtr _ _ _ _
@[simp] theorem xwrite_nextId (s : State) (n : Nat) (x : XWrite) : (xwrite s n x).nextId = s.nextId := by
  unfold xwrite; simp only; split
  · split <;> rfl
  · rfl
@[simp] theorem vwrite_nextId (s : State) (g w n i : Nat) (v : Word32) : (vwrite s g w n i v).nextId = s.nextId := by
  unfold vwrite; split
  · rfl
  · split <;> rfl
@[simp] theorem vwrites_nextId (s : State) (g w : Nat) (rs : List (Nat × Nat × Word32)) : (vwrites s g w rs).nextId = s.nextId := by
  unfold vwrites; induction rs generalizing s with
  | nil => rfl
  | cons r t ih => rw [List.foldl_cons, ih, vwrite_nextId]
@[simp] theorem vecWrite_nextId (s : State) (c : Ctx) (f : WarpWord) (k : Nat) (val : Nat → Word64) :
    (vecWrite s c f k val).nextId = s.nextId := vwrites_nextId _ _ _ _
@[simp] theorem applyLanes_nextId (s : State) (c : Ctx) (rs : List LaneRes) : (applyLanes s c rs).nextId = s.nextId :=
  vwrites_nextId _ _ _ _
@[simp] theorem xwrite_clock (s : State) (n : Nat) (x : XWrite) : (xwrite s n x).clock = s.clock := by
  unfold xwrite; simp only; split
  · split <;> rfl
  · rfl
@[simp] theorem vwrite_clock (s : State) (g w n i : Nat) (v : Word32) : (vwrite s g w n i v).clock = s.clock := by
  unfold vwrite; split
  · rfl
  · split <;> rfl
@[simp] theorem vwrites_clock (s : State) (g w : Nat) (rs : List (Nat × Nat × Word32)) : (vwrites s g w rs).clock = s.clock := by
  unfold vwrites; induction rs generalizing s with
  | nil => rfl
  | cons r t ih => rw [List.foldl_cons, ih, vwrite_clock]
@[simp] theorem vecWrite_clock (s : State) (c : Ctx) (f : WarpWord) (k : Nat) (val : Nat → Word64) :
    (vecWrite s c f k val).clock = s.clock := vwrites_clock _ _ _ _
@[simp] theorem applyLanes_clock (s : State) (c : Ctx) (rs : List LaneRes) : (applyLanes s c rs).clock = s.clock :=
  vwrites_clock _ _ _ _
@[simp] theorem xwrite_marks (s : State) (n : Nat) (x : XWrite) : (xwrite s n x).marks = s.marks := by
  unfold xwrite; simp only; split
  · split <;> rfl
  · rfl
@[simp] theorem vwrite_marks (s : State) (g w n i : Nat) (v : Word32) : (vwrite s g w n i v).marks = s.marks := by
  unfold vwrite; split
  · rfl
  · split <;> rfl
@[simp] theorem vwrites_marks (s : State) (g w : Nat) (rs : List (Nat × Nat × Word32)) : (vwrites s g w rs).marks = s.marks := by
  unfold vwrites; induction rs generalizing s with
  | nil => rfl
  | cons r t ih => rw [List.foldl_cons, ih, vwrite_marks]
@[simp] theorem vecWrite_marks (s : State) (c : Ctx) (f : WarpWord) (k : Nat) (val : Nat → Word64) :
    (vecWrite s c f k val).marks = s.marks := vwrites_marks _ _ _ _
@[simp] theorem applyLanes_marks (s : State) (c : Ctx) (rs : List LaneRes) : (applyLanes s c rs).marks = s.marks :=
  vwrites_marks _ _ _ _
@[simp] theorem xwrite_mem (s : State) (n : Nat) (x : XWrite) : (xwrite s n x).mem = s.mem := by
  unfold xwrite; simp only; split
  · split <;> rfl
  · rfl
@[simp] theorem vwrite_mem (s : State) (g w n i : Nat) (v : Word32) : (vwrite s g w n i v).mem = s.mem := by
  unfold vwrite; split
  · rfl
  · split <;> rfl
@[simp] theorem vwrites_mem (s : State) (g w : Nat) (rs : List (Nat × Nat × Word32)) : (vwrites s g w rs).mem = s.mem := by
  unfold vwrites; induction rs generalizing s with
  | nil => rfl
  | cons r t ih => rw [List.foldl_cons, ih, vwrite_mem]
@[simp] theorem vecWrite_mem (s : State) (c : Ctx) (f : WarpWord) (k : Nat) (val : Nat → Word64) :
    (vecWrite s c f k val).mem = s.mem := vwrites_mem _ _ _ _
@[simp] theorem applyLanes_mem (s : State) (c : Ctx) (rs : List LaneRes) : (applyLanes s c rs).mem = s.mem :=
  vwrites_mem _ _ _ _
@[simp] theorem xwrite_poison (s : State) (n : Nat) (x : XWrite) : (xwrite s n x).poison = s.poison := by
  unfold xwrite; simp only; split
  · split <;> rfl
  · rfl
@[simp] theorem vwrite_poison (s : State) (g w n i : Nat) (v : Word32) : (vwrite s g w n i v).poison = s.poison := by
  unfold vwrite; split
  · rfl
  · split <;> rfl
@[simp] theorem vwrites_poison (s : State) (g w : Nat) (rs : List (Nat × Nat × Word32)) : (vwrites s g w rs).poison = s.poison := by
  unfold vwrites; induction rs generalizing s with
  | nil => rfl
  | cons r t ih => rw [List.foldl_cons, ih, vwrite_poison]
@[simp] theorem vecWrite_poison (s : State) (c : Ctx) (f : WarpWord) (k : Nat) (val : Nat → Word64) :
    (vecWrite s c f k val).poison = s.poison := vwrites_poison _ _ _ _
@[simp] theorem applyLanes_poison (s : State) (c : Ctx) (rs : List LaneRes) : (applyLanes s c rs).poison = s.poison :=
  vwrites_poison _ _ _ _
@[simp] theorem xwrite_hostLines (s : State) (n : Nat) (x : XWrite) : (xwrite s n x).hostLines = s.hostLines := by
  unfold xwrite; simp only; split
  · split <;> rfl
  · rfl
@[simp] theorem vwrite_hostLines (s : State) (g w n i : Nat) (v : Word32) : (vwrite s g w n i v).hostLines = s.hostLines := by
  unfold vwrite; split
  · rfl
  · split <;> rfl
@[simp] theorem vwrites_hostLines (s : State) (g w : Nat) (rs : List (Nat × Nat × Word32)) : (vwrites s g w rs).hostLines = s.hostLines := by
  unfold vwrites; induction rs generalizing s with
  | nil => rfl
  | cons r t ih => rw [List.foldl_cons, ih, vwrite_hostLines]
@[simp] theorem vecWrite_hostLines (s : State) (c : Ctx) (f : WarpWord) (k : Nat) (val : Nat → Word64) :
    (vecWrite s c f k val).hostLines = s.hostLines := vwrites_hostLines _ _ _ _
@[simp] theorem applyLanes_hostLines (s : State) (c : Ctx) (rs : List LaneRes) : (applyLanes s c rs).hostLines = s.hostLines :=
  vwrites_hostLines _ _ _ _
@[simp] theorem xwrite_msc (s : State) (n : Nat) (x : XWrite) : (xwrite s n x).msc = s.msc := by
  unfold xwrite; simp only; split
  · split <;> rfl
  · rfl
@[simp] theorem vwrite_msc (s : State) (g w n i : Nat) (v : Word32) : (vwrite s g w n i v).msc = s.msc := by
  unfold vwrite; split
  · rfl
  · split <;> rfl
@[simp] theorem vwrites_msc (s : State) (g w : Nat) (rs : List (Nat × Nat × Word32)) : (vwrites s g w rs).msc = s.msc := by
  unfold vwrites; induction rs generalizing s with
  | nil => rfl
  | cons r t ih => rw [List.foldl_cons, ih, vwrite_msc]
@[simp] theorem vecWrite_msc (s : State) (c : Ctx) (f : WarpWord) (k : Nat) (val : Nat → Word64) :
    (vecWrite s c f k val).msc = s.msc := vwrites_msc _ _ _ _
@[simp] theorem applyLanes_msc (s : State) (c : Ctx) (rs : List LaneRes) : (applyLanes s c rs).msc = s.msc :=
  vwrites_msc _ _ _ _
@[simp] theorem xwrite_lampq (s : State) (n : Nat) (x : XWrite) : (xwrite s n x).lampq = s.lampq := by
  unfold xwrite; simp only; split
  · split <;> rfl
  · rfl
@[simp] theorem vwrite_lampq (s : State) (g w n i : Nat) (v : Word32) : (vwrite s g w n i v).lampq = s.lampq := by
  unfold vwrite; split
  · rfl
  · split <;> rfl
@[simp] theorem vwrites_lampq (s : State) (g w : Nat) (rs : List (Nat × Nat × Word32)) : (vwrites s g w rs).lampq = s.lampq := by
  unfold vwrites; induction rs generalizing s with
  | nil => rfl
  | cons r t ih => rw [List.foldl_cons, ih, vwrite_lampq]
@[simp] theorem vecWrite_lampq (s : State) (c : Ctx) (f : WarpWord) (k : Nat) (val : Nat → Word64) :
    (vecWrite s c f k val).lampq = s.lampq := vwrites_lampq _ _ _ _
@[simp] theorem applyLanes_lampq (s : State) (c : Ctx) (rs : List LaneRes) : (applyLanes s c rs).lampq = s.lampq :=
  vwrites_lampq _ _ _ _
@[simp] theorem xwrite_hostLow (s : State) (n : Nat) (x : XWrite) : (xwrite s n x).hostLow = s.hostLow := by
  unfold xwrite; simp only; split
  · split <;> rfl
  · rfl
@[simp] theorem vwrite_hostLow (s : State) (g w n i : Nat) (v : Word32) : (vwrite s g w n i v).hostLow = s.hostLow := by
  unfold vwrite; split
  · rfl
  · split <;> rfl
@[simp] theorem vwrites_hostLow (s : State) (g w : Nat) (rs : List (Nat × Nat × Word32)) : (vwrites s g w rs).hostLow = s.hostLow := by
  unfold vwrites; induction rs generalizing s with
  | nil => rfl
  | cons r t ih => rw [List.foldl_cons, ih, vwrite_hostLow]
@[simp] theorem vecWrite_hostLow (s : State) (c : Ctx) (f : WarpWord) (k : Nat) (val : Nat → Word64) :
    (vecWrite s c f k val).hostLow = s.hostLow := vwrites_hostLow _ _ _ _
@[simp] theorem applyLanes_hostLow (s : State) (c : Ctx) (rs : List LaneRes) : (applyLanes s c rs).hostLow = s.hostLow :=
  vwrites_hostLow _ _ _ _
@[simp] theorem xwrite_regrant (s : State) (n : Nat) (x : XWrite) : (xwrite s n x).regrant = s.regrant := by
  unfold xwrite; simp only; split
  · split <;> rfl
  · rfl
@[simp] theorem vwrite_regrant (s : State) (g w n i : Nat) (v : Word32) : (vwrite s g w n i v).regrant = s.regrant := by
  unfold vwrite; split
  · rfl
  · split <;> rfl
@[simp] theorem vwrites_regrant (s : State) (g w : Nat) (rs : List (Nat × Nat × Word32)) : (vwrites s g w rs).regrant = s.regrant := by
  unfold vwrites; induction rs generalizing s with
  | nil => rfl
  | cons r t ih => rw [List.foldl_cons, ih, vwrite_regrant]
@[simp] theorem vecWrite_regrant (s : State) (c : Ctx) (f : WarpWord) (k : Nat) (val : Nat → Word64) :
    (vecWrite s c f k val).regrant = s.regrant := vwrites_regrant _ _ _ _
@[simp] theorem applyLanes_regrant (s : State) (c : Ctx) (rs : List LaneRes) : (applyLanes s c rs).regrant = s.regrant :=
  vwrites_regrant _ _ _ _
@[simp] theorem xwrite_saw (s : State) (n : Nat) (x : XWrite) : (xwrite s n x).saw = s.saw := by
  unfold xwrite; simp only; split
  · split <;> rfl
  · rfl
@[simp] theorem vwrite_saw (s : State) (g w n i : Nat) (v : Word32) : (vwrite s g w n i v).saw = s.saw := by
  unfold vwrite; split
  · rfl
  · split <;> rfl
@[simp] theorem vwrites_saw (s : State) (g w : Nat) (rs : List (Nat × Nat × Word32)) : (vwrites s g w rs).saw = s.saw := by
  unfold vwrites; induction rs generalizing s with
  | nil => rfl
  | cons r t ih => rw [List.foldl_cons, ih, vwrite_saw]
@[simp] theorem vecWrite_saw (s : State) (c : Ctx) (f : WarpWord) (k : Nat) (val : Nat → Word64) :
    (vecWrite s c f k val).saw = s.saw := vwrites_saw _ _ _ _
@[simp] theorem applyLanes_saw (s : State) (c : Ctx) (rs : List LaneRes) : (applyLanes s c rs).saw = s.saw :=
  vwrites_saw _ _ _ _
@[simp] theorem xwrite_loads (s : State) (n : Nat) (x : XWrite) : (xwrite s n x).loads = s.loads := by
  unfold xwrite; simp only; split
  · split <;> rfl
  · rfl
@[simp] theorem vwrite_loads (s : State) (g w n i : Nat) (v : Word32) : (vwrite s g w n i v).loads = s.loads := by
  unfold vwrite; split
  · rfl
  · split <;> rfl
@[simp] theorem vwrites_loads (s : State) (g w : Nat) (rs : List (Nat × Nat × Word32)) : (vwrites s g w rs).loads = s.loads := by
  unfold vwrites; induction rs generalizing s with
  | nil => rfl
  | cons r t ih => rw [List.foldl_cons, ih, vwrite_loads]
@[simp] theorem vecWrite_loads (s : State) (c : Ctx) (f : WarpWord) (k : Nat) (val : Nat → Word64) :
    (vecWrite s c f k val).loads = s.loads := vwrites_loads _ _ _ _
@[simp] theorem applyLanes_loads (s : State) (c : Ctx) (rs : List LaneRes) : (applyLanes s c rs).loads = s.loads :=
  vwrites_loads _ _ _ _
@[simp] theorem xwrite_stores (s : State) (n : Nat) (x : XWrite) : (xwrite s n x).stores = s.stores := by
  unfold xwrite; simp only; split
  · split <;> rfl
  · rfl
@[simp] theorem vwrite_stores (s : State) (g w n i : Nat) (v : Word32) : (vwrite s g w n i v).stores = s.stores := by
  unfold vwrite; split
  · rfl
  · split <;> rfl
@[simp] theorem vwrites_stores (s : State) (g w : Nat) (rs : List (Nat × Nat × Word32)) : (vwrites s g w rs).stores = s.stores := by
  unfold vwrites; induction rs generalizing s with
  | nil => rfl
  | cons r t ih => rw [List.foldl_cons, ih, vwrite_stores]
@[simp] theorem vecWrite_stores (s : State) (c : Ctx) (f : WarpWord) (k : Nat) (val : Nat → Word64) :
    (vecWrite s c f k val).stores = s.stores := vwrites_stores _ _ _ _
@[simp] theorem applyLanes_stores (s : State) (c : Ctx) (rs : List LaneRes) : (applyLanes s c rs).stores = s.stores :=
  vwrites_stores _ _ _ _
@[simp] theorem xwrite_atoms (s : State) (n : Nat) (x : XWrite) : (xwrite s n x).atoms = s.atoms := by
  unfold xwrite; simp only; split
  · split <;> rfl
  · rfl
@[simp] theorem vwrite_atoms (s : State) (g w n i : Nat) (v : Word32) : (vwrite s g w n i v).atoms = s.atoms := by
  unfold vwrite; split
  · rfl
  · split <;> rfl
@[simp] theorem vwrites_atoms (s : State) (g w : Nat) (rs : List (Nat × Nat × Word32)) : (vwrites s g w rs).atoms = s.atoms := by
  unfold vwrites; induction rs generalizing s with
  | nil => rfl
  | cons r t ih => rw [List.foldl_cons, ih, vwrite_atoms]
@[simp] theorem vecWrite_atoms (s : State) (c : Ctx) (f : WarpWord) (k : Nat) (val : Nat → Word64) :
    (vecWrite s c f k val).atoms = s.atoms := vwrites_atoms _ _ _ _
@[simp] theorem applyLanes_atoms (s : State) (c : Ctx) (rs : List LaneRes) : (applyLanes s c rs).atoms = s.atoms :=
  vwrites_atoms _ _ _ _
@[simp] theorem xwrite_dedup (s : State) (n : Nat) (x : XWrite) : (xwrite s n x).dedup = s.dedup := by
  unfold xwrite; simp only; split
  · split <;> rfl
  · rfl
@[simp] theorem vwrite_dedup (s : State) (g w n i : Nat) (v : Word32) : (vwrite s g w n i v).dedup = s.dedup := by
  unfold vwrite; split
  · rfl
  · split <;> rfl
@[simp] theorem vwrites_dedup (s : State) (g w : Nat) (rs : List (Nat × Nat × Word32)) : (vwrites s g w rs).dedup = s.dedup := by
  unfold vwrites; induction rs generalizing s with
  | nil => rfl
  | cons r t ih => rw [List.foldl_cons, ih, vwrite_dedup]
@[simp] theorem vecWrite_dedup (s : State) (c : Ctx) (f : WarpWord) (k : Nat) (val : Nat → Word64) :
    (vecWrite s c f k val).dedup = s.dedup := vwrites_dedup _ _ _ _
@[simp] theorem applyLanes_dedup (s : State) (c : Ctx) (rs : List LaneRes) : (applyLanes s c rs).dedup = s.dedup :=
  vwrites_dedup _ _ _ _
@[simp] theorem xwrite_tlb (s : State) (n : Nat) (x : XWrite) : (xwrite s n x).tlb = s.tlb := by
  unfold xwrite; simp only; split
  · split <;> rfl
  · rfl
@[simp] theorem vwrite_tlb (s : State) (g w n i : Nat) (v : Word32) : (vwrite s g w n i v).tlb = s.tlb := by
  unfold vwrite; split
  · rfl
  · split <;> rfl
@[simp] theorem vwrites_tlb (s : State) (g w : Nat) (rs : List (Nat × Nat × Word32)) : (vwrites s g w rs).tlb = s.tlb := by
  unfold vwrites; induction rs generalizing s with
  | nil => rfl
  | cons r t ih => rw [List.foldl_cons, ih, vwrite_tlb]
@[simp] theorem vecWrite_tlb (s : State) (c : Ctx) (f : WarpWord) (k : Nat) (val : Nat → Word64) :
    (vecWrite s c f k val).tlb = s.tlb := vwrites_tlb _ _ _ _
@[simp] theorem applyLanes_tlb (s : State) (c : Ctx) (rs : List LaneRes) : (applyLanes s c rs).tlb = s.tlb :=
  vwrites_tlb _ _ _ _
@[simp] theorem xwrite_atsPages (s : State) (n : Nat) (x : XWrite) : (xwrite s n x).atsPages = s.atsPages := by
  unfold xwrite; simp only; split
  · split <;> rfl
  · rfl
@[simp] theorem vwrite_atsPages (s : State) (g w n i : Nat) (v : Word32) : (vwrite s g w n i v).atsPages = s.atsPages := by
  unfold vwrite; split
  · rfl
  · split <;> rfl
@[simp] theorem vwrites_atsPages (s : State) (g w : Nat) (rs : List (Nat × Nat × Word32)) : (vwrites s g w rs).atsPages = s.atsPages := by
  unfold vwrites; induction rs generalizing s with
  | nil => rfl
  | cons r t ih => rw [List.foldl_cons, ih, vwrite_atsPages]
@[simp] theorem vecWrite_atsPages (s : State) (c : Ctx) (f : WarpWord) (k : Nat) (val : Nat → Word64) :
    (vecWrite s c f k val).atsPages = s.atsPages := vwrites_atsPages _ _ _ _
@[simp] theorem applyLanes_atsPages (s : State) (c : Ctx) (rs : List LaneRes) : (applyLanes s c rs).atsPages = s.atsPages :=
  vwrites_atsPages _ _ _ _
@[simp] theorem xwrite_walks (s : State) (n : Nat) (x : XWrite) : (xwrite s n x).walks = s.walks := by
  unfold xwrite; simp only; split
  · split <;> rfl
  · rfl
@[simp] theorem vwrite_walks (s : State) (g w n i : Nat) (v : Word32) : (vwrite s g w n i v).walks = s.walks := by
  unfold vwrite; split
  · rfl
  · split <;> rfl
@[simp] theorem vwrites_walks (s : State) (g w : Nat) (rs : List (Nat × Nat × Word32)) : (vwrites s g w rs).walks = s.walks := by
  unfold vwrites; induction rs generalizing s with
  | nil => rfl
  | cons r t ih => rw [List.foldl_cons, ih, vwrite_walks]
@[simp] theorem vecWrite_walks (s : State) (c : Ctx) (f : WarpWord) (k : Nat) (val : Nat → Word64) :
    (vecWrite s c f k val).walks = s.walks := vwrites_walks _ _ _ _
@[simp] theorem applyLanes_walks (s : State) (c : Ctx) (rs : List LaneRes) : (applyLanes s c rs).walks = s.walks :=
  vwrites_walks _ _ _ _
@[simp] theorem xwrite_contexts (s : State) (n : Nat) (x : XWrite) : (xwrite s n x).contexts = s.contexts := by
  unfold xwrite; simp only; split
  · split <;> rfl
  · rfl
@[simp] theorem vwrite_contexts (s : State) (g w n i : Nat) (v : Word32) : (vwrite s g w n i v).contexts = s.contexts := by
  unfold vwrite; split
  · rfl
  · split <;> rfl
@[simp] theorem vwrites_contexts (s : State) (g w : Nat) (rs : List (Nat × Nat × Word32)) : (vwrites s g w rs).contexts = s.contexts := by
  unfold vwrites; induction rs generalizing s with
  | nil => rfl
  | cons r t ih => rw [List.foldl_cons, ih, vwrite_contexts]
@[simp] theorem vecWrite_contexts (s : State) (c : Ctx) (f : WarpWord) (k : Nat) (val : Nat → Word64) :
    (vecWrite s c f k val).contexts = s.contexts := vwrites_contexts _ _ _ _
@[simp] theorem applyLanes_contexts (s : State) (c : Ctx) (rs : List LaneRes) : (applyLanes s c rs).contexts = s.contexts :=
  vwrites_contexts _ _ _ _
@[simp] theorem xwrite_regions (s : State) (n : Nat) (x : XWrite) : (xwrite s n x).regions = s.regions := by
  unfold xwrite; simp only; split
  · split <;> rfl
  · rfl
@[simp] theorem vwrite_regions (s : State) (g w n i : Nat) (v : Word32) : (vwrite s g w n i v).regions = s.regions := by
  unfold vwrite; split
  · rfl
  · split <;> rfl
@[simp] theorem vwrites_regions (s : State) (g w : Nat) (rs : List (Nat × Nat × Word32)) : (vwrites s g w rs).regions = s.regions := by
  unfold vwrites; induction rs generalizing s with
  | nil => rfl
  | cons r t ih => rw [List.foldl_cons, ih, vwrite_regions]
@[simp] theorem vecWrite_regions (s : State) (c : Ctx) (f : WarpWord) (k : Nat) (val : Nat → Word64) :
    (vecWrite s c f k val).regions = s.regions := vwrites_regions _ _ _ _
@[simp] theorem applyLanes_regions (s : State) (c : Ctx) (rs : List LaneRes) : (applyLanes s c rs).regions = s.regions :=
  vwrites_regions _ _ _ _
@[simp] theorem vwrite_wgs (s : State) (g w n i : Nat) (v : Word32) : (vwrite s g w n i v).wgs = s.wgs := by
  unfold vwrite; split
  · rfl
  · split <;> rfl
@[simp] theorem vwrites_wgs (s : State) (g w : Nat) (rs : List (Nat × Nat × Word32)) : (vwrites s g w rs).wgs = s.wgs := by
  unfold vwrites; induction rs generalizing s with
  | nil => rfl
  | cons r t ih => rw [List.foldl_cons, ih, vwrite_wgs]
@[simp] theorem vecWrite_wgs (s : State) (c : Ctx) (f : WarpWord) (k : Nat) (val : Nat → Word64) :
    (vecWrite s c f k val).wgs = s.wgs := vwrites_wgs _ _ _ _
@[simp] theorem applyLanes_wgs (s : State) (c : Ctx) (rs : List LaneRes) : (applyLanes s c rs).wgs = s.wgs :=
  vwrites_wgs _ _ _ _
@[simp] theorem xwrite_warps (s : State) (n : Nat) (x : XWrite) : (xwrite s n x).warps = s.warps := by
  unfold xwrite; simp only; split
  · split <;> rfl
  · rfl
@[simp] theorem xwrite_cores (s : State) (n : Nat) (x : XWrite) : (xwrite s n x).cores = s.cores := by
  unfold xwrite; simp only; split
  · split <;> rfl
  · rfl
@[simp] theorem vwrite_cores (s : State) (g w n i : Nat) (v : Word32) : (vwrite s g w n i v).cores = s.cores := by
  unfold vwrite; split
  · rfl
  · split <;> rfl
@[simp] theorem vwrites_cores (s : State) (g w : Nat) (rs : List (Nat × Nat × Word32)) : (vwrites s g w rs).cores = s.cores := by
  unfold vwrites; induction rs generalizing s with
  | nil => rfl
  | cons r t ih => rw [List.foldl_cons, ih, vwrite_cores]
@[simp] theorem vecWrite_cores (s : State) (c : Ctx) (f : WarpWord) (k : Nat) (val : Nat → Word64) :
    (vecWrite s c f k val).cores = s.cores := vwrites_cores _ _ _ _
@[simp] theorem applyLanes_cores (s : State) (c : Ctx) (rs : List LaneRes) : (applyLanes s c rs).cores = s.cores :=
  vwrites_cores _ _ _ _
@[simp] theorem xwrite_lgs (s : State) (n : Nat) (x : XWrite) : (xwrite s n x).lgs = s.lgs := by
  unfold xwrite; simp only; split
  · split <;> rfl
  · rfl
@[simp] theorem vwrite_lgs (s : State) (g w n i : Nat) (v : Word32) : (vwrite s g w n i v).lgs = s.lgs := by
  unfold vwrite; split
  · rfl
  · split <;> rfl
@[simp] theorem vwrites_lgs (s : State) (g w : Nat) (rs : List (Nat × Nat × Word32)) : (vwrites s g w rs).lgs = s.lgs := by
  unfold vwrites; induction rs generalizing s with
  | nil => rfl
  | cons r t ih => rw [List.foldl_cons, ih, vwrite_lgs]
@[simp] theorem vecWrite_lgs (s : State) (c : Ctx) (f : WarpWord) (k : Nat) (val : Nat → Word64) :
    (vecWrite s c f k val).lgs = s.lgs := vwrites_lgs _ _ _ _
@[simp] theorem applyLanes_lgs (s : State) (c : Ctx) (rs : List LaneRes) : (applyLanes s c rs).lgs = s.lgs :=
  vwrites_lgs _ _ _ _
@[simp] theorem vwrite_pairs (s : State) (g w n i : Nat) (v : Word32) : (vwrite s g w n i v).pairs = s.pairs := by
  unfold vwrite; split
  · rfl
  · split <;> rfl
@[simp] theorem vwrites_pairs (s : State) (g w : Nat) (rs : List (Nat × Nat × Word32)) : (vwrites s g w rs).pairs = s.pairs := by
  unfold vwrites; induction rs generalizing s with
  | nil => rfl
  | cons r t ih => rw [List.foldl_cons, ih, vwrite_pairs]
@[simp] theorem vecWrite_pairs (s : State) (c : Ctx) (f : WarpWord) (k : Nat) (val : Nat → Word64) :
    (vecWrite s c f k val).pairs = s.pairs := vwrites_pairs _ _ _ _
@[simp] theorem applyLanes_pairs (s : State) (c : Ctx) (rs : List LaneRes) : (applyLanes s c rs).pairs = s.pairs :=
  vwrites_pairs _ _ _ _
@[simp] theorem xwrite_xpend (s : State) (n : Nat) (x : XWrite) : (xwrite s n x).xpend = s.xpend := by
  unfold xwrite; simp only; split
  · split <;> rfl
  · rfl
@[simp] theorem xwrite_copies (s : State) (n : Nat) (x : XWrite) : (xwrite s n x).copies = s.copies := by
  unfold xwrite; simp only; split
  · split <;> rfl
  · rfl
@[simp] theorem vwrite_copies (s : State) (g w n i : Nat) (v : Word32) : (vwrite s g w n i v).copies = s.copies := by
  unfold vwrite; split
  · rfl
  · split <;> rfl
@[simp] theorem vwrites_copies (s : State) (g w : Nat) (rs : List (Nat × Nat × Word32)) : (vwrites s g w rs).copies = s.copies := by
  unfold vwrites; induction rs generalizing s with
  | nil => rfl
  | cons r t ih => rw [List.foldl_cons, ih, vwrite_copies]
@[simp] theorem vecWrite_copies (s : State) (c : Ctx) (f : WarpWord) (k : Nat) (val : Nat → Word64) :
    (vecWrite s c f k val).copies = s.copies := vwrites_copies _ _ _ _
@[simp] theorem applyLanes_copies (s : State) (c : Ctx) (rs : List LaneRes) : (applyLanes s c rs).copies = s.copies :=
  vwrites_copies _ _ _ _
@[simp] theorem xwrite_anvs (s : State) (n : Nat) (x : XWrite) : (xwrite s n x).anvs = s.anvs := by
  unfold xwrite; simp only; split
  · split <;> rfl
  · rfl
@[simp] theorem vwrite_anvs (s : State) (g w n i : Nat) (v : Word32) : (vwrite s g w n i v).anvs = s.anvs := by
  unfold vwrite; split
  · rfl
  · split <;> rfl
@[simp] theorem vwrites_anvs (s : State) (g w : Nat) (rs : List (Nat × Nat × Word32)) : (vwrites s g w rs).anvs = s.anvs := by
  unfold vwrites; induction rs generalizing s with
  | nil => rfl
  | cons r t ih => rw [List.foldl_cons, ih, vwrite_anvs]
@[simp] theorem vecWrite_anvs (s : State) (c : Ctx) (f : WarpWord) (k : Nat) (val : Nat → Word64) :
    (vecWrite s c f k val).anvs = s.anvs := vwrites_anvs _ _ _ _
@[simp] theorem applyLanes_anvs (s : State) (c : Ctx) (rs : List LaneRes) : (applyLanes s c rs).anvs = s.anvs :=
  vwrites_anvs _ _ _ _
@[simp] theorem xwrite_lamps (s : State) (n : Nat) (x : XWrite) : (xwrite s n x).lamps = s.lamps := by
  unfold xwrite; simp only; split
  · split <;> rfl
  · rfl
@[simp] theorem vwrite_lamps (s : State) (g w n i : Nat) (v : Word32) : (vwrite s g w n i v).lamps = s.lamps := by
  unfold vwrite; split
  · rfl
  · split <;> rfl
@[simp] theorem vwrites_lamps (s : State) (g w : Nat) (rs : List (Nat × Nat × Word32)) : (vwrites s g w rs).lamps = s.lamps := by
  unfold vwrites; induction rs generalizing s with
  | nil => rfl
  | cons r t ih => rw [List.foldl_cons, ih, vwrite_lamps]
@[simp] theorem vecWrite_lamps (s : State) (c : Ctx) (f : WarpWord) (k : Nat) (val : Nat → Word64) :
    (vecWrite s c f k val).lamps = s.lamps := vwrites_lamps _ _ _ _
@[simp] theorem applyLanes_lamps (s : State) (c : Ctx) (rs : List LaneRes) : (applyLanes s c rs).lamps = s.lamps :=
  vwrites_lamps _ _ _ _
@[simp] theorem xwrite_vaultOwner (s : State) (n : Nat) (x : XWrite) : (xwrite s n x).vaultOwner = s.vaultOwner := by
  unfold xwrite; simp only; split
  · split <;> rfl
  · rfl
@[simp] theorem vwrite_vaultOwner (s : State) (g w n i : Nat) (v : Word32) : (vwrite s g w n i v).vaultOwner = s.vaultOwner := by
  unfold vwrite; split
  · rfl
  · split <;> rfl
@[simp] theorem vwrites_vaultOwner (s : State) (g w : Nat) (rs : List (Nat × Nat × Word32)) : (vwrites s g w rs).vaultOwner = s.vaultOwner := by
  unfold vwrites; induction rs generalizing s with
  | nil => rfl
  | cons r t ih => rw [List.foldl_cons, ih, vwrite_vaultOwner]
@[simp] theorem vecWrite_vaultOwner (s : State) (c : Ctx) (f : WarpWord) (k : Nat) (val : Nat → Word64) :
    (vecWrite s c f k val).vaultOwner = s.vaultOwner := vwrites_vaultOwner _ _ _ _
@[simp] theorem applyLanes_vaultOwner (s : State) (c : Ctx) (rs : List LaneRes) : (applyLanes s c rs).vaultOwner = s.vaultOwner :=
  vwrites_vaultOwner _ _ _ _
@[simp] theorem xwrite_notify (s : State) (n : Nat) (x : XWrite) : (xwrite s n x).notify = s.notify := by
  unfold xwrite; simp only; split
  · split <;> rfl
  · rfl
@[simp] theorem vwrite_notify (s : State) (g w n i : Nat) (v : Word32) : (vwrite s g w n i v).notify = s.notify := by
  unfold vwrite; split
  · rfl
  · split <;> rfl
@[simp] theorem vwrites_notify (s : State) (g w : Nat) (rs : List (Nat × Nat × Word32)) : (vwrites s g w rs).notify = s.notify := by
  unfold vwrites; induction rs generalizing s with
  | nil => rfl
  | cons r t ih => rw [List.foldl_cons, ih, vwrite_notify]
@[simp] theorem vecWrite_notify (s : State) (c : Ctx) (f : WarpWord) (k : Nat) (val : Nat → Word64) :
    (vecWrite s c f k val).notify = s.notify := vwrites_notify _ _ _ _
@[simp] theorem applyLanes_notify (s : State) (c : Ctx) (rs : List LaneRes) : (applyLanes s c rs).notify = s.notify :=
  vwrites_notify _ _ _ _
@[simp] theorem xwrite_recSeq (s : State) (n : Nat) (x : XWrite) : (xwrite s n x).recSeq = s.recSeq := by
  unfold xwrite; simp only; split
  · split <;> rfl
  · rfl
@[simp] theorem vwrite_recSeq (s : State) (g w n i : Nat) (v : Word32) : (vwrite s g w n i v).recSeq = s.recSeq := by
  unfold vwrite; split
  · rfl
  · split <;> rfl
@[simp] theorem vwrites_recSeq (s : State) (g w : Nat) (rs : List (Nat × Nat × Word32)) : (vwrites s g w rs).recSeq = s.recSeq := by
  unfold vwrites; induction rs generalizing s with
  | nil => rfl
  | cons r t ih => rw [List.foldl_cons, ih, vwrite_recSeq]
@[simp] theorem vecWrite_recSeq (s : State) (c : Ctx) (f : WarpWord) (k : Nat) (val : Nat → Word64) :
    (vecWrite s c f k val).recSeq = s.recSeq := vwrites_recSeq _ _ _ _
@[simp] theorem applyLanes_recSeq (s : State) (c : Ctx) (rs : List LaneRes) : (applyLanes s c rs).recSeq = s.recSeq :=
  vwrites_recSeq _ _ _ _
@[simp] theorem xwrite_placed (s : State) (n : Nat) (x : XWrite) : (xwrite s n x).placed = s.placed := by
  unfold xwrite; simp only; split
  · split <;> rfl
  · rfl
@[simp] theorem vwrite_placed (s : State) (g w n i : Nat) (v : Word32) : (vwrite s g w n i v).placed = s.placed := by
  unfold vwrite; split
  · rfl
  · split <;> rfl
@[simp] theorem vwrites_placed (s : State) (g w : Nat) (rs : List (Nat × Nat × Word32)) : (vwrites s g w rs).placed = s.placed := by
  unfold vwrites; induction rs generalizing s with
  | nil => rfl
  | cons r t ih => rw [List.foldl_cons, ih, vwrite_placed]
@[simp] theorem vecWrite_placed (s : State) (c : Ctx) (f : WarpWord) (k : Nat) (val : Nat → Word64) :
    (vecWrite s c f k val).placed = s.placed := vwrites_placed _ _ _ _
@[simp] theorem applyLanes_placed (s : State) (c : Ctx) (rs : List LaneRes) : (applyLanes s c rs).placed = s.placed :=
  vwrites_placed _ _ _ _
@[simp] theorem xwrite_faultStores (s : State) (n : Nat) (x : XWrite) : (xwrite s n x).faultStores = s.faultStores := by
  unfold xwrite; simp only; split
  · split <;> rfl
  · rfl
@[simp] theorem vwrite_faultStores (s : State) (g w n i : Nat) (v : Word32) : (vwrite s g w n i v).faultStores = s.faultStores := by
  unfold vwrite; split
  · rfl
  · split <;> rfl
@[simp] theorem vwrites_faultStores (s : State) (g w : Nat) (rs : List (Nat × Nat × Word32)) : (vwrites s g w rs).faultStores = s.faultStores := by
  unfold vwrites; induction rs generalizing s with
  | nil => rfl
  | cons r t ih => rw [List.foldl_cons, ih, vwrite_faultStores]
@[simp] theorem vecWrite_faultStores (s : State) (c : Ctx) (f : WarpWord) (k : Nat) (val : Nat → Word64) :
    (vecWrite s c f k val).faultStores = s.faultStores := vwrites_faultStores _ _ _ _
@[simp] theorem applyLanes_faultStores (s : State) (c : Ctx) (rs : List LaneRes) : (applyLanes s c rs).faultStores = s.faultStores :=
  vwrites_faultStores _ _ _ _
@[simp] theorem xwrite_host (s : State) (n : Nat) (x : XWrite) : (xwrite s n x).host = s.host := by
  unfold xwrite; simp only; split
  · split <;> rfl
  · rfl
@[simp] theorem vwrite_host (s : State) (g w n i : Nat) (v : Word32) : (vwrite s g w n i v).host = s.host := by
  unfold vwrite; split
  · rfl
  · split <;> rfl
@[simp] theorem vwrites_host (s : State) (g w : Nat) (rs : List (Nat × Nat × Word32)) : (vwrites s g w rs).host = s.host := by
  unfold vwrites; induction rs generalizing s with
  | nil => rfl
  | cons r t ih => rw [List.foldl_cons, ih, vwrite_host]
@[simp] theorem vecWrite_host (s : State) (c : Ctx) (f : WarpWord) (k : Nat) (val : Nat → Word64) :
    (vecWrite s c f k val).host = s.host := vwrites_host _ _ _ _
@[simp] theorem applyLanes_host (s : State) (c : Ctx) (rs : List LaneRes) : (applyLanes s c rs).host = s.host :=
  vwrites_host _ _ _ _
@[simp] theorem xwrite_bells (s : State) (n : Nat) (x : XWrite) : (xwrite s n x).bells = s.bells := by
  unfold xwrite; simp only; split
  · split <;> rfl
  · rfl
@[simp] theorem vwrite_bells (s : State) (g w n i : Nat) (v : Word32) : (vwrite s g w n i v).bells = s.bells := by
  unfold vwrite; split
  · rfl
  · split <;> rfl
@[simp] theorem vwrites_bells (s : State) (g w : Nat) (rs : List (Nat × Nat × Word32)) : (vwrites s g w rs).bells = s.bells := by
  unfold vwrites; induction rs generalizing s with
  | nil => rfl
  | cons r t ih => rw [List.foldl_cons, ih, vwrite_bells]
@[simp] theorem vecWrite_bells (s : State) (c : Ctx) (f : WarpWord) (k : Nat) (val : Nat → Word64) :
    (vecWrite s c f k val).bells = s.bells := vwrites_bells _ _ _ _
@[simp] theorem applyLanes_bells (s : State) (c : Ctx) (rs : List LaneRes) : (applyLanes s c rs).bells = s.bells :=
  vwrites_bells _ _ _ _
@[simp] theorem xwrite_rings (s : State) (n : Nat) (x : XWrite) : (xwrite s n x).rings = s.rings := by
  unfold xwrite; simp only; split
  · split <;> rfl
  · rfl
@[simp] theorem vwrite_rings (s : State) (g w n i : Nat) (v : Word32) : (vwrite s g w n i v).rings = s.rings := by
  unfold vwrite; split
  · rfl
  · split <;> rfl
@[simp] theorem vwrites_rings (s : State) (g w : Nat) (rs : List (Nat × Nat × Word32)) : (vwrites s g w rs).rings = s.rings := by
  unfold vwrites; induction rs generalizing s with
  | nil => rfl
  | cons r t ih => rw [List.foldl_cons, ih, vwrite_rings]
@[simp] theorem vecWrite_rings (s : State) (c : Ctx) (f : WarpWord) (k : Nat) (val : Nat → Word64) :
    (vecWrite s c f k val).rings = s.rings := vwrites_rings _ _ _ _
@[simp] theorem applyLanes_rings (s : State) (c : Ctx) (rs : List LaneRes) : (applyLanes s c rs).rings = s.rings :=
  vwrites_rings _ _ _ _
@[simp] theorem xwrite_tdis (s : State) (n : Nat) (x : XWrite) : (xwrite s n x).tdis = s.tdis := by
  unfold xwrite; simp only; split
  · split <;> rfl
  · rfl
@[simp] theorem vwrite_tdis (s : State) (g w n i : Nat) (v : Word32) : (vwrite s g w n i v).tdis = s.tdis := by
  unfold vwrite; split
  · rfl
  · split <;> rfl
@[simp] theorem vwrites_tdis (s : State) (g w : Nat) (rs : List (Nat × Nat × Word32)) : (vwrites s g w rs).tdis = s.tdis := by
  unfold vwrites; induction rs generalizing s with
  | nil => rfl
  | cons r t ih => rw [List.foldl_cons, ih, vwrite_tdis]
@[simp] theorem vecWrite_tdis (s : State) (c : Ctx) (f : WarpWord) (k : Nat) (val : Nat → Word64) :
    (vecWrite s c f k val).tdis = s.tdis := vwrites_tdis _ _ _ _
@[simp] theorem applyLanes_tdis (s : State) (c : Ctx) (rs : List LaneRes) : (applyLanes s c rs).tdis = s.tdis :=
  vwrites_tdis _ _ _ _
@[simp] theorem xwrite_spdm (s : State) (n : Nat) (x : XWrite) : (xwrite s n x).spdm = s.spdm := by
  unfold xwrite; simp only; split
  · split <;> rfl
  · rfl
@[simp] theorem vwrite_spdm (s : State) (g w n i : Nat) (v : Word32) : (vwrite s g w n i v).spdm = s.spdm := by
  unfold vwrite; split
  · rfl
  · split <;> rfl
@[simp] theorem vwrites_spdm (s : State) (g w : Nat) (rs : List (Nat × Nat × Word32)) : (vwrites s g w rs).spdm = s.spdm := by
  unfold vwrites; induction rs generalizing s with
  | nil => rfl
  | cons r t ih => rw [List.foldl_cons, ih, vwrite_spdm]
@[simp] theorem vecWrite_spdm (s : State) (c : Ctx) (f : WarpWord) (k : Nat) (val : Nat → Word64) :
    (vecWrite s c f k val).spdm = s.spdm := vwrites_spdm _ _ _ _
@[simp] theorem applyLanes_spdm (s : State) (c : Ctx) (rs : List LaneRes) : (applyLanes s c rs).spdm = s.spdm :=
  vwrites_spdm _ _ _ _
@[simp] theorem xwrite_spdmBeat (s : State) (n : Nat) (x : XWrite) : (xwrite s n x).spdmBeat = s.spdmBeat := by
  unfold xwrite; simp only; split
  · split <;> rfl
  · rfl
@[simp] theorem vwrite_spdmBeat (s : State) (g w n i : Nat) (v : Word32) : (vwrite s g w n i v).spdmBeat = s.spdmBeat := by
  unfold vwrite; split
  · rfl
  · split <;> rfl
@[simp] theorem vwrites_spdmBeat (s : State) (g w : Nat) (rs : List (Nat × Nat × Word32)) : (vwrites s g w rs).spdmBeat = s.spdmBeat := by
  unfold vwrites; induction rs generalizing s with
  | nil => rfl
  | cons r t ih => rw [List.foldl_cons, ih, vwrite_spdmBeat]
@[simp] theorem vecWrite_spdmBeat (s : State) (c : Ctx) (f : WarpWord) (k : Nat) (val : Nat → Word64) :
    (vecWrite s c f k val).spdmBeat = s.spdmBeat := vwrites_spdmBeat _ _ _ _
@[simp] theorem applyLanes_spdmBeat (s : State) (c : Ctx) (rs : List LaneRes) : (applyLanes s c rs).spdmBeat = s.spdmBeat :=
  vwrites_spdmBeat _ _ _ _
@[simp] theorem xwrite_links (s : State) (n : Nat) (x : XWrite) : (xwrite s n x).links = s.links := by
  unfold xwrite; simp only; split
  · split <;> rfl
  · rfl
@[simp] theorem vwrite_links (s : State) (g w n i : Nat) (v : Word32) : (vwrite s g w n i v).links = s.links := by
  unfold vwrite; split
  · rfl
  · split <;> rfl
@[simp] theorem vwrites_links (s : State) (g w : Nat) (rs : List (Nat × Nat × Word32)) : (vwrites s g w rs).links = s.links := by
  unfold vwrites; induction rs generalizing s with
  | nil => rfl
  | cons r t ih => rw [List.foldl_cons, ih, vwrite_links]
@[simp] theorem vecWrite_links (s : State) (c : Ctx) (f : WarpWord) (k : Nat) (val : Nat → Word64) :
    (vecWrite s c f k val).links = s.links := vwrites_links _ _ _ _
@[simp] theorem applyLanes_links (s : State) (c : Ctx) (rs : List LaneRes) : (applyLanes s c rs).links = s.links :=
  vwrites_links _ _ _ _
@[simp] theorem xwrite_outs (s : State) (n : Nat) (x : XWrite) : (xwrite s n x).outs = s.outs := by
  unfold xwrite; simp only; split
  · split <;> rfl
  · rfl
@[simp] theorem vwrite_outs (s : State) (g w n i : Nat) (v : Word32) : (vwrite s g w n i v).outs = s.outs := by
  unfold vwrite; split
  · rfl
  · split <;> rfl
@[simp] theorem vwrites_outs (s : State) (g w : Nat) (rs : List (Nat × Nat × Word32)) : (vwrites s g w rs).outs = s.outs := by
  unfold vwrites; induction rs generalizing s with
  | nil => rfl
  | cons r t ih => rw [List.foldl_cons, ih, vwrite_outs]
@[simp] theorem vecWrite_outs (s : State) (c : Ctx) (f : WarpWord) (k : Nat) (val : Nat → Word64) :
    (vecWrite s c f k val).outs = s.outs := vwrites_outs _ _ _ _
@[simp] theorem applyLanes_outs (s : State) (c : Ctx) (rs : List LaneRes) : (applyLanes s c rs).outs = s.outs :=
  vwrites_outs _ _ _ _
@[simp] theorem xwrite_epoch (s : State) (n : Nat) (x : XWrite) : (xwrite s n x).epoch = s.epoch := by
  unfold xwrite; simp only; split
  · split <;> rfl
  · rfl
@[simp] theorem vwrite_epoch (s : State) (g w n i : Nat) (v : Word32) : (vwrite s g w n i v).epoch = s.epoch := by
  unfold vwrite; split
  · rfl
  · split <;> rfl
@[simp] theorem vwrites_epoch (s : State) (g w : Nat) (rs : List (Nat × Nat × Word32)) : (vwrites s g w rs).epoch = s.epoch := by
  unfold vwrites; induction rs generalizing s with
  | nil => rfl
  | cons r t ih => rw [List.foldl_cons, ih, vwrite_epoch]
@[simp] theorem vecWrite_epoch (s : State) (c : Ctx) (f : WarpWord) (k : Nat) (val : Nat → Word64) :
    (vecWrite s c f k val).epoch = s.epoch := vwrites_epoch _ _ _ _
@[simp] theorem applyLanes_epoch (s : State) (c : Ctx) (rs : List LaneRes) : (applyLanes s c rs).epoch = s.epoch :=
  vwrites_epoch _ _ _ _
@[simp] theorem xwrite_atsInvs (s : State) (n : Nat) (x : XWrite) : (xwrite s n x).atsInvs = s.atsInvs := by
  unfold xwrite; simp only; split
  · split <;> rfl
  · rfl
@[simp] theorem vwrite_atsInvs (s : State) (g w n i : Nat) (v : Word32) : (vwrite s g w n i v).atsInvs = s.atsInvs := by
  unfold vwrite; split
  · rfl
  · split <;> rfl
@[simp] theorem vwrites_atsInvs (s : State) (g w : Nat) (rs : List (Nat × Nat × Word32)) : (vwrites s g w rs).atsInvs = s.atsInvs := by
  unfold vwrites; induction rs generalizing s with
  | nil => rfl
  | cons r t ih => rw [List.foldl_cons, ih, vwrite_atsInvs]
@[simp] theorem vecWrite_atsInvs (s : State) (c : Ctx) (f : WarpWord) (k : Nat) (val : Nat → Word64) :
    (vecWrite s c f k val).atsInvs = s.atsInvs := vwrites_atsInvs _ _ _ _
@[simp] theorem applyLanes_atsInvs (s : State) (c : Ctx) (rs : List LaneRes) : (applyLanes s c rs).atsInvs = s.atsInvs :=
  vwrites_atsInvs _ _ _ _
@[simp] theorem xwrite_posted (s : State) (n : Nat) (x : XWrite) : (xwrite s n x).posted = s.posted := by
  unfold xwrite; simp only; split
  · split <;> rfl
  · rfl
@[simp] theorem vwrite_posted (s : State) (g w n i : Nat) (v : Word32) : (vwrite s g w n i v).posted = s.posted := by
  unfold vwrite; split
  · rfl
  · split <;> rfl
@[simp] theorem vwrites_posted (s : State) (g w : Nat) (rs : List (Nat × Nat × Word32)) : (vwrites s g w rs).posted = s.posted := by
  unfold vwrites; induction rs generalizing s with
  | nil => rfl
  | cons r t ih => rw [List.foldl_cons, ih, vwrite_posted]
@[simp] theorem vecWrite_posted (s : State) (c : Ctx) (f : WarpWord) (k : Nat) (val : Nat → Word64) :
    (vecWrite s c f k val).posted = s.posted := vwrites_posted _ _ _ _
@[simp] theorem applyLanes_posted (s : State) (c : Ctx) (rs : List LaneRes) : (applyLanes s c rs).posted = s.posted :=
  vwrites_posted _ _ _ _
@[simp] theorem xwrite_hartRes (s : State) (n : Nat) (x : XWrite) : (xwrite s n x).hartRes = s.hartRes := by
  unfold xwrite; simp only; split
  · split <;> rfl
  · rfl
@[simp] theorem vwrite_hartRes (s : State) (g w n i : Nat) (v : Word32) : (vwrite s g w n i v).hartRes = s.hartRes := by
  unfold vwrite; split
  · rfl
  · split <;> rfl
@[simp] theorem vwrites_hartRes (s : State) (g w : Nat) (rs : List (Nat × Nat × Word32)) : (vwrites s g w rs).hartRes = s.hartRes := by
  unfold vwrites; induction rs generalizing s with
  | nil => rfl
  | cons r t ih => rw [List.foldl_cons, ih, vwrite_hartRes]
@[simp] theorem vecWrite_hartRes (s : State) (c : Ctx) (f : WarpWord) (k : Nat) (val : Nat → Word64) :
    (vecWrite s c f k val).hartRes = s.hartRes := vwrites_hartRes _ _ _ _
@[simp] theorem applyLanes_hartRes (s : State) (c : Ctx) (rs : List LaneRes) : (applyLanes s c rs).hartRes = s.hartRes :=
  vwrites_hartRes _ _ _ _
@[simp] theorem xwrite_windows (s : State) (n : Nat) (x : XWrite) : (xwrite s n x).windows = s.windows := by
  unfold xwrite; simp only; split
  · split <;> rfl
  · rfl
@[simp] theorem vwrite_windows (s : State) (g w n i : Nat) (v : Word32) : (vwrite s g w n i v).windows = s.windows := by
  unfold vwrite; split
  · rfl
  · split <;> rfl
@[simp] theorem vwrites_windows (s : State) (g w : Nat) (rs : List (Nat × Nat × Word32)) : (vwrites s g w rs).windows = s.windows := by
  unfold vwrites; induction rs generalizing s with
  | nil => rfl
  | cons r t ih => rw [List.foldl_cons, ih, vwrite_windows]
@[simp] theorem vecWrite_windows (s : State) (c : Ctx) (f : WarpWord) (k : Nat) (val : Nat → Word64) :
    (vecWrite s c f k val).windows = s.windows := vwrites_windows _ _ _ _
@[simp] theorem applyLanes_windows (s : State) (c : Ctx) (rs : List LaneRes) : (applyLanes s c rs).windows = s.windows :=
  vwrites_windows _ _ _ _
@[simp] theorem xwrite_windowsSeen (s : State) (n : Nat) (x : XWrite) : (xwrite s n x).windowsSeen = s.windowsSeen := by
  unfold xwrite; simp only; split
  · split <;> rfl
  · rfl
@[simp] theorem vwrite_windowsSeen (s : State) (g w n i : Nat) (v : Word32) : (vwrite s g w n i v).windowsSeen = s.windowsSeen := by
  unfold vwrite; split
  · rfl
  · split <;> rfl
@[simp] theorem vwrites_windowsSeen (s : State) (g w : Nat) (rs : List (Nat × Nat × Word32)) : (vwrites s g w rs).windowsSeen = s.windowsSeen := by
  unfold vwrites; induction rs generalizing s with
  | nil => rfl
  | cons r t ih => rw [List.foldl_cons, ih, vwrite_windowsSeen]
@[simp] theorem vecWrite_windowsSeen (s : State) (c : Ctx) (f : WarpWord) (k : Nat) (val : Nat → Word64) :
    (vecWrite s c f k val).windowsSeen = s.windowsSeen := vwrites_windowsSeen _ _ _ _
@[simp] theorem applyLanes_windowsSeen (s : State) (c : Ctx) (rs : List LaneRes) : (applyLanes s c rs).windowsSeen = s.windowsSeen :=
  vwrites_windowsSeen _ _ _ _
@[simp] theorem xwrite_dom (s : State) (n : Nat) (x : XWrite) : (xwrite s n x).dom = s.dom := by
  unfold xwrite; simp only; split
  · split <;> rfl
  · rfl
@[simp] theorem vwrite_dom (s : State) (g w n i : Nat) (v : Word32) : (vwrite s g w n i v).dom = s.dom := by
  unfold vwrite; split
  · rfl
  · split <;> rfl
@[simp] theorem vwrites_dom (s : State) (g w : Nat) (rs : List (Nat × Nat × Word32)) : (vwrites s g w rs).dom = s.dom := by
  unfold vwrites; induction rs generalizing s with
  | nil => rfl
  | cons r t ih => rw [List.foldl_cons, ih, vwrite_dom]
@[simp] theorem vecWrite_dom (s : State) (c : Ctx) (f : WarpWord) (k : Nat) (val : Nat → Word64) :
    (vecWrite s c f k val).dom = s.dom := vwrites_dom _ _ _ _
@[simp] theorem applyLanes_dom (s : State) (c : Ctx) (rs : List LaneRes) : (applyLanes s c rs).dom = s.dom :=
  vwrites_dom _ _ _ _
@[simp] theorem xwrite_bellows (s : State) (n : Nat) (x : XWrite) : (xwrite s n x).bellows = s.bellows := by
  unfold xwrite; simp only; split
  · split <;> rfl
  · rfl
@[simp] theorem vwrite_bellows (s : State) (g w n i : Nat) (v : Word32) : (vwrite s g w n i v).bellows = s.bellows := by
  unfold vwrite; split
  · rfl
  · split <;> rfl
@[simp] theorem vwrites_bellows (s : State) (g w : Nat) (rs : List (Nat × Nat × Word32)) : (vwrites s g w rs).bellows = s.bellows := by
  unfold vwrites; induction rs generalizing s with
  | nil => rfl
  | cons r t ih => rw [List.foldl_cons, ih, vwrite_bellows]
@[simp] theorem vecWrite_bellows (s : State) (c : Ctx) (f : WarpWord) (k : Nat) (val : Nat → Word64) :
    (vecWrite s c f k val).bellows = s.bellows := vwrites_bellows _ _ _ _
@[simp] theorem applyLanes_bellows (s : State) (c : Ctx) (rs : List LaneRes) : (applyLanes s c rs).bellows = s.bellows :=
  vwrites_bellows _ _ _ _
@[simp] theorem xwrite_obs (s : State) (n : Nat) (x : XWrite) : (xwrite s n x).obs = s.obs := by
  unfold xwrite; simp only; split
  · split <;> rfl
  · rfl
@[simp] theorem vwrite_obs (s : State) (g w n i : Nat) (v : Word32) : (vwrite s g w n i v).obs = s.obs := by
  unfold vwrite; split
  · rfl
  · split <;> rfl
@[simp] theorem vwrites_obs (s : State) (g w : Nat) (rs : List (Nat × Nat × Word32)) : (vwrites s g w rs).obs = s.obs := by
  unfold vwrites; induction rs generalizing s with
  | nil => rfl
  | cons r t ih => rw [List.foldl_cons, ih, vwrite_obs]
@[simp] theorem vecWrite_obs (s : State) (c : Ctx) (f : WarpWord) (k : Nat) (val : Nat → Word64) :
    (vecWrite s c f k val).obs = s.obs := vwrites_obs _ _ _ _
@[simp] theorem applyLanes_obs (s : State) (c : Ctx) (rs : List LaneRes) : (applyLanes s c rs).obs = s.obs :=
  vwrites_obs _ _ _ _
@[simp] theorem xwrite_ckpt (s : State) (n : Nat) (x : XWrite) : (xwrite s n x).ckpt = s.ckpt := by
  unfold xwrite; simp only; split
  · split <;> rfl
  · rfl
@[simp] theorem vwrite_ckpt (s : State) (g w n i : Nat) (v : Word32) : (vwrite s g w n i v).ckpt = s.ckpt := by
  unfold vwrite; split
  · rfl
  · split <;> rfl
@[simp] theorem vwrites_ckpt (s : State) (g w : Nat) (rs : List (Nat × Nat × Word32)) : (vwrites s g w rs).ckpt = s.ckpt := by
  unfold vwrites; induction rs generalizing s with
  | nil => rfl
  | cons r t ih => rw [List.foldl_cons, ih, vwrite_ckpt]
@[simp] theorem vecWrite_ckpt (s : State) (c : Ctx) (f : WarpWord) (k : Nat) (val : Nat → Word64) :
    (vecWrite s c f k val).ckpt = s.ckpt := vwrites_ckpt _ _ _ _
@[simp] theorem applyLanes_ckpt (s : State) (c : Ctx) (rs : List LaneRes) : (applyLanes s c rs).ckpt = s.ckpt :=
  vwrites_ckpt _ _ _ _
@[simp] theorem xwrite_fw (s : State) (n : Nat) (x : XWrite) : (xwrite s n x).fw = s.fw := by
  unfold xwrite; simp only; split
  · split <;> rfl
  · rfl
@[simp] theorem vwrite_fw (s : State) (g w n i : Nat) (v : Word32) : (vwrite s g w n i v).fw = s.fw := by
  unfold vwrite; split
  · rfl
  · split <;> rfl
@[simp] theorem vwrites_fw (s : State) (g w : Nat) (rs : List (Nat × Nat × Word32)) : (vwrites s g w rs).fw = s.fw := by
  unfold vwrites; induction rs generalizing s with
  | nil => rfl
  | cons r t ih => rw [List.foldl_cons, ih, vwrite_fw]
@[simp] theorem vecWrite_fw (s : State) (c : Ctx) (f : WarpWord) (k : Nat) (val : Nat → Word64) :
    (vecWrite s c f k val).fw = s.fw := vwrites_fw _ _ _ _
@[simp] theorem applyLanes_fw (s : State) (c : Ctx) (rs : List LaneRes) : (applyLanes s c rs).fw = s.fw :=
  vwrites_fw _ _ _ _
@[simp] theorem xwrite_msix (s : State) (n : Nat) (x : XWrite) : (xwrite s n x).msix = s.msix := by
  unfold xwrite; simp only; split
  · split <;> rfl
  · rfl
@[simp] theorem vwrite_msix (s : State) (g w n i : Nat) (v : Word32) : (vwrite s g w n i v).msix = s.msix := by
  unfold vwrite; split
  · rfl
  · split <;> rfl
@[simp] theorem vwrites_msix (s : State) (g w : Nat) (rs : List (Nat × Nat × Word32)) : (vwrites s g w rs).msix = s.msix := by
  unfold vwrites; induction rs generalizing s with
  | nil => rfl
  | cons r t ih => rw [List.foldl_cons, ih, vwrite_msix]
@[simp] theorem vecWrite_msix (s : State) (c : Ctx) (f : WarpWord) (k : Nat) (val : Nat → Word64) :
    (vecWrite s c f k val).msix = s.msix := vwrites_msix _ _ _ _
@[simp] theorem applyLanes_msix (s : State) (c : Ctx) (rs : List LaneRes) : (applyLanes s c rs).msix = s.msix :=
  vwrites_msix _ _ _ _
@[simp] theorem xwrite_completion (s : State) (n : Nat) (x : XWrite) : (xwrite s n x).completion = s.completion := by
  unfold xwrite; simp only; split
  · split <;> rfl
  · rfl
@[simp] theorem vwrite_completion (s : State) (g w n i : Nat) (v : Word32) : (vwrite s g w n i v).completion = s.completion := by
  unfold vwrite; split
  · rfl
  · split <;> rfl
@[simp] theorem vwrites_completion (s : State) (g w : Nat) (rs : List (Nat × Nat × Word32)) : (vwrites s g w rs).completion = s.completion := by
  unfold vwrites; induction rs generalizing s with
  | nil => rfl
  | cons r t ih => rw [List.foldl_cons, ih, vwrite_completion]
@[simp] theorem vecWrite_completion (s : State) (c : Ctx) (f : WarpWord) (k : Nat) (val : Nat → Word64) :
    (vecWrite s c f k val).completion = s.completion := vwrites_completion _ _ _ _
@[simp] theorem applyLanes_completion (s : State) (c : Ctx) (rs : List LaneRes) : (applyLanes s c rs).completion = s.completion :=
  vwrites_completion _ _ _ _
@[simp] theorem xwrite_gated (s : State) (n : Nat) (x : XWrite) : (xwrite s n x).gated = s.gated := by
  unfold xwrite; simp only; split
  · split <;> rfl
  · rfl
@[simp] theorem vwrite_gated (s : State) (g w n i : Nat) (v : Word32) : (vwrite s g w n i v).gated = s.gated := by
  unfold vwrite; split
  · rfl
  · split <;> rfl
@[simp] theorem vwrites_gated (s : State) (g w : Nat) (rs : List (Nat × Nat × Word32)) : (vwrites s g w rs).gated = s.gated := by
  unfold vwrites; induction rs generalizing s with
  | nil => rfl
  | cons r t ih => rw [List.foldl_cons, ih, vwrite_gated]
@[simp] theorem vecWrite_gated (s : State) (c : Ctx) (f : WarpWord) (k : Nat) (val : Nat → Word64) :
    (vecWrite s c f k val).gated = s.gated := vwrites_gated _ _ _ _
@[simp] theorem applyLanes_gated (s : State) (c : Ctx) (rs : List LaneRes) : (applyLanes s c rs).gated = s.gated :=
  vwrites_gated _ _ _ _

end Sys2Proof.Machine
end

