-- ==== Sys2Proof/Laws/Run.lean ====
section
/-!
SUPPORT. What the runner of the warp word answers: everything it can do, said once.
-/

namespace Sys2Proof.Machine

/-- The parts of readiness, as the runner meets them. -/
theorem unhindered_parts {op : Op} {f : WarpWord} {s : State} {c : Ctx} (h : unhindered op f s c = true) :
    (f.d && s.obs.dbgen && c.warp.bank.isNone) = false ∧ legal c.regCtx op f = true ∧
      (c.warp.bank.isSome && barredAtTrap op f) = false ∧ interlocked s c op f = false ∧
      (takesFlight op && decide (Config.maxLoads ≤ inFlight s c.g c.w)) = false ∧ poisonedReads s c op f = 0 := by
  unfold unhindered at h
  simp only [Bool.and_eq_true, Bool.not_eq_true', decide_eq_true_eq] at h
  exact ⟨h.1.1.1.1.1, h.1.1.1.1.2, h.1.1.1.2, h.1.1.2, h.1.2, h.2⟩

/-- A ready instruction answers what its effect answers. -/
theorem runWord_ready {op : Op} {f : WarpWord} {s : State} {c : Ctx} {eff : Ctx → State → State → Res}
    (h : Ready op f s c) :
    runWord op f s eff = match eff c s (past op f s c) with
      | .hold u => .next u
      | .trap t => takeTrap s t (siteOf s c (encodeWord op f) (some op) f true)
      | .trapOn u t => takeTrap u t (siteOf s c (encodeWord op f) (some op) f true)
      | .stop r => .fault r
      | .done t => .next (clearIssuer t) := by
  obtain ⟨hi, hu⟩ := h
  obtain ⟨h1, h2, h3, h4, h5, h6⟩ := unhindered_parts hu
  unfold issuing at hi
  cases hs : s.issuer with
  | none => simp [hs] at hi
  | some i =>
    have hc : ctxOf s i f.guard = some c := by simpa [hs] using hi
    unfold runWord
    simp only [hs, hc, h1, h2, h3, h4, h5, past, Bool.false_eq_true, if_false, Bool.not_true]
    cases eff c s (countSpan (advance s c f) c op f) <;> simp [h6]

/-- A ready instruction whose effect is had ends in its state. -/
theorem runWord_done {op : Op} {f : WarpWord} {s t : State} {c : Ctx} {eff : Ctx → State → State → Res}
    (h : Ready op f s c) (he : eff c s (past op f s c) = .done t) : runWord op f s eff = .next (clearIssuer t) := by
  rw [runWord_ready h, he]

/-- A ready instruction whose effect waits leaves the state of the attempt. -/
theorem runWord_hold {op : Op} {f : WarpWord} {s t : State} {c : Ctx} {eff : Ctx → State → State → Res}
    (h : Ready op f s c) (he : eff c s (past op f s c) = .hold t) : runWord op f s eff = .next t := by
  rw [runWord_ready h, he]

/-- A ready instruction with a condition of execution takes its trap. -/
theorem runWord_trap {op : Op} {f : WarpWord} {s : State} {c : Ctx} {eff : Ctx → State → State → Res} {t : Trap}
    (h : Ready op f s c) (he : eff c s (past op f s c) = .trap t) :
    runWord op f s eff = takeTrap s t (siteOf s c (encodeWord op f) (some op) f true) := by
  rw [runWord_ready h, he]

/-- Everything the runner can answer: it stops for want of an issuer, takes a trap, ends the workgroup by a double fault,
waits, or answers what the effect answers. -/
theorem runWord_cases (op : Op) (f : WarpWord) (s : State) (eff : Ctx → State → State → Res) :
    (issuing s f = none ∧ runWord op f s eff = .fault .noIssuer) ∨
      ∃ c, issuing s f = some c ∧
        ((∃ u t, runWord op f s eff = takeTrap u t (siteOf s c (encodeWord op f) (some op) f true) ∧
            (u = s ∨ eff c s (past op f s c) = .trapOn u t)) ∨
          runWord op f s eff = .next (clearIssuer (doubleFault s c.g c.w 3 trapOperand.word c.pc 0)) ∨
          runWord op f s eff = .next s ∨
          (∃ u, eff c s (past op f s c) = .hold u ∧ runWord op f s eff = .next u) ∨
          (∃ e, eff c s (past op f s c) = .stop e ∧ runWord op f s eff = .fault e) ∨
          ∃ u, eff c s (past op f s c) = .done u ∧ runWord op f s eff = .next (clearIssuer u)) := by
  cases hs : s.issuer with
  | none => exact .inl ⟨by simp [issuing, hs], by simp [runWord, hs]⟩
  | some i =>
    cases hc : ctxOf s i f.guard with
    | none => exact .inl ⟨by simp [issuing, hs, hc], by simp [runWord, hs, hc]⟩
    | some c =>
      refine .inr ⟨c, by simp [issuing, hs, hc], ?_⟩
      simp only [runWord, hs, hc]
      split
      · exact .inr (.inr (.inl rfl))
      · split
        · exact .inl ⟨_, _, rfl, .inl rfl⟩
        · split
          · exact .inl ⟨_, _, rfl, .inl rfl⟩
          · split
            · exact .inr (.inl rfl)
            · split
              · exact .inr (.inr (.inl rfl))
              · cases he : eff c s (past op f s c) with
                | hold u =>
                  simp only [past] at he
                  simp only [he]
                  exact .inr (.inr (.inr (.inl ⟨u, rfl, rfl⟩)))
                | trap t =>
                  simp only [past] at he
                  simp only [he]
                  exact .inl ⟨s, t, rfl, .inl rfl⟩
                | trapOn u t =>
                  simp only [past] at he
                  simp only [he]
                  exact .inl ⟨u, t, rfl, .inr rfl⟩
                | stop e =>
                  simp only [past] at he
                  simp only [he]
                  exact .inr (.inr (.inr (.inr (.inl ⟨e, rfl, rfl⟩))))
                | done u =>
                  simp only [past] at he
                  simp only [he]
                  split
                  · exact .inr (.inr (.inr (.inr (.inr ⟨u, rfl, rfl⟩))))
                  · exact .inl ⟨s, _, rfl, .inl rfl⟩

/-- A trap's entry is never refused: it answers a next state, or meets a hole of the physical address space. -/
theorem takeTrap_answers (s : State) (t : Trap) (a : Site) :
    (∃ u, takeTrap s t a = .next u) ∨ takeTrap s t a = .fault .physicalHole := by
  unfold takeTrap
  cases getWg s a.g with
  | none => exact .inl ⟨_, rfl⟩
  | some x =>
    cases getWarp s a.g a.w with
    | none => exact .inl ⟨_, rfl⟩
    | some p0 =>
      simp only
      repeat' split
      all_goals first
        | exact .inl ⟨_, rfl⟩
        | exact .inr rfl

end Sys2Proof.Machine
end

