-- ==== Sys2Proof/Tests/Slice0.lean ====
section
/-!
SUPPORT. The model's own tests: the spec's worked encodings and examples, ill-formed words, and for every statement of the
certificates a state and operands that meet its hypotheses.
-/

namespace Sys2Proof.Tests

set_option Elab.async false

open Sys2Proof.Machine

/-! ### Builders -/

/-- Warp 0 of workgroup 1 on core 0, selected to issue, its registers zero. -/
def sel : State := { State.reset.withFetchWord 64 0 with issuer := some ⟨1, 0, 0⟩ }

/-- The word of an operation with one mod field, guard 0, and its extension word if one is given. -/
def wd (mod : BitVec 16) (ext : Option Word64 := none) : WarpWord := ⟨false, ext.isSome, 0, 0, 0, 0, 0, mod, ext.getD 0⟩

/-- Is the word ready in the state, with a further condition on the issuing fragment? -/
def on (op : Op) (f : WarpWord) (s : State) (p : Ctx → Bool := fun _ => true) : Bool :=
  match issuing s f with
  | some c => unhindered op f s c && p c
  | none => false

/-- What `on` says. -/
theorem on_ready {op : Op} {f : WarpWord} {s : State} {p : Ctx → Bool} (h : on op f s p = true) :
    ∃ c, Ready op f s c ∧ p c = true := by
  unfold on at h
  split at h
  · next c hc =>
    rw [Bool.and_eq_true] at h
    exact ⟨c, ⟨hc, h.1⟩, h.2⟩
  · cases h

/-- A list of words, all ready in one state. -/
def allOn (s : State) (l : List (Op × BitVec 16)) : Bool := l.all (fun q => on q.1 (wd q.2) s)

/-- The state with the warp changed. -/
def warpIs (f : Warp → Warp) : State := modWarp sel 1 0 f
/-- The state with the workgroup changed. -/
def wgIs (f : Wg → Wg) : State := modWg sel 1 f
/-- The state with the fragment changed. -/
def fragIs (f : Frag → Frag) : State := warpIs (fun x => { x with frags := mmod x.frags 0 f })
/-- The state with a scratchpad granule granted and LIT. -/
def padded : State := setLamp (wgIs (fun x => { x with padSize := 4096 })) 0 (.lit 0)
/-- Do the checks of an access hold? -/
def passes : Checked → Bool
  | .ok _ => true
  | _ => false
/-- Do they hold, with one place? -/
def passesOne : Checked → Bool
  | .ok [_] => true
  | _ => false

/-! ### Witnesses: the arithmetic classes -/

theorem wit_IntegerArithmeticResults :
    allOn sel [(.iadd, 0), (.isub, 1), (.imul, 2), (.imulh, 3), (.imad, 0x10), (.imin, 7), (.imax, 6), (.iabsd, 0x14)] = true := by
  decide +kernel

theorem wit_IntegerBitResults :
    allOn sel [(.ishl, 0x20), (.ishr, 2), (.ishra, 3), (.fshf, 0x60), (.bool3, 0xFF0), (.bfx, 1), (.bfi, 2), (.clz, 0), (.popc, 2),
      (.brev, 0)] = true := by decide +kernel

theorem wit_IntegerMoveSelectResults :
    allOn sel [(.mov, 0), (.movi, 0x8001), (.icmp, 0xA7), (.icmp, 0x100), (.sel, 0x20), (.iaddc, 0x20), (.idp4, 0x71), (.bysel, 0)] = true := by
  decide +kernel

theorem wit_FloatArithmeticResults :
    allOn sel [(.fadd, 0x48), (.fsub, 9), (.fmul, 0xA), (.ffma, 0xB), (.fmin, 0x88), (.fmax, 8), (.fcmp, 0x808)] = true := by
  decide +kernel

theorem wit_FloatFunctionResults :
    allOn sel [(.frcp, 8), (.fsqrt, 0x39), (.fdiv, 8), (.frnd, 0x18), (.fscale, 9), (.fclass, 0xA), (.frsq, 8), (.fexp2, 0x88), (.flog2, 8),
      (.fsinpi, 8), (.fcospi, 8), (.ftanh, 8)] = true := by decide +kernel

theorem wit_ConversionResults :
    allOn sel [(.cvt, 0x81B), (.pack, 0x8CE), (.pack, 4), (.unpack, 0xE08), (.qblk, 0x84E), (.qblk, 0x80C), (.dqblk, 0xE08)] = true := by
  decide +kernel

theorem wit_ScalarResults :
    allOn sel [(.sadd, 0), (.ssub, 0), (.smul, 0), (.smulh, 1), (.sand, 0), (.sor, 0), (.sxor, 0), (.sshl, 0), (.sshr, 0), (.sshra, 0),
      (.smin, 1), (.smax, 0), (.ssel, 0), (.smov, 0), (.sli, 0x8001), (.sbfx, 1), (.sclz, 0), (.spopc, 0), (.scmp, 9), (.v2s, 3)] = true := by
  decide +kernel

theorem wit_MaskResults :
    allOn sel [(.ballot, 0), (.vote, 3), (.leader, 0), (.mskOp, 4), (.mskSave, 2), (.mskWset, 1), (.popcM, 0), (.firstM, 0)] = true := by
  decide +kernel

theorem wit_CrossLaneResults :
    allOn sel [(.shfl, 0x21), (.bcast, 1), (.lscan, 0x208), (.lred, 0x140)] = true := by decide +kernel

theorem wit_RegisterClassFrame :
    allOn sel [(.scmp, 0), (.fadd, 8), (.iaddc, 0), (.tlread, 3), (.barQuery, 0), (.padq, 0), (.getsr, 0), (.nop, 0)] = true ∧
    barTurn sel 1 0 = true := by
  decide +kernel

/-- Every operation that the frame of the register classes speaks of has a family. -/
theorem families_disjoint : (intOps ++ fltOps ++ scaOps ++ maskOps).Nodup := by decide

/-! ### Witnesses: control, memory, synchronisation -/

theorem wit_ControlResults :
    allOn sel [(.nop, 0), (.yield, 0), (.sleep, 0), (.ret, 0)] = true ∧
    on .bra (wd 0 (some 8)) sel (fun c => (branchTarget c (wd 0 (some 8))).toNat % 8 = 0) = true ∧
    on .bra { wd 0 (some 8) with guard := 1 } sel (fun c => c.p = 0) = true ∧
    on .call (wd 0 (some 0xFFFFFFF8)) sel (fun c => (branchTarget c (wd 0 (some 0xFFFFFFF8))).toNat % 8 = 0) = true ∧
    on .ret (wd 0) sel (fun c => c.frag ≠ 0 && (lanesOf c.frag).all (fun i => vread64 sel c.g c.w 0 i 2 = 0)) = true ∧
    on .ret (wd 0) (warpIs (fun x => x.setVreg 0 4 8)) (fun c => c.warp.bank.isNone &&
      (lanesOf c.frag).all (fun i => (vread64 (warpIs (fun x => x.setVreg 0 4 8)) c.g c.w 0 i 2).toNat % 8 = 0) &&
      nub ((lanesOf c.frag).map (fun i => vread64 (warpIs (fun x => x.setVreg 0 4 8)) c.g c.w 0 i 2)) = [0, 8]) = true ∧
    on .sleep { wd 0x8000 with b := 5 } sel (fun c => (sB c .sleep { wd 0x8000 with b := 5 }).toNat ≠ 0) = true ∧
    on .join (wd 0) sel (fun c => (mget c.warp.frags c.e).any (fun fr => fr.rca ≠ c.pc)) = true := by decide +kernel

/-- BRX with guard m1, to 0x10010, meeting at 0x10040. -/
def brxWord : WarpWord := { wd 0 (some 0x4000000010) with guard := 1, dst := 9 }
/-- m1 holds a mask. -/
def m1Is (m : Lanes) : Warp → Warp := fun x => { x with mregs := [(1, m)] }

theorem wit_DivergenceResults :
    on .brx brxWord sel (fun c => brxTaken sel c brxWord = 0 && (c.pc + disp brxWord 0).toNat % 8 = 0 &&
      (c.pc + disp brxWord 32).toNat % 8 = 0 && c.pc + disp brxWord 32 ≠ 0) = true ∧
    on .brx { brxWord with guard := 0 } sel (fun c => brxTaken sel c { brxWord with guard := 0 } = 0xFFFFFFFF) = true ∧
    on .brx brxWord (modWarp (fragIs (fun fr => { fr with rca := 0x10040 })) 1 0 (m1Is 0x80000001)) (fun c =>
      brxTaken sel c brxWord = 0x80000001 && (mget c.warp.frags c.e).any (fun fr => fr.rca = c.pc + disp brxWord 32)) = true ∧
    on .brx brxWord (warpIs (m1Is 1)) (fun c => brxTaken sel c brxWord = 1 &&
      (mget c.warp.frags c.e).any (fun fr => fr.rca ≠ c.pc + disp brxWord 32 && fr.depth ≠ 31)) = true ∧
    on .join (wd 0) (fragIs (fun fr => { fr with rca := 0x10000 })) (fun c => (mget c.warp.frags c.e).any (fun fr => fr.rca = c.pc)) = true ∧
    on .exit { wd 0 with guard := 1 } (warpIs (m1Is 2)) (fun c => (mget c.warp.frags c.e).any (fun fr =>
      fr.mask &&& ~~~guardMask c.warp 1 ≠ 0)) = true ∧
    on .exit (wd 0) (warpIs (fun x => { x with frags := [(0, ⟨0x10000, 0, 1, 0, 1, .ready, 0, false⟩), (3, ⟨0x10000, 0, 2, 0, 1, .ready, 0, false⟩)] }))
      (fun c => c.frag &&& ~~~guardMask c.warp 0 = 0 && (mget c.warp.frags 3).isSome) = true ∧
    on .exit (wd 0) sel (fun c => c.frag &&& ~~~guardMask c.warp 0 = 0 && c.warp.frags.all (fun q => q.1 = c.e)) = true := by
  decide +kernel

theorem wit_SpecialRegisterResults :
    on .getsr { wd 1 with a := 0x16 } sel = true ∧ on .getsr { wd 0 with a := 0x0E } sel = true ∧
    on .setsr { wd 0 with a := 0x08, guard := 1 } sel (fun c => c.p = 0) = true ∧
    on .setsr { wd 0x8000 with a := 0x08, b := 3 } sel (fun c => (lowest c.p).isSome) = true ∧
    on .setsr { wd 0 with a := 0x16 } sel = true ∧ on .setsr { wd 0 with a := 0x17 } sel = true := by decide +kernel

/-- Address 0x10000 in space .g; offset 0 in space .p. -/
def gWord : WarpWord := wd 0 (some 0x10000)
def pWord : WarpWord := wd 0x20

theorem wit_LoadStoreResults :
    on .ld { gWord with guard := 1 } sel (fun c => c.p = 0) = true ∧ on .st { gWord with guard := 1 } sel (fun c => c.p = 0) = true ∧
    on .ld gWord sel (fun c => c.p ≠ 0 && passes (checkLanes sel c.agent (spaceCode gWord) (accessBytes gWord) .read false
      (laneAddrs sel c gWord (spaceCode gWord)))) = true ∧
    on .ld pWord padded (fun c => passes (checkLanes padded c.agent (spaceCode pWord) (accessBytes pWord) .read false
      (laneAddrs padded c pWord (spaceCode pWord)))) = true ∧
    on .st { gWord with mod := 0x480 } sel (fun c => c.p ≠ 0 && laneRelease sel c.g c.w 4 c.p && passes (checkLanes sel c.agent 0 4 .write false
      (laneAddrs sel c gWord 0))) = true ∧
    on .st pWord padded (fun c => passes (checkLanes padded c.agent 2 4 .write false (laneAddrs padded c pWord 2))) = true ∧
    on .sld { wd 0x8023 with b := 8 } padded (fun c => passesOne (checkLanes padded c.agent (spaceCode (wd 0x8023)) 8 .read false
      (scaAddr c { wd 0x8023 with b := 8 } .sld))) = true ∧
    padded.atoms = [] ∧
    on .sst { wd 0x8022 with b := 4, dst := 3 } padded (fun c => passes (checkLanes padded c.agent (spaceCode (wd 0x8022)) 4 .write false
      (scaAddr c { wd 0x8022 with b := 4, dst := 3 } .sst))) = true := by decide +kernel

theorem wit_MemoryHintResults :
    on .pref gWord sel (fun c => spaceCode gWord ≠ 1 &&
      (hintKeys sel c (((laneAddrs sel c gWord (spaceCode gWord)).map (·.2)).filter (fun a => a.toNat % 4 = 0))).1.isSome) = true ∧
    on .pref (wd 0x90) sel (fun _ => spaceCode (wd 0x90) = 1) = true ∧ inOrder sel (clsPhase 1) 0 = true ∧
    on .cctl gWord sel (fun c => modBits gWord 0 2 = 0 && (hintKeys sel c ((laneAddrs sel c gWord 0).map (·.2))).1.isSome) = true ∧
    allOn sel [(.cctl, 1), (.cctl, 2), (.phase, 7), (.phase, 0), (.padq, 2)] = true ∧
    on .hflush (wd 0) sel (fun c => hostRange c (wd 0) = some (0, 0)) = true ∧
    on .hinv (wd 0) sel (fun c => hostRange c (wd 0) = some (0, 0)) = true ∧
    on .hflush { wd 0 with b := 1 } (warpIs (fun x => { x with sregs := [(1, 129)] })) (fun c => hostRange c { wd 0 with b := 1 } = some (0, 129)) = true ∧
    on .hflush (wd 1) sel (fun c => hostRange c (wd 1) = none) = true ∧ on .hinv (wd 1) sel (fun c => hostRange c (wd 1) = none) = true ∧
    on .hinv { wd 0 with b := 1 } (warpIs (fun x => { x with sregs := [(1, 1)] })) (fun c => hostRange c { wd 0 with b := 1 } = some (0, 1)) = true := by
  decide +kernel

/-- A load, a store and an atomic request of the warp on its way to 0x10000. -/
def load1 : Load := ⟨5, 1, 0, .ld, 0, [(3, 0, 7)], none, 3, 0, [(0, 0x10000, 0x10000, 4)], none, 0, []⟩
def store1 : Store := ⟨5, 0, 1, 0, .st, [(0x10000, 7)], none, 0, 0, false, false, 5, [], []⟩
def atom1 : Atom := ⟨5, 0, 1, 0, 0, 0, 0x10000, 0x10000, [(0, 1, 0)], some 3, atomUnit 0x10000, false, 0, none, 0⟩
/-- The fragment is BLOCKED. -/
def blockedIn (w : Wait) : State := fragIs (fun fr => { fr with state := .blocked w })

theorem wit_MemoryEvents :
    (darkHbm { sel with loads := [load1] } (load1.reads.map (fun r => r.2.2.1)) = [] ∧
      [load1].find? (fun l => l.id = 5 && l.kind ≠ .lwld) = some load1 ∧ loadGone sel load1 = true) ∧
    (storeReady { sel with stores := [store1] } store1 = true ∧ [store1].find? (fun e => e.id = 5 && e.token.isNone) = some store1) ∧
    ((getWarp (blockedIn (.hinv true 0 0)) 1 0).bind (fun x => waitOf x 0) = some (.hinv true 0 0) ∧ heldWarp (blockedIn (.hinv true 0 0)) 1 0 = false) ∧
    (atomReady { sel with atoms := [atom1] } atom1 = true ∧ [atom1].find? (fun a => a.id = 5 && !a.done) = some atom1) ∧
    ((getWarp (blockedIn (.sleep 0)) 1 0).bind (fun x => waitOf x 0) = some (.sleep 0) ∧ heldWarp (blockedIn (.sleep 0)) 1 0 = false) := by
  decide +kernel

/-- The scratchpad as the space of an atomic. -/
def padAtom (mod : BitVec 16) : WarpWord := wd mod (some 0x4000000000)
/-- ATOM.ADD.acq of a word at 0x10000. -/
def acqAtom : WarpWord := wd 0x300 (some 0x8000010000)
/-- Do the groups of an atomic on its lanes' addresses run? -/
def runs (s : State) (c : Ctx) (f : WarpWord) (sp op : Nat) : Bool :=
  match checkLanes s c.agent sp (atomBytes (typeCode f)) .atomic false (laneAddrs s c f sp) with
  | .ok ps => (runGroups (groupsOf ps c.g c.w c.wg.core op (typeCode f) (some f.dst.toNat) (fun _ => (1, 0))) (touchPlaces s c.agent ps)).isSome
  | _ => false

theorem wit_AtomicResults :
    on .atom { gWord with guard := 1 } sel (fun c => c.p = 0 && (decide (atomSem gWord ≤ 1) || laneRelease sel c.g c.w 0 c.p)) = true ∧
    on .atomCas { gWord with guard := 1 } sel (fun c => c.p = 0) = true ∧ on .red { gWord with guard := 1 } sel (fun c => c.p = 0) = true ∧
    on .atom gWord sel (fun c => c.p ≠ 0 && decide (atomSem gWord % 2 = 0) && passes (checkLanes sel c.agent 0 4 .atomic false (laneAddrs sel c gWord 0))) = true ∧
    on .red { gWord with mod := 0x10 } sel (fun c => passes (checkLanes sel c.agent 0 4 .atomic false (laneAddrs sel c gWord 0))) = true ∧
    on .atomCas gWord sel (fun c => passes (checkLanes sel c.agent 0 4 .atomic true (laneAddrs sel c gWord 0))) = true ∧
    on .atom (padAtom 0x20) padded (fun c => c.p ≠ 0 && runs padded c (padAtom 0x20) 2 2) = true ∧
    on .atomCas (padAtom 0) padded (fun c => runs padded c (padAtom 0) 2 9) = true ∧
    on .red (padAtom 0x70) padded (fun c => runs padded c (padAtom 0x70) 2 7) = true ∧
    on .atom acqAtom sel (fun c => decide (atomSem acqAtom = 1) && runs sel c acqAtom 0 0) = true := by decide +kernel

/-- A workgroup whose barrier 3 has warp 0 enrolled, and is in a phase. -/
def barAt (b : Bar) : State := wgIs (fun x => setBar x 3 b)
def bar3 : Bar := ⟨0xFFFFF, 0, 0, 0, 1, 0, [], false⟩

theorem wit_BarrierResults :
    on .barInit { wd 1 with a := 3 } sel (fun c => (barOf c { wd 1 with a := 3 }).warr = 0 && liveSet sel c.g ≠ 0) = true ∧
    on .barInit { wd 0x3F0 with a := 15 } sel (fun c => (barOf c { wd 0x3F0 with a := 15 }).ecnt = 0) = true ∧
    on .barArrive { wd 0 with a := 3, dst := 2 } (barAt bar3) (fun c => mayArrive (barOf c { wd 0 with a := 3 }) c.w && releaseReady (barAt bar3) c.g c.w 0) = true ∧
    on .barWait { wd 1 with a := 3 } (barAt bar3) = true ∧
    on .barWait { wd 0 with a := 3 } (barAt { bar3 with lastph := [(0, 0xFFFFF)] }) (fun c => (mget (barOf c { wd 0 with a := 3 }).lastph c.w).isSome) = true ∧
    on .barSync { wd 0 with a := 3 } (barAt bar3) (fun c => mayArrive (barOf c { wd 0 with a := 3 }) c.w) = true ∧
    on .barQuery { wd 0 with a := 0 } sel = true ∧ barTurn sel 1 0 = true ∧ barTurn (barAt bar3) 1 0 = true ∧
    (getWg (barAt { bar3 with warr := 1 }) 1).any (fun x => (getBar x 3).complete) = true ∧
    mget (barAt { bar3 with warr := 1 }).marks (clsDone 1 3) = none := by decide +kernel

theorem wit_SynchronisationResults :
    allOn sel [(.fence, 3), (.fence, 0x401), (.fence, 2), (.fence, 0x300), (.tlread, 3), (.tlwait, 0)] = true ∧
    on .fence (wd 3) sel (fun c => laneRelease sel c.g c.w 4 c.frag && sel.atoms.isEmpty) = true ∧
    on .banklock { wd 0x800F (some 0xFFFFFFFF) with b := 0 } sel (fun c => (getCore sel c.wg.core).spans.isEmpty &&
      !bankPending sel c.wg.core (warpKey c.g c.w) (-1) && inOrder sel (clsBank c.wg.core) c.warp.lg) = true ∧
    on .tlwait { wd 0x8001 with c := 2 } (wgIs (fun x => { x with tla := ⟨2, 1, []⟩ })) (fun c => (sB c .tlwait { wd 0x8001 with c := 2 }).toNat = c.wg.tla.issued) = true := by
  decide +kernel

/-- The pair's licence, its flags and a pair placement. -/
def pairIs (f : Pair → Pair) : State := modPair (wgIs (fun x => { x with pairPlaced := true })) 0 f
def holding (pinned : Bool) : State := pairIs (fun p => { p with lic := .held 1 0 pinned })

theorem wit_LicenceResults :
    on .licAcq (wd 0) (holding false) (fun c => holdsLic (holding false) c.g) = true ∧ on .licAcq { wd 1 with dst := 3 } sel = true ∧
    inOrder sel (clsLic 0) 0 = true ∧ allOn sel [(.licRel, 0), (.licQuery, 0), (.licQuery, 0xD), (.licQuery, 2), (.licQuery, 3)] = true ∧
    on .twSig { wd 0x8000 with a := 7, b := 1 } (holding false) (fun c => c.wg.pairPlaced && releaseReady (holding false) c.g c.w 1 && !exchanging (holding false) c.g c.w) = true ∧
    on .twWait { wd 0 with a := 7 } (holding false) (fun c => c.wg.pairPlaced &&
      decide ((mgetD (getPair (holding false) 0).flags 7 0 - (sB c .twWait (wd 0)).setWidth 32).toNat < 2 ^ 31)) = true := by decide +kernel

/-- A request of another workgroup. -/
def req2 : LicReq := ⟨2, false, true, true, false, 0⟩

theorem wit_LicenceEvents :
    (getPair (pairIs (fun p => { p with lic := .transfer 1 0 true 0 })) 0).lic = .transfer 1 0 true 0 ∧ (0 + 940 ≤ { sel with clock := 940 }.clock) ∧
    inOrder sel (clsLic 0) 0 = true ∧
    (let s := { pairIs (fun p => { p with lic := .held 1 0 false, reqs := [req2] }) with clock := 256 }
     (getPair s 0).lic = .held 1 0 false ∧ mmaPending s 1 = false ∧ (getPair s 0).reqs ≠ [] ∧ (getPair s 0).idleFrom + 256 ≤ s.clock) ∧
    (let s := pairIs (fun p => { p with lic := .held 1 0 true, reqs := [req2] })
     leastBy (licRank s) lexLt ((getPair s 0).reqs.filter (fun r => r.urgent && r.g ≠ 1)) = some req2 ∧ ∀ a ∈ s.anvs, a.g = 1 → a.flight = []) := by
  decide +kernel

/-! ### Witnesses: copies, the anvil, records, notify registers -/

/-- A copy command's word, with its extension of CTL. -/
def cpWord (mod : BitVec 16) (ctl : Word64) : WarpWord := wd mod (some (ctl * 2 ^ 32))
/-- The warp's registers hold values. -/
def sregsAre (l : SMap Word64) : State := warpIs (fun x => { x with sregs := l })
/-- W of a gather in [31:0] of s2. -/
def gathers : State := sregsAre [(2, 65536)]

theorem wit_CopyResults : inOrder sel (clsCopy 0) 0 = true ∧
    on .copyT { cpWord 0 0 with b := 1, guard := 1 } sel (fun c => c.p = 0) = true ∧
    on .copyT { cpWord 0 0 with b := 1 } sel (fun c => c.p ≠ 0 && !copyOperand sel c.g 0 ⟨.tensor, 0, 0, 0, 0, 0, 0, 0, 0⟩ &&
      (copyMisalign ⟨.tensor, 0, 0, 0, 0, 0, 0, 0, 0⟩).isNone && copyRoom sel 0 c.g = some true) = true ∧
    on .copyL { cpWord 0 0 with guard := 1 } sel (fun c => c.p = 0) = true ∧
    on .copyL { cpWord 2 0 with dst := 1, a := 2, b := 3 } (sregsAre [(1, 4), (2, 8), (3, 16777216)]) (fun c => c.p ≠ 0 &&
      !copyOperand sel c.g 0 ⟨.linear, 4, 8, 16777216, 0, 0, 0, 2, 0⟩ && (copyMisalign ⟨.linear, 4, 8, 16777216, 0, 0, 0, 2, 0⟩).isNone) = true ∧
    on .copyG { cpWord 0 0 with b := 1, guard := 1 } gathers (fun c => c.p = 0) = true ∧
    on .copyG { cpWord 0 0 with b := 1 } gathers (fun c => c.p ≠ 0 && !copyOperand gathers c.g 0 ⟨.gather, 0, 0, 0, 65536, 0, 0, 0, 0⟩ &&
      (copyMisalign ⟨.gather, 0, 0, 0, 65536, 0, 0, 0, 0⟩).isNone && copyRoom gathers 0 c.g = some true) = true ∧
    on .copyFill { cpWord 2 0 with guard := 1 } sel (fun c => c.p = 0) = true ∧
    on .copyFill (cpWord 2 0) sel (fun c => c.p ≠ 0 && !copyOperand sel c.g 0 ⟨.fill, 0, 0, 0, 0, 0, 0, 2, 0⟩) = true ∧
    (on .copyStat (cpWord 0 0) sel && on .copyStat (cpWord 1 0) sel && on .copyStat (cpWord 2 0) sel) = true := by decide +kernel

/-- COPY.FILL of no byte, and one of a byte past the scratchpad of a workgroup that has none. -/
def fill0 : Copy := ⟨7, 0, 1, 0, 1, .fill, 0, 0, 0, 0, 0, 0, 2, 0, 1, none, true, 0x10000, 0, 0, [], false, none, 0, [], [], []⟩
def fill4 : Copy := { fill0 with b0 := 4 }

theorem wit_CopyEvents :
    (getWg sel 1).any (fun x =>
      (match copyRun { sel with copies := [fill0] } fill0 x with
        | .finished _ 0 => true
        | _ => false) &&
      (match copyRun { sel with copies := [fill4] } fill4 x with
        | .faulted _ _ _ _ _ _ => true
        | _ => false)) = true := by decide +kernel

/-- A record of an I96 format at unit 4 of the operand buffer: FMT 1, one unit, one step. -/
def rec1 : ObRec := ⟨3, BitVec.ofNat 128 (4 + 3 * 2 ^ 16 + 2 ^ 32), 1⟩
/-- Record 2 is the workgroup's, and its tile 1. -/
def armed : State := modCore sel 0 (fun k => { k with obs := [(2, rec1)], tiles := [(1, ⟨1, true, 0, [], []⟩)] })
/-- As armed, with the licence. -/
def licensed : State := modPair armed 0 (fun p => { p with lic := .held 1 0 false })
/-- ANV.MMA of one step: tile 1, both operands record 2. -/
def mmaWord : Word64 := 1 + 2 * 4 + 2 * 128 + 4096
/-- The drain word of row 0 of tile 1, to .p, format 0, pitch 4,096. -/
def drainExt : Word64 := (1 + 2 * 2 ^ 9) * 2 ^ 32
def loadExt : Word64 := (1 + 4 + 2 * 8) * 2 ^ 32
def pitched : State := modWarp armed 1 0 (fun x => { x with sregs := [(2, 4096)] })
def dones : Res → Bool
  | .done _ => true
  | _ => false

theorem wit_AnvilResults :
    on .obRes { wd 0 (some 0x1F00000000) with a := 1 } (sregsAre [(1, rec1.bits.setWidth 64)]) (fun c =>
      !obBad (BitVec.ofNat 128 (rec1.bits.toNat + 2 ^ 96)) && (getCore sel 0).obs.isEmpty && (obRanges sel 0).isEmpty && !anvHeld sel c.ask) = true ∧
    on .obFree (wd 2) armed (fun c => (ownRec armed c.g 0 2).isSome && !anvHeld armed c.ask) = true ∧
    on .anvZero (wd 7) sel (fun c => !foreignTile sel c.g 0 3 && !anvHeld sel c.ask) = true ∧
    on .anvDrain { wd 0 (some drainExt) with b := 2 } pitched (fun c => dones (anvDrainIssue pitched pitched c.ask 0 4096 0 (drainExt >>> 32))) = true ∧
    on .anvLoadz { wd 0 (some loadExt) with b := 2 } pitched (fun c => dones (anvLoadzIssue pitched pitched c.ask 0 4096 (loadExt >>> 32))) = true ∧
    on .gangSet { wd 0x8000 with c := 1 } sel (fun c => (warpsOf ((sB c .gangSet { wd 0x8000 with c := 1 }).setWidth 16)).length = 1 &&
      liveSet sel c.g = 1 && c.wg.latch.isNone) = true := by decide +kernel

theorem wit_GangIssueResult :
    on .anvMma (wd 0 (some mmaWord)) licensed (fun c => c.wg.gang = warpBit c.w && c.wg.latch.isNone && holdsLic licensed c.g &&
      !anvHeld licensed (gangAsk licensed c) && (mmaCommand licensed (gangAsk licensed c) mmaWord 0 0).isSome) = true := by decide +kernel

/-- Commands of each kind, alone in the queue. -/
def anv1 (k : AnvKind) (w : Word64) : Anv := ⟨9, 0, 1, 0, 1, k, w, 0, 0x100000000000 >>> 32, 0, 1, none, 0, 0x10000, 0, 0, [], rec1.bits, rec1.bits, true, true⟩
def queued (s : State) (a : Anv) : State := { s with anvs := [a] }
def snap1 : Snap := ⟨0, 0, 0, 0, 0, 0, 0, 0⟩

theorem wit_AnvilEvents :
    inOrder armed (clsLic 0) 0 = true ∧ findAnv (queued armed (anv1 .res 2)) 9 .res = some (anv1 .res 2) ∧ findAnv (queued armed (anv1 .free 5)) 9 .free = some (anv1 .free 5) ∧
    anvNames 1 5 false (anv1 .free 5) = false ∧ zeroPending (queued armed (anv1 .res 2)) 1 2 9 = false ∧
    (stepReady (queued licensed (anv1 .mma mmaWord)) (anv1 .mma mmaWord) = true ∧ stepPoison (queued licensed (anv1 .mma mmaWord)) (anv1 .mma mmaWord) = none) ∧
    findAnv (queued licensed { anv1 .mma mmaWord with flight := [snap1] }) 9 .mma = some { anv1 .mma mmaWord with flight := [snap1] } ∧
    tileTurn (queued armed (anv1 .zero 5)) (anv1 .zero 5) = true ∧
    (getWg padded 1).any (fun x => (match drainRun (queued padded { anv1 .drain (drainExt >>> 32) with a := 0 }) (anv1 .drain (drainExt >>> 32)) x ⟨1, true, 0, [], []⟩ with
      | .finished _ _ => true
      | _ => false) &&
      (match loadRun (queued padded (anv1 .loadz (loadExt >>> 32))) (anv1 .loadz (loadExt >>> 32)) x with
      | (_, none) => true
      | _ => false)) = true ∧
    (let s := queued { licensed with poison := [granule (obKey 0 1024)] } (anv1 .mma mmaWord)
     (stepPoison s (anv1 .mma mmaWord)).isSome = true ∧ stepReady s (anv1 .mma mmaWord) = true) := by decide +kernel

/-- A region whose node 0 has a ring of 2 slots and depth limit 1, and lets every notify register be used. -/
def nodeBits1 : BitVec 1024 := BitVec.ofNat 1024 (2 ^ 368)
def node1 : Node := ⟨nodeBits1, 0, 0, [], [], 0, none⟩
def region1 (n : Node) : Region := ⟨0, BitVec.ofNat 2048 ((2 ^ 256 - 1) * 2 ^ 640 + 2 ^ 589), [(0, n)], [], 0, false⟩
def inRegion (n : Node) (f : Wg → Wg) : State := { wgIs f with regions := [(0, region1 n)] }
def recW (mod : BitVec 16) : WarpWord := { wd mod (some 0) with b := 1 }
def one : Warp → Warp := fun x => { x with sregs := [(1, 1)] }
def ring (n : Node) (f : Wg → Wg) : State := modWarp (inRegion n f) 1 0 one
def depth0 : Wg → Wg := fun x => x
def depth1 : Wg → Wg := fun x => { x with depth := 1 }
def resv8 : Wg → Wg := fun x => { x with resv := List.replicate 8 ⟨0, 0, 1⟩ }
def resv1 : Wg → Wg := fun x => { x with resv := [⟨0, 0, 1⟩] }
def full1 : Node := { node1 with tail := ringSlots nodeBits1 }

theorem wit_RecordResults :
    on .recAlloc { recW 0 with guard := 1 } (ring node1 depth0) (fun c => c.p = 0) = true ∧
    on .recAlloc (recW 0) (ring node1 depth1) (fun c => c.p ≠ 0 && allocNode c (recW 0) = some 0 && (getNode (ring node1 depth1) 0 0).isSome &&
      decide (nd nodeBits1 368 6 < c.wg.depth + 1)) = true ∧
    on .recAlloc (recW 0) (ring node1 resv8) (fun c => decide (c.wg.depth + 1 ≤ nd nodeBits1 368 6) && decide (8 ≤ c.wg.resv.length)) = true ∧
    on .recAlloc (recW 0) (ring node1 depth0) (fun c => (allocate (ring node1 depth0) c.g 0 0 1 false true).isSome) = true ∧
    on .recAlloc (recW 0) (ring full1 depth0) (fun c => (allocate (ring full1 depth0) c.g 0 0 1 false true).isNone) = true ∧
    on .recAlloc (recW 1) (ring full1 depth0) (fun c => (allocate (ring full1 depth0) c.g 0 0 1 false true).isNone) = true ∧
    on .recCommit { wd 0 (some 0) with guard := 1 } sel (fun c => c.p = 0) = true ∧
    on .recCommit (wd 0x800 (some 0x100000000)) (ring node1 resv1) (fun c => c.p ≠ 0 && resvAt c.wg 0 = some ⟨0, 0, 1⟩ &&
      laneRelease (ring node1 resv1) c.g c.w (commitScope (ring node1 resv1) c.wg ⟨0, 0, 1⟩ false 0) (leaderOf c.p) &&
      (resvMiss (ring node1 resv1) (warpKey c.g c.w) c.wg ⟨0, 0, 1⟩).isEmpty) = true ∧
    on .recAbort { wd 0 with guard := 1 } sel (fun c => c.p = 0) = true ∧
    on .recAbort (wd 0) (ring node1 resv1) (fun c => c.p ≠ 0 && (resvAt c.wg 0).isSome && inOrder sel clsAlloc (allocPlace c)) = true ∧
    on .recInfo { wd 0 with b := 1 } sel = true ∧
    on .recInfo { wd 0x8001 with b := 0 } (ring node1 depth0) (fun c => (getNode (ring node1 depth0) c.wg.rnum 0).isSome) = true ∧
    on .recInfo (wd 2) (ring node1 depth0) (fun c => (mget (ring node1 depth0).regions c.wg.rnum).isSome) = true := by decide +kernel

/-- A word of SPAWN to 0x10008: role 0, one granule. -/
def spWord : WarpWord := wd 0 (some 0x10000000008)
/-- The issuing warp holds 16 registers; 15 other warps live. -/
def small : State := warpIs (fun x => { x with alloc := 16 })
def crowd : State := { small with warps := small.warps ++ (List.range 15).map (fun i => (warpKey 1 (i + 1), (placedWarp false 1))) }
/-- No lane group has room: each holds a warp of 240 registers in every slot. -/
def packed : State := { sel with warps := sel.warps ++ (List.range 64).map (fun i => (warpKey 2 0 + i, { placedWarp false 1 with lg := i % 4, slot := i / 4 })),
                                 wgs := sel.wgs ++ (List.range 4).map (fun i => (2 + i, placedWg)) }
def child1 (w : Nat) : Pending := ⟨1, w, 0x10008, 0, 1, []⟩
def stuffed : State := modCore packed 0 (fun k => { k with spawns := List.replicate 16 { child1 15 with g := 2 } })
def pooled (n : Nat) (f : Warp → Warp) : State := modWarp (wgIs (fun x => { x with pools := [(0, n)] })) 1 0 f
def small8 : Warp → Warp := fun x => { x with alloc := 8 }

theorem wit_SpawnAndPoolResults :
    on .spawn { spWord with guard := 1 } small (fun c => c.p = 0) = true ∧
    on .spawn spWord crowd (fun c => c.p ≠ 0 && (List.range 16).all (fun w => (takenIds crowd c.g).contains w)) = true ∧
    on .spawn spWord small (fun c => (c.pc + disp spWord 0).toNat % 8 = 0 && !(takenIds small c.g).contains 1 && laneRelease small c.g c.w 0 (leaderOf c.p) &&
      (startChild small 0 (child1 1)).isSome) = true ∧
    on .spawn spWord packed (fun c => !(takenIds packed c.g).contains 1 && (startChild packed 0 (child1 1)).isNone) = true ∧
    on .spawn spWord stuffed (fun c => !(takenIds stuffed c.g).contains 1 && (startChild stuffed 0 (child1 1)).isNone &&
      decide (16 ≤ (getCore stuffed 0).spawns.length)) = true ∧
    on .regGive { wd 0x8000 with c := 29 } sel (fun c => decide (8 * 29 + 8 ≤ c.warp.alloc)) = true ∧
    on .regClaim { wd 0x8001 with c := 29 } (pooled 28 small8) (fun c => decide (c.warp.alloc + 8 * 29 ≤ 240)) = true ∧
    on .regClaim { wd 0x8001 with c := 29 } (pooled 29 small8) = true ∧ on .regClaim { wd 0x8000 with c := 1 } (pooled 0 small8) = true ∧
    (startChild (modCore small 0 (fun k => { k with spawns := [child1 1] })) 0 (child1 1)).isSome = true ∧
    ((getLg (modLg sel 0 0 (fun l => { l with wash := [(16, 0)] })) 0 0).wash = [(16, 0)] ∧ mget sel.marks (clsWash 0 0) = none) := by decide +kernel

theorem wit_NotifyResults :
    on .ntfPost { wd 0x8001 with a := 255, b := 1 } (inRegion node1 depth0) (fun c => (ntfMaskOf (inRegion node1 depth0) c.wg.rnum).testBit 255 &&
      laneRelease (inRegion node1 depth0) c.g c.w 3 (leaderOf c.frag)) = true ∧
    on .ntfWait { wd 2 with a := 0 } (inRegion node1 depth0) (fun c => (ntfMaskOf (inRegion node1 depth0) c.wg.rnum).testBit 0) = true := by decide +kernel

/-! ### Witnesses: traps and long-word mode -/

/-- Context 0 has frames at 0x11000 and the handler 0x10080, on the page that the machine holds, and the frame's
pseudo-channels are LIT. -/
def handled (s : State) : State :=
  { (frameUnits (hbmKey 0x11000)).foldl (fun t u => setLamp t u (.lit 0)) s with contexts := [(0, ⟨BitVec.ofNat 512 (0x11000 * 2 ^ 64 + 0x10080 * 2 ^ 128)⟩)] }

/-- The conditions of TrapReady, decided. -/
def trapOk (s : State) (t : Trap) (a : Site) : Bool :=
  match getWg s a.g, getWarp s a.g a.w with
  | some x, some p0 =>
    let s2 := entryState s t a x p0
    p0.bank.isNone && decide (ctxBits s2 x.asid 128 64 ≠ 0) &&
      (match xlateNow s2 x (warpKey a.g a.w) (frameAddr s2 x a.w) .write with
        | (.ok key _, u) => (List.range 64).all (fun i => !poisonedAt u (key + 64 * i) 64) &&
          ((!lampHeld u (fragWho a.g a.w (a.entry.getD 0)) (frameUnits key) && frameGone u (warpKey a.g a.w) key) && warpDrains u a.g a.w && (getWarp (drainWarp (modWarp u a.g a.w landFlights) a.g a.w) a.g a.w).isSome)
        | _ => false)
  | _, _ => false

/-- What trapOk says. -/
theorem trapOk_ready {s : State} {t : Trap} {a : Site} (h : trapOk s t a = true) : ∃ x p0 p u key, TrapReady s t a x p0 p u key := by
  unfold trapOk at h
  split at h
  · next x p0 hx hp =>
    simp only [Bool.and_eq_true, decide_eq_true_eq] at h
    obtain ⟨⟨h1, h2⟩, h3⟩ := h
    split at h3
    · next key m u hl =>
      simp only [Bool.and_eq_true, Bool.not_eq_true'] at h3
      obtain ⟨hc, ⟨⟨hh, hg⟩, hd⟩, hs⟩ := h3
      obtain ⟨p, hq⟩ := Option.isSome_iff_exists.mp hs
      refine ⟨x, p0, p, u, key, hx, hp, Option.isNone_iff_eq_none.mp h1, h2, ⟨m, hl⟩, ?_, hh, hg, hd, hq⟩
      intro i hi
      have := List.all_eq_true.mp hc i (List.mem_range.mpr hi)
      simpa using this
    · cases h3
  · cases h

/-- The state in handler mode. -/
def handler (s : State) : State := modWarp (handled s) 1 0 (fun x => { x with bank := some ⟨0x10080, 0xFFFFFFFF, [], [], some 0, none⟩ })
/-- The constant image of node 0: 16 bytes at 0x10000. -/
def imaged : State := inRegion { node1 with bits := BitVec.ofNat 1024 (0x10000 * 2 ^ 64 + 16 * 2 ^ 288) } depth0
def site1 (s : State) (op : Op) (f : WarpWord) (c : Ctx) : Site := siteOf s c (encodeWord op f) (some op) f true

theorem wit_TrapInstructions :
    on .trap { wd 0x8000 with c := 5 } (handled sel) (fun c => trapOk (handled sel) { cause := 9, sub := 5, aux := 5 } (site1 (handled sel) .trap { wd 0x8000 with c := 5 } c)) = true ∧
    on .trap { wd 0x8000 with guard := 1 } sel (fun c => c.p = 0) = true ∧
    on .brk (wd 0x8000) (handled sel) (fun c => trapOk (handled sel) { cause := 8, sub := 2 } (site1 (handled sel) .brk (wd 0x8000) c)) = true ∧
    on .trapRet (wd 0) sel (fun c => c.warp.bank.isNone) = true ∧
    on .trapRet (wd 0xD) (handler sel) (fun c => c.warp.bank.isSome && !returning (handler sel) c.g c.w &&
      (match checkLanes (handler sel) c.agent 0 4 .read false (retWords (frameAddr (handler sel) c.wg c.w)
          (retReads 1 3 ((sB c .trapRet (wd 0xD)).setWidth 32 &&& trappedMask c.warp))) with
        | .ok ps => nowGone (handler sel) c 0 ps && !wordsBad (handler sel) ps && decide ((handler sel).atoms = []) &&
          !xWaits (handler sel) c (retVecs (readNow (past .trapRet (wd 0xD) (handler sel) c) c 0 ps) c (frameKey (frameAddr (handler sel) c.wg c.w) ps) 3)
        | _ => false)) = true ∧
    on .trapRet (wd 2) (handler sel) = true ∧
    on .vary (wd 0) imaged (fun c => decide (8 ≤ nd (nodeBits imaged c.wg) 288 17) && passesOne (checkLanes imaged c.agent 3 8 .read false
      [((lowest c.frag).getD 0, 0)]) && nowGone imaged c 3 [⟨(lowest c.frag).getD 0, 0, some 0x10000, 8, 0, 0⟩] && !poisonedAt imaged 0x10000 8) = true := by decide +kernel

theorem wit_TrapEntryState :
    on .trap { wd 0x8000 with c := 5 } (handled { sel with loads := [load1], stores := [store1] }) (fun c =>
      trapOk (handled { sel with loads := [load1], stores := [store1] }) { cause := 9 } (site1 sel .trap (wd 0x8000) c)) = true := by
  decide +kernel

theorem wit_TrapFrameHolds : hbmKey 0x11000 % 4096 = 0 ∧ busKey (hbmKey 0x11000) ∧ (∀ p ∈ [(1, true)], p.1 < 2 ^ 57) := by
  unfold busKey; decide

theorem wit_DoubleFaults :
    on .trap (wd 0x8000) (handler sel) (fun c => (getWg (handler sel) 1).isSome && c.warp.bank.isSome) = true ∧
    on .trap (wd 0x8000) sel (fun c => c.warp.bank.isNone && decide (ctxBits sel c.wg.asid 128 64 = 0)) = true := by decide +kernel

theorem wit_OperandChecksTrap :
    (issuing { sel with obs := { sel.obs with dbgen := true } } { wd 0 with d := true }).any (fun c => c.warp.bank.isNone) = true ∧
    (issuing sel { wd 0 with a := 240 }).any (fun c => !legal c.regCtx .iadd { wd 0 with a := 240 }) = true ∧
    (issuing (handler sel) (wd 0)).any (fun c => legal c.regCtx .exit (wd 0) && c.warp.bank.isSome && barredAtTrap .exit (wd 0)) = true := by
  decide +kernel

/-- Misaligned targets, depth 31, a phase in progress, and the other conditions. -/
def deep : State := modWarp (fragIs (fun fr => { fr with depth := 31 })) 1 0 (m1Is 1)
def half : State := modWarp sel 1 0 (fun x => { x with wmask := 1 })

theorem wit_ConditionTraps :
    on .bra (wd 0 (some 4)) sel (fun c => (branchTarget c (wd 0 (some 4))).toNat % 8 ≠ 0) = true ∧
    on .call (wd 0 (some 4)) sel (fun c => (branchTarget c (wd 0 (some 4))).toNat % 8 ≠ 0) = true ∧
    on .brx brxWord deep (fun c => brxTaken deep c brxWord ≠ 0 && (mget c.warp.frags c.e).any (fun fr => fr.depth = 31 &&
      fr.mask &&& ~~~brxTaken deep c brxWord ≠ 0 && fr.rca ≠ c.pc + disp brxWord 32)) = true ∧
    on .brx { brxWord with ext := 0x4000000004 } sel (fun c => (c.pc + disp { brxWord with ext := 0x4000000004 } 0).toNat % 8 ≠ 0 &&
      brxTaken sel c { brxWord with ext := 0x4000000004 } = 0) = true ∧
    on .brx { brxWord with ext := 0x4400000010 } sel (fun c => (c.pc + disp { brxWord with ext := 0x4400000010 } 0).toNat % 8 = 0 &&
      (c.pc + disp { brxWord with ext := 0x4400000010 } 32).toNat % 8 ≠ 0) = true ∧
    on .brx { brxWord with ext := 0xFFFF000000000010 } sel (fun c => c.pc + disp { brxWord with ext := 0xFFFF000000000010 } 32 = 0) = true ∧
    on .ret (wd 0) (warpIs (fun x => x.setVreg 0 31 4)) (fun c => (lanesOf c.frag).filter (fun i =>
      (vread64 (warpIs (fun x => x.setVreg 0 31 4)) c.g c.w 0 i 2).toNat % 8 ≠ 0) = [31]) = true ∧
    barTurn sel 1 0 = true ∧
    on .barInit { wd 1 with a := 3 } (barAt { bar3 with ecnt := 1 }) (fun c => (barOf c { wd 1 with a := 3 }).ecnt ≠ 0) = true ∧
    on .barArrive { wd 0 with a := 3 } sel (fun c => !mayArrive (barOf c { wd 0 with a := 3 }) c.w) = true ∧
    on .barSync { wd 0 with a := 3 } (barAt { bar3 with warr := 1 }) (fun c => !mayArrive (barOf c { wd 0 with a := 3 }) c.w) = true ∧
    on .tlwait { wd 0x8000 with c := 1 } sel (fun c => decide (c.wg.tlc.issued < 1)) = true ∧
    on .ntfPost { wd 0 with a := 255 } sel (fun c => !(ntfMaskOf sel c.wg.rnum).testBit 255) = true ∧
    on .ntfWait (wd 0) sel (fun c => !(ntfMaskOf sel c.wg.rnum).testBit 0) = true ∧
    on .modeLw { wd 0x8000 with c := 128 } half (fun c => c.warp.mask ≠ 0xFFFFFFFF) = true ∧
    on .modeLw { wd 0x8000 with c := 64 } sel (fun c => c.frag = 0xFFFFFFFF && c.warp.mask = 0xFFFFFFFF &&
      (c.pc + sB c .modeLw { wd 0x8000 with c := 64 }).toNat % 128 ≠ 0) = true ∧
    on .twSig (wd 0) sel (fun c => !c.wg.pairPlaced) = true ∧ on .twWait (wd 0) sel (fun c => !c.wg.pairPlaced) = true ∧
    on .anvMma (wd 0 (some mmaWord)) (wgIs (fun x => { x with gang := 2 })) (fun c => !c.wg.gang.getLsbD c.w) = true := by decide +kernel

/-- A long-word thread at 0x10000, selected to issue. -/
def thread : State := { State.reset.withFetchWord 1024 0 with issuer := some ⟨1, 0, 0⟩ }
def lwIs (f : Lw → Lw) : State := modWarp thread 1 0 (fun x => { x with lw := x.lw.map f })
/-- Two lane groups of core 0 in long-word mode beside the warp. -/
def twoLw : State := { sel with warps := sel.warps ++ [(17, { placedWarp true 1 with lg := 1, slot := 0 }), (18, { placedWarp true 1 with lg := 2, slot := 0 })] }
def lwLoad : Load := { load1 with kind := .lwld }
def lwStore : Store := { store1 with token := some 2 }

theorem wit_LongWordModeResults :
    on .modeLw { wd 0x8000 with c := 128 } sel (fun c => c.frag = 0xFFFFFFFF && c.warp.mask = 0xFFFFFFFF &&
      (c.pc + sB c .modeLw { wd 0x8000 with c := 128 }).toNat % 128 = 0 && decide (lwCount sel c.wg.core < 2) && (lwWaiters sel c.wg.core).isEmpty) = true ∧
    on .modeLw { wd 0x8000 with c := 128 } twoLw (fun c => decide (2 ≤ lwCount twoLw c.wg.core)) = true ∧
    (lwCount (blockedIn (.modeLw 0 0x10080)) 0 < 2 ∧
      leastBy (fun q => [q.2.1, q.2.2.1]) lexLt (lwWaiters (blockedIn (.modeLw 0 0x10080)) 0) = some (16, 0, 0, 0x10080)) ∧
    ((getWarp (lwIs (fun l => { l with slot := 4, flights := [⟨4, .sf true, true, 0⟩] })) 1 0).bind (·.lw)).any (fun l =>
      l.flights.any (fun h => h.slot ≤ l.slot)) = true ∧
    [lwLoad].find? (fun l => l.id = 5 && l.kind = .lwld) = some lwLoad ∧ loadGone sel lwLoad = true ∧ darkHbm sel (lwLoad.reads.map (fun r => r.2.2.1)) = [] ∧
    ([lwStore].find? (fun e => e.id = 5 && e.token.isSome) = some lwStore ∧ storeReady { sel with stores := [lwStore] } lwStore = true) ∧
    ((getWarp (lwIs (fun l => { l with draining := true })) 1 0).bind (·.lw)).any (fun l => l.draining && l.tokens.isEmpty && l.pend.isEmpty) = true ∧
    (let s := handled { thread with clock := 20002 }
     (lwCtxOf s ⟨1, 0, 0⟩).any (fun d => decide (spBoundOf s d.wg.rnum < d.lw.count s.clock) && d.warp.late.isEmpty &&
       (match fetchBundle s d.wg (warpKey 1 0) d.lw.pc.toNat with
        | .ok v u => trapOk u { cause := 0x0A, origin := 5, flanes := some 0 } (lwSite d v false)
        | _ => false))) = true := by decide +kernel

/-- A bundle of empty slots. -/
def bundle0 : Bundle := decodeBundle 0
def oks : Except Trap CtlEffect → Bool
  | .ok _ => true
  | _ => false

theorem wit_BundleIssueResult :
    (lwCtxOf thread ⟨1, 0, 0⟩).any (fun c0 =>
      let s1 := setWarp thread c0.g c0.w (landUpTo c0.warp c0.lw.slot)
      (lwCtxOf s1 ⟨1, 0, 0⟩).any (fun c1 =>
        let s2 := acquireTokens s1 c1 bundle0.wait
        (lwPending s1 c1 (fun _ => false)).isNone && (List.range 8).all (fun n => !bundle0.wait.getLsbD n) &&
        (lwCtxOf s2 ⟨1, 0, 0⟩).any (fun c => (lwPending s2 c (fun n => bundle0.wait.getLsbD n)).isNone && bundleForm bundle0 &&
          !bundleConflict s2 c bundle0 && bundleRegs c.warp.alloc bundle0 && s2.loads.isEmpty && !bundleWashing s2 c bundle0 && !bundle0.engine.te && bundlePoison c bundle0 = 0 &&
          (match controlDo s2 c bundle0.control with
            | .ok _ => true
            | _ => false) && dones (scalarAccess s2 s2 c bundle0.scalar) && dones (engineDo s2 s2 c bundle0.engine)))) = true := by
  decide +kernel

/-- A late fault of a load waits at the boundary. -/
def late1 : Late := ⟨0x10000, 1, 3, 1, 0x0B, 1, 0, none⟩

theorem wit_TrapEvents :
    (let s := handled (warpIs (fun x => { x with late := [late1] }))
     match getWg s 1, getWarp s 1 0 with
     | some x, some p => x.mayIssue && !lwOn s x.core p.lg && p.lw.isNone && p.bank.isNone && p.due.isNone &&
        (match p.frags.find? (fun q => q.2.state = .ready) with
          | some (e, fr) => mget p.frags e = some fr && (match fetchWord s x 16 fr.pc.toNat with
            | .ok v t => trapOk t { cause := 0x0B, sub := 1, origin := 2, space := 0, flanes := some 1, faddr := 0x10000 } (fragSite 1 0 e p fr v)
            | _ => false)
          | none => false)
     | _, _ => false) = true ∧
    ([load1].find? (fun d => d.id = 5) = some load1 ∧ load1.reads ≠ []) ∧ [atom1].find? (fun a => a.id = 5 && !a.done) = some atom1 := by
  decide +kernel

/-! ### Witnesses: the events of the other agents -/

/-- The placed workgroup's scratchpad granule is LIT and idle; the phase protects it or not. -/
def lampAt (l : Lamp) (n phase : Nat) : State := { setLamp (wgIs (fun x => { x with padSize := 4096, phase := phase })) 0 l with clock := n, regions := [(0, region1 node1)] }

theorem wit_LampEvents :
    (lampOf (lampAt (.lit 0) 10240 0) 0 = .lit 0 ∧ coldThreshold (lampAt (.lit 0) 10240 0) 0 = some 10240 ∧ isProtected (lampAt (.lit 0) 10240 0) 0 = false ∧
      unitBusy (lampAt (.lit 0) 10240 0) 0 = false) ∧
    coldThreshold sel 72960 = some 65536 ∧ isProtected (lampAt (.lit 0) 0 4) 0 = true ∧
    (lampOf (lampAt (.waking 0 true) 1200 0) 0 = .waking 0 true ∧ 0 + wakeTime 0 true ≤ (lampAt (.waking 0 true) 1200 0).clock) ∧
    (lampAt (.waking 0 true) 1199 0).clock < 0 + wakeTime 0 true ∧
    (lampOf (setLamp sel 5 .dim) 5 ≠ .dark ∧ releasable (setLamp sel 5 .dim) 5 = true) ∧ nearAllowed sel 1 0 = true ∧
    (nearAllowed sel 0 0 = false ∧ tripped sel (dieOf 0) = false) ∧ tripped { sel with bellows := { sel.bellows with trips := [0] } } (dieOf 0) = true := by
  decide +kernel

/-- Workgroup 5 is saved and queued since cycle 0, its region of priority 1; the context has one trap block and one image block. -/
def parked5 (block : Option Nat) : State :=
  { sel with
    wgs := [(1, { placedWg with trapBlock := block }), (5, { placedWg with status := .saved false 0x200000 (some 0), rnum := 1 })]
    contexts := [(0, ⟨BitVec.ofNat 512 (2 ^ 352 + 2 ^ 368)⟩)]
    regions := [(0, region1 node1), (1, ⟨256, BitVec.ofNat 2048 (2 ^ 418 + 2 ^ 384 + 2 ^ 576), [(0, node1)], [], 0, false⟩)]
    clock := 5000 }
def is5 : Option (Candidate × List Side) → Bool
  | some (.restore 5, _) => true
  | _ => false
/-- The workgroup's one warp waits at a barrier since cycle 0. -/
def waits (n : Nat) : State := { blockedIn (.bar 3 0) with clock := n }
/-- The workgroup stops, and its fragment has been found at a boundary. -/
def stopping : State := wgIs (fun x => { x with status := .stopping false, imageBlock := some 0, stood := [(0, 0)] })
/-- The East Cooper finds the place that the West Cooper, which has just placed, leaves it. -/
def eastern : State := { parked5 none with placed := [(0, 5000)], wgs := [(5, { placedWg with core := 240, status := .saved false 0x200000 (some 0), rnum := 1 })] }

theorem wit_CooperEvents :
    (mayPlace (parked5 none) 0 = true ∧ inOrder (parked5 none) clsCooper 0 = true ∧ is5 (firstPlaceable (parked5 none) 0) = true ∧
      is5 (placesNow (parked5 none) 0) = true ∧ (getWg (parked5 none) 5).any Wg.isSaved = true) ∧
    (mayPlace eastern 1 = true ∧ mayPlace eastern 0 = false ∧ is5 (firstPlaceable eastern 1) = true) ∧
    (let s := wgIs (fun x => { x with status := .restoring })
     (getWg s 1).any (fun x => x.status = .restoring) = true ∧ ∀ h ∈ restoreSet s 1, (getWg s h).any (restoreAwake s) = true) ∧
    (((candidates (parked5 (some 0)) 0).find? (fun c => c.cand = .restore 5)).any (fun c =>
        decide (c.since + preDlyOf (parked5 (some 0)) c.rnum ≤ (parked5 (some 0)).clock) && prioOf (parked5 (some 0)) c.rnum = 1) = true ∧
      findPlace (parked5 (some 0)) 0 (.restore 5) = none ∧
      (∀ k ∈ sites (parked5 (some 0)) 0 (.restore 5), placeable (departed (parked5 (some 0)) (leaving (parked5 (some 0)))) (.restore 5) k.1 = false) ∧
      (chooseVictims (parked5 (some 0)) 0 (.restore 5) 1).any (fun vs => (vs.flatMap (·.gs)).all (withdrawTurn (parked5 (some 0)))) = true) ∧
    (wgSet stopping 1 = [1] ∧ maySave stopping 1 = true ∧ (getWg stopping 1).any (fun x => decide (imageAddr stopping x + imageSize ≤ 2 ^ 39)) = true) ∧
    (wgSet (handled (waits 20000)) 1 = [1] ∧ imageRoom { waits 20000 with contexts := [(0, ⟨BitVec.ofNat 512 (2 ^ 352)⟩)] } [1] = true ∧
      mayPark { waits 20000 with contexts := [(0, ⟨BitVec.ofNat 512 (2 ^ 352)⟩)] } false 1 = true ∧ withdrawTurn (waits 20000) 1 = true) ∧
    ((∀ p ∈ sel.wgs, p.2.onCore = true → clusterOf p.2.core ≠ 1) ∧ sel.gated.contains 1 = false) := by decide +kernel

/-- A block at 0x1000 with one node at 0x1200, and its context at 0. -/
def blocked1 : State :=
  let s := putNat (putNat (putNat sel 0x1000 256 (0x1200 * 2 ^ 64 + 2 ^ 430 + 2 ^ 580)) 0x1200 128 (4 * 2 ^ 358 + 2 ^ 332 + 2 ^ 272 + 0x2000 * 2 ^ 128))
    0 64 (0xA5 * 2 ^ 384 + 2 ^ 368)
  { s with host := { s.host with rcmdAddr := 0x1000 } }

theorem wit_RegionCommands :
    sel.host.rcmdBusy = false ∧ { sel.host with rcmdBusy := true }.rcmdBusy = true ∧ checkBlock (askBlock sel 0 (readBlock sel 0)) 0 (readBlock sel 0) none ≠ 0 ∧
    checkBlock (askBlock blocked1 0x1000 (readBlock blocked1 0x1000)) 0x1000 (readBlock blocked1 0x1000) none = 0 ∧
    (let s := { blocked1 with regions := [(0, { region1 node1 with addr := 0x1000 })] }
     s.regions.find? (fun p => p.2.addr = 0x1000) = some (0, { region1 node1 with addr := 0x1000 }) ∧
       (let u := { s with regions := mset s.regions 0 { region1 node1 with addr := 0x1000, bits := (readBlock s 0x1000).bits } }
        checkBlock u 0x1000 (readBlock u 0x1000) (some 0) = 0) ∧ (∀ p ∈ { s with wgs := [] }.wgs, p.2.rnum ≠ 0) ∧
       ∀ p ∈ s.regions, rcb p.2.bits 0 64 ≠ 0x1000) ∧
    sel.regions.find? (fun p => p.2.addr = 0x1000) = none := by decide +kernel

/-- The word of DBTRIG for one record of node 0 of region 0. -/
def bellWord : Word64 := 0x400000
def trained : State := { sel with host := { sel.host with width := 16 } }
/-- TDI 16 in a state, under an SPDM session. -/
def tdiIs (d : Tdi) : State := { sel with spdm := true, tdis := [(16, d)] }
def tdi0 : Tdi := ⟨.unlocked, true, true, 0, false⟩
def bellState : State := { inRegion node1 depth0 with host := { sel.host with ctxSet := true } }
def ring1 : Ring := ⟨.pf, 0, 0, 0, 1, 0, 0⟩

theorem wit_DoorbellEvents :
    getNode sel 0 0 = none ∧
    (getNode bellState 0 0 = some node1 ∧ bits bellWord.toNat 22 9 = 1 ∧ bellState.rings.length < 64 ∧ bellState.host.ctxSet = true ∧
      mayName bellState .pf 0 = true ∧ (stagingAddr bellState .pf 31).isSome = true) ∧
    (mayAsk trained .pf = true ∧ arrives trained .pf = true ∧ unprotected trained .pf false = false ∧ hasPosted trained .pf = false ∧ trained.lampq = [] ∧
      hasPosted { trained with posted := [(.pf, .register 0 0)] } .pf = true) ∧
    (arrives (tdiIs { tdi0 with state := .error }) (.tdi 16) = false ∧ unprotected (tdiIs { tdi0 with state := .run }) (.tdi 16) false = true ∧
      mayAsk { tdiIs tdi0 with host := trained.host } (.tdi 16) = true) ∧
    (bellState.ckpt.busy ≠ 1 ∧ ring1.came < { bellState with clock := 1 }.clock ∧ inOrder bellState clsAlloc 0 = true ∧ node1.waiters = [] ∧
      ringTakes node1 1 = true ∧ ringTakes full1 1 = false ∧ contextMiss bellState 0 (cooperWho 0) (ringTake node1 1).2 32 = []) := by decide +kernel

/-- Tables at 0, 0x1000 and 0x2000 that map the first GiB; context 0. -/
def tables : State := { handled sel with mem := writeCells [] [(0, 1), (1, 0x10), (0x1000, 1), (0x1001, 0x20), (0x2000, 0x0B)], contexts := [(0, ⟨0⟩)], tlb := [] }
/-- As tables, the first GiB of host memory, in a context that has ATS. -/
def hostTables : State := { tables with mem := writeCells tables.mem [(0x2000, 0x4B)], contexts := [(0, ⟨BitVec.ofNat 512 (2 ^ 399)⟩)] }
def walk1 (st : WalkState) : Walk := ⟨4, 16, 0, 1, 0, st⟩

theorem wit_TranslationEvents :
    [walk1 .walking].find? (fun k => k.id = 4 && k.state = .walking && walks { tables with walks := [walk1 .walking] } k) = some (walk1 .walking) ∧
    walkContext { sel with mem := [] } 0 (4096 * 1) = .fault 1 ∧ (∃ r w x, walkContext tables 0 (4096 * 1) = .leaf 30 0 0 r w x) ∧
    (∃ r w x, walkContext hostTables 0 (4096 * 1) = .leaf 30 0 1 r w x) ∧ ctxBits hostTables 0 399 1 = 1 ∧ ctxBits tables 0 399 1 = 0 ∧
    tlbFind hostTables 0 0 (4096 * 1) true = none ∧ [walk1 (.ats 1)].find? (fun k => k.id = 4) = some (walk1 (.ats 1)) ∧
    (walk1 (.pri 1)).state = .pri 1 ∧ mgetD sel.host.tlbBusy 0 0 = 0 ∧ mgetD { sel.host with tlbBusy := [(0, 3)] }.tlbBusy 0 0 = 3 ∧
    usesPending sel false 0 = false := by
  refine ⟨by decide +kernel, by decide +kernel, ⟨true, false, false, by decide +kernel⟩, ⟨true, false, false, by decide +kernel⟩,
    by decide +kernel, by decide +kernel, by decide +kernel, by decide +kernel, by decide, by decide +kernel, by decide +kernel, by decide +kernel⟩

/-- Bring-up is over; and hart 15 in a domain that is granted nothing. -/
def housed : State := { sel with fw := { sel.fw with boot := 3, house := true } }
def sandboxed : State := { housed with dom := { housed.dom with harts := [(15, 2)] } }

theorem wit_HostAccessResults :
    isFunction .pf = true ∧ isFunction (.tdi 16) = true ∧ linked trained = true ∧ arrives trained (.tdi 16) = true ∧
    unprotected trained (.tdi 16) false = false ∧ hasPosted trained (.tdi 16) = false ∧ hasPosted trained .pf = false ∧
    (0 % 8 = 0 ∧ 0x1FF8 + 8 ≤ bar0Size (.tdi 16)) ∧ bar0Size (.tdi 16) < 0x1FF9 + 8 ∧
    (barAddrs trained .pf 0x10000 2 = some [0x10000, 0x10001] ∧ trained.lampq = [] ∧ lampHeld trained (reqWho .pf) (nub ([0x10000, 0x10001].map hbmUnit)) = false ∧
      lampHeld trained (reqWho .pf) (nub ([0].map hbmUnit)) = true ∧
      barAddrs trained .pf (2 ^ 39 - 1) 2 = none) ∧
    (unprotected (tdiIs { tdi0 with state := .run }) (.tdi 16) false = true ∧ arrives (tdiIs { tdi0 with state := .run }) (.tdi 16) = true) ∧
    (mayAsk housed (.hart 15) = true ∧ notifyAllowed housed (.hart 15) 255 = true ∧ notifyAllowed sandboxed (.hart 15) 255 = false ∧
      mayAsk sandboxed (.hart 15) = true ∧ housed.fw.house = true) ∧
    (housed.fw.boot = 3 ∧ 1280 ∈ pcieRates) ∧ ((hartGives .store = true ∧ [(1 : Byte)].length = 1) ∧ hartWaits .fence = true) ∧
    hasPosted { housed with posted := [(.hart 0, .register 0 0)] } (.hart 0) = true ∧
    (2 ^ 39 - 8 + 8 ≤ 2 ^ 39 ∧ 2 ^ 39 < 2 ^ 39 - 7 + 8 ∧ ¬(0xF000000000 ≤ 2 ^ 39 - 7 ∧ 2 ^ 39 - 7 + 8 ≤ 0xF000000000 + 2 ^ 26)) := by decide +kernel

theorem wit_TdiEvents :
    isTdi 1 = true ∧ isTdi 16 = true ∧ (getTdi (tdiIs tdi0) 16).state = .unlocked ∧ lockRefused (tdiIs tdi0) 16 = false ∧
    (getTdi (tdiIs { tdi0 with state := .locked }) 16).state = .locked ∧ (getTdi (tdiIs { tdi0 with state := .run }) 16).ideUp = true ∧
    (getTdi (tdiIs { tdi0 with state := .error }) 16).state = .error ∧ (tdiIs tdi0).spdm = true ∧
    (getTdi (tdiIs { tdi0 with unlocking := true }) 16).unlocking = true ∧ boundLeft (tdiIs { tdi0 with state := .error }) (tdiAsids tdi0) = false := by
  decide +kernel

/-- Link 3 up to device 7, with a flit sent and an answer of the device that has asked for admission. -/
def link3 : Link := { Link.reset with up := true, peer := 7, epoch := 2, replay := [⟨5, [], 0⟩] }
def out1 : PeerReq := ⟨9, 0, ⟨0, 0, 0, 0⟩, 0x10000, 3, 8, 0, 0, false, some (.data 0)⟩
def onLink : State := { sel with links := [(3, link3)], outs := [out1] }
/-- A request of the peer waits as well, and could be granted. -/
def asked : State := modLink onLink 3 (fun l => { l with admitted := l.admitted ++ [(1, 480)] })
/-- Every grant of the link is outstanding. -/
def full3 : State := modLink asked 3 (fun l => { l with grants := List.replicate 256 (2, 240) })

/-- An agent of the peer, and what a hub die has recorded of its atomic. -/
def tag1 : PeerTag := ⟨7, 1, 0, 2⟩
def recorded : Dedup := ⟨4, 0, peerSource tag1, [(0, 5)]⟩

theorem wit_LinkEvents :
    (getLink onLink 3).up = true ∧ (getLink onLink 3).rxSeq = 0 ∧ (getLink sel 3).up = false ∧
    ((∃ q ∈ link3.replay, q.seq.toNat = 5) ∧ ∀ q ∈ link3.replay, q.times = []) ∧
    ((getLink asked 3).promised = 0 ∧ nextGrant full3 = none) ∧
    onLink.outs.find? (fun r => r.id = 9 && r.link = 3 && !r.granted) = some out1 ∧
    (linksTo onLink 7 2 ≠ [] ∧ inHbm 0x10000 8 = true ∧ onLink.peerq = [] ∧
      lampHeld onLink (peerWho onLink.nextId) (nub ((List.range 8).map (fun i => hbmUnit (0x10000 + i)))) = false ∧
      lampHeld onLink (peerWho onLink.nextId) (nub ((List.range 8).map (fun i => hbmUnit i))) = true) ∧
    (∃ q ∈ { onLink with peerq := [(1, tag1, 0x10000, .load 8)] }.peerq, q.2.1 = tag1) ∧
    (onLink.dedup.find? (fun d => d.source = peerSource tag1) = none ∧ (1 ≤ dedupFree onLink (hubOf 0x10000) ∧ dedupFree { onLink with dedup := List.replicate Config.dedupHub { recorded with unit := hubOf 0x10000 } } (hubOf 0x10000) = 0 ∧ poisonedAt onLink 0x10000 4 = false) ∧
      [recorded].find? (fun d => d.source = peerSource tag1) = some recorded ∧ atomBytes 0 = 4 ∧
      poisonedAt { onLink with poison := [granule 0x10000] } 0x10000 4 = true ∧ isLit onLink 72961 = false) := by
  refine ⟨by decide +kernel, by decide +kernel, by decide +kernel, ⟨⟨⟨5, [], 0⟩, by decide, by decide⟩, by decide⟩,
    ⟨by decide +kernel, by decide +kernel⟩, by decide +kernel, by decide +kernel, ⟨(1, tag1, 0x10000, .load 8), by decide, rfl⟩, by decide +kernel⟩

/-- The link can grant the request that waits, whatever its buffer's size. -/
theorem wit_LinkGrant : nextGrant asked = some 3 := by
  have h : grantable asked (getLink asked 3) = true := by
    have e : (getLink asked 3).admitted.head? = some (1, 480) := by decide +kernel
    have p : (getLink asked 3).promised = 0 := by decide +kernel
    unfold grantable
    rw [e, p]
    simp only [Option.any_some, Nat.zero_add, Bool.and_eq_true, decide_eq_true_eq]
    exact ⟨⟨by decide +kernel, by decide +kernel⟩, by omega, by decide +kernel⟩
  have l : asked.links = [(3, getLink asked 3)] := by decide +kernel
  unfold nextGrant
  rw [l, List.filter_cons_of_pos (by exact h)]
  decide +kernel

theorem wit_DomainCommands :
    sel.dom.busy = false ∧ { sel.dom with busy := true }.busy = true ∧ inHbm (65536 * 8388607) 65536 = true ∧ inHbm (65536 * 8388608) 65536 = false ∧
    pageTag { sel with dom := { sel.dom with tags := [(3, 1)] } } (65536 * 3) = 1 ∧
    bits (physNat sel 0 64) 257 255 = 0 ∧ bits (physNat (putNat sel 0 64 (2 ^ 257)) 0 64) 257 255 ≠ 0 := by decide +kernel

theorem wit_PowerEvents :
    sel.bellows.firmware = false ∧ { sel.bellows with firmware := true }.firmware = true ∧
    (housed.fw.boot ≠ 0 ∧ slotValid (pickNewer housed.fw) (activeSlot (pickNewer housed.fw) 0) = true ∧
      slotValid (pickNewer { housed.fw with bad := [0, 1] }) (activeSlot (pickNewer { housed.fw with bad := [0, 1] }) 0) = false) ∧
    levelHeld sel 0 = false ∧ levelHeld { sel with bellows := { sel.bellows with hwCap := true } } 479 = true ∧
    sel.bellows.droops.contains 39 = false ∧ tripped sel 3 = false ∧ tripped { sel with bellows := { sel.bellows with trips := [3] } } 3 = true := by
  decide +kernel

/-- Sampling to the line that is LIT. -/
def sampling : State := { sel with obs := { sel.obs with sampEn := true, sampBase := 0x10000, sampFrom := 4096 }, clock := 4096 }

theorem wit_ObservationEvents :
    sampling.obs.sampEn = true ∧ sampleDue sampling 4 = true ∧ sampleDue { sampling with clock := 4095 } 4 = false ∧ inHbm (sampleAddr sampling) 16 = true ∧ sampling.obs.samples = [] ∧
    lampHeld sampling (sampleWho 4) [hbmUnit (sampleAddr sampling)] = false ∧ lampHeld { sampling with lamps := [] } (sampleWho 4) [hbmUnit (sampleAddr sampling)] = true ∧
    nextSampled sampling 1 0 = none ∧ sel.obs.sampEn = false ∧ sel.fw.busy = false ∧ sel.fw.len ≤ 2 ^ 26 ∧ sel.fw.src.toNat + sel.fw.len ≤ 2 ^ 39 ∧ bits (0x9 : Word64).toNat 2 2 = 2 ∧
    { sel.fw with busy := true }.busy = true := by decide +kernel

theorem wit_CheckpointAndResetEvents :
    { sel.ckpt with busy := 1 }.busy ≠ 0 ∧ sel.ckpt.busy = 0 ∧ ckptBad sel = false ∧
    ckptBad { sel with ckpt := { sel.ckpt with dst := 2 } } = true ∧ blocksLeft sel = false ∧
    blocksLeft { sel with ckpt := { sel.ckpt with busy := 2, dst := 1 } } = true ∧ State.reset.wgs = [] ∧
    (sel.wgs = [(1, placedWg)] ∧ wgSet sel 1 = [1] ∧ placedWg.status = .resident ∧ freeImageBlocks sel 0 1 = [] ∧ freeCkptBlock sel = none ∧
      freeImageBlocks { sel with contexts := [(0, ⟨BitVec.ofNat 512 (2 ^ 352)⟩)] } 0 1 ≠ [] ∧
      freeCkptBlock { sel with ckpt := { sel.ckpt with img := 1 } } = some 0) ∧
    (copying (ckptStopAll { sel with ckpt := { sel.ckpt with busy := 1 } }) = false ∧
      copying (ckptStopAll { State.reset with ckpt := { Ckpt.reset with busy := 1 } }) = true) := by decide +kernel

/-! ### Decoding: words written out from 02 R24 and R31 -/

/-- A word with dst 1, a 2, b 3, c 4, guard 5 and mod 0x6789. -/
def fields : WarpWord := ⟨false, false, 1, 2, 3, 4, 5, 0x6789, 0⟩

/-- Do words decode as listed? -/
def decodes (l : List (Nat × Instr)) : Bool := l.all (fun q => decodeTableWord 64 q.1 = some q.2)

theorem test_decodeControl : decodes
    [(0x0010102030456789, .nop fields), (0x0020102030456789, .bra fields), (0x0030102030456789, .brx fields),
    (0x0040102030456789, .join fields), (0x0050102030456789, .call fields), (0x0060102030456789, .ret fields),
    (0x0070102030456789, .exit fields), (0x0080102030456789, .yield fields), (0x0090102030456789, .sleep fields),
    (0x00A0102030456789, .ballot fields), (0x00B0102030456789, .vote fields), (0x00C0102030456789, .mskOp fields),
    (0x00D0102030456789, .mskSave fields), (0x00E0102030456789, .mskWset fields), (0x00F0102030456789, .popcM fields),
    (0x0100102030456789, .firstM fields), (0x0110102030456789, .leader fields), (0x0120102030456789, .shfl fields),
    (0x0130102030456789, .bcast fields), (0x0140102030456789, .lscan fields), (0x0150102030456789, .lred fields),
    (0x0160102030456789, .getsr fields), (0x0170102030456789, .setsr fields), (0x0180102030456789, .modeLw fields)] = true := by decide +kernel

theorem test_decodeInteger : decodes
    [(0x0400102030456789, .iadd fields), (0x0410102030456789, .isub fields), (0x0420102030456789, .iaddc fields),
    (0x0430102030456789, .imul fields), (0x0440102030456789, .imulh fields), (0x0450102030456789, .imad fields),
    (0x0460102030456789, .imin fields), (0x0470102030456789, .imax fields), (0x0480102030456789, .iabsd fields),
    (0x0490102030456789, .ishl fields), (0x04A0102030456789, .ishr fields), (0x04B0102030456789, .ishra fields),
    (0x04C0102030456789, .fshf fields), (0x04D0102030456789, .bool3 fields), (0x04E0102030456789, .bfx fields),
    (0x04F0102030456789, .bfi fields), (0x0500102030456789, .clz fields), (0x0510102030456789, .popc fields),
    (0x0520102030456789, .brev fields), (0x0530102030456789, .icmp fields), (0x0540102030456789, .sel fields),
    (0x0550102030456789, .idp4 fields), (0x0560102030456789, .mov fields), (0x0570102030456789, .movi fields),
    (0x0580102030456789, .bysel fields)] = true := by decide +kernel

theorem test_decodeFloating : decodes
    [(0x0800102030456789, .fadd fields), (0x0810102030456789, .fsub fields), (0x0820102030456789, .fmul fields),
    (0x0830102030456789, .ffma fields), (0x0840102030456789, .fmin fields), (0x0850102030456789, .fmax fields),
    (0x0860102030456789, .fcmp fields), (0x0870102030456789, .frcp fields), (0x0880102030456789, .frsq fields),
    (0x0890102030456789, .fsqrt fields), (0x08A0102030456789, .fdiv fields), (0x08B0102030456789, .fexp2 fields),
    (0x08C0102030456789, .flog2 fields), (0x08D0102030456789, .fsinpi fields), (0x08E0102030456789, .fcospi fields),
    (0x08F0102030456789, .ftanh fields), (0x0900102030456789, .fclass fields), (0x0910102030456789, .frnd fields),
    (0x0920102030456789, .fscale fields), (0x0C00102030456789, .cvt fields), (0x0C10102030456789, .pack fields),
    (0x0C20102030456789, .unpack fields), (0x0C30102030456789, .qblk fields), (0x0C40102030456789, .dqblk fields)] = true := by decide +kernel

theorem test_decodeScalar : decodes
    [(0x1000102030456789, .sadd fields), (0x1010102030456789, .ssub fields), (0x1020102030456789, .smul fields),
    (0x1030102030456789, .smulh fields), (0x1040102030456789, .sand fields), (0x1050102030456789, .sor fields),
    (0x1060102030456789, .sxor fields), (0x1070102030456789, .sshl fields), (0x1080102030456789, .sshr fields),
    (0x1090102030456789, .sshra fields), (0x10A0102030456789, .smin fields), (0x10B0102030456789, .smax fields),
    (0x10C0102030456789, .scmp fields), (0x10D0102030456789, .ssel fields), (0x10E0102030456789, .smov fields),
    (0x10F0102030456789, .sli fields), (0x1100102030456789, .sld fields), (0x1110102030456789, .sst fields),
    (0x1120102030456789, .sbfx fields), (0x1130102030456789, .sclz fields), (0x1140102030456789, .spopc fields),
    (0x1150102030456789, .v2s fields)] = true := by decide +kernel

theorem test_decodeMemory : decodes
    [(0x1400102030456789, .ld fields), (0x1410102030456789, .st fields), (0x1420102030456789, .pref fields),
    (0x1430102030456789, .cctl fields), (0x1440102030456789, .hflush fields), (0x1450102030456789, .hinv fields),
    (0x1460102030456789, .phase fields), (0x1470102030456789, .padq fields)] = true := by decide +kernel

theorem test_decodeSynchronisation : decodes
    [(0x1800102030456789, .atom fields), (0x1810102030456789, .atomCas fields), (0x1820102030456789, .red fields),
    (0x1830102030456789, .fence fields), (0x1840102030456789, .barInit fields), (0x1850102030456789, .barArrive fields),
    (0x1860102030456789, .barWait fields), (0x1870102030456789, .barSync fields), (0x1880102030456789, .barQuery fields),
    (0x1890102030456789, .banklock fields), (0x18A0102030456789, .tlwait fields), (0x18B0102030456789, .tlread fields)] = true := by decide +kernel

theorem test_decodeCopy : decodes
    [(0x1C00102030456789, .copyT fields), (0x1C10102030456789, .copyL fields), (0x1C20102030456789, .copyG fields),
    (0x1C30102030456789, .copyFill fields), (0x1C40102030456789, .copyStat fields)] = true := by decide +kernel

theorem test_decodeAnvil : decodes
    [(0x2000102030456789, .obRes fields), (0x2010102030456789, .obFree fields), (0x2020102030456789, .anvMma fields),
    (0x2030102030456789, .anvZero fields), (0x2040102030456789, .anvDrain fields), (0x2050102030456789, .anvLoadz fields),
    (0x2060102030456789, .gangSet fields), (0x2070102030456789, .licAcq fields), (0x2080102030456789, .licRel fields),
    (0x2090102030456789, .licQuery fields), (0x20A0102030456789, .twSig fields), (0x20B0102030456789, .twWait fields)] = true := by decide +kernel

theorem test_decodeRecord : decodes
    [(0x2400102030456789, .recAlloc fields), (0x2410102030456789, .recCommit fields), (0x2420102030456789, .recAbort fields),
    (0x2430102030456789, .recInfo fields), (0x2440102030456789, .spawn fields), (0x2450102030456789, .regGive fields),
    (0x2460102030456789, .regClaim fields), (0x2470102030456789, .ntfPost fields), (0x2480102030456789, .ntfWait fields)] = true := by decide +kernel

theorem test_decodeTrap : decodes
    [(0x2800102030456789, .trap fields), (0x2810102030456789, .trapRet fields), (0x2820102030456789, .brk fields),
    (0x2830102030456789, .vary fields)] = true := by decide +kernel

/-- Do words of 128 bits, given with their extension word, decode as listed? -/
def decodesExt (l : List (Nat × Nat × Instr)) : Bool := l.all (fun q => decodeTableWord 128 (q.1 + q.2.1 * 2 ^ 64) = some q.2.2)

/-- The worked encodings of single words: 05 R120, R121, R126, 03 R81, 02 R32, 06 R140, 08 R241, 12 R289 and 14 R326. -/
theorem test_workedWords : decodes
    [(0x0400303006408000, .iadd ⟨false, false, 3, 3, 0, 0x64, 0, 0x8000, 0⟩),
    (0x0830C04050CB0008, .ffma ⟨false, false, 12, 4, 5, 12, 11, 8, 0⟩),
    (0x0C0091400000081B, .cvt ⟨false, false, 9, 0x14, 0, 0, 0, 0x81B, 0⟩),
    (0x0420002040500000, .iaddc ⟨false, false, 0, 2, 4, 5, 0, 0, 0⟩),
    (0x0180000004808000, .modeLw ⟨false, false, 0, 0, 0, 0x48, 0, 0x8000, 0⟩),
    (0x20A0001000108000, .twSig ⟨false, false, 0, 1, 0, 1, 0, 0x8000, 0⟩),
    (0x2800000000508000, .trap ⟨false, false, 0, 0, 0, 5, 0, 0x8000, 0⟩),
    (0x283000C000000000, .vary ⟨false, false, 0, 12, 0, 0, 0, 0, 0⟩),
    (0x1830000000000003, .fence ⟨false, false, 0, 0, 0, 0, 0, 3, 0⟩)] = true := by decide +kernel

/-- The worked encodings with an extension word: 04 R103, 07 R193, 08 R215, 10 R242, 11 R269, R273 and 12 R289. -/
theorem test_workedExtensionWords : decodesExt
    [(0x4030A02000000001, 0x4800000040, .brx ⟨false, true, 10, 2, 0, 0, 0, 1, 0x4800000040⟩),
    (0x5400A08060000020, 0x200000010, .ld ⟨false, true, 10, 8, 6, 0, 0, 0x20, 0x200000010⟩),
    (0x5800502040700300, 0x200000000, .atom ⟨false, true, 5, 2, 4, 7, 0, 0x300, 0x200000000⟩),
    (0x5C00A0B0C001000E, 0x0004000000000000, .copyT ⟨false, true, 10, 11, 12, 0, 1, 0x0E, 0x0004000000000000⟩),
    (0x6000006070000000, 0x300000000, .obRes ⟨false, true, 0, 6, 7, 0, 0, 0, 0x300000000⟩),
    (0x602000A0B0000000, 0x8289, .anvMma ⟨false, true, 0, 10, 11, 0, 0, 0, 0x8289⟩),
    (0x6400F00000018001, 0x100000001, .recAlloc ⟨false, true, 15, 0, 0, 0, 1, 0x8001, 0x100000001⟩),
    (0x641000F000010000, 0, .recCommit ⟨false, true, 0, 15, 0, 0, 1, 0, 0⟩)] = true := by decide +kernel

/-- The emulated word of 02 R32 and a reserved opcode. -/
theorem test_emulatedWord : decodeWord 0x3800301090012000 0 = .emulate ∧ decodeWord 0x0190000000000000 0 = .reserved ∧
    decodeWord 0 0 = .reserved ∧ decodeTableWord 64 0x3800301090012000 = none := by decide +kernel

/-- The worked slots of 02 R38, R40 to R43: XMOV, FFMA and FFMA under a guard; SADD, SST and V2S; LW.LD. -/
theorem test_workedSlots :
    decodeLane 0x0DD43043 = ⟨0x37, 5, 3, 1, 3⟩ ∧ decodeLane 0x0854_3061 = ⟨0x21, 5, 3, 1, 0x21⟩ ∧
    decodeScalar 0x0010404004 = ⟨0, 2, 2, 0, true, 4⟩ ∧ decodeEngine 0x06420204 = ⟨1, true, 1, 2, 0, 0x20, 4⟩ := by decide +kernel
/-! ### Witnesses: decoding, the step, and the frames -/

theorem wit_ReservedWordsRefused : (∀ op : Op, op.code ≠ wordOp 0x3800301090012000) ∧ (∀ op : Op, op.code ≠ wordOp 0x0190000000000000) ∧
    (0x380 ≤ wordOp 0x3800301090012000 ∧ wordOp 0x3800301090012000 ≤ 0x3BF) ∧ wordOp 0x0190000000000000 < 0x380 := by
  refine ⟨fun op => ?_, fun op => ?_, by decide⟩ <;> cases op <;> decide

theorem wit_EncodeDecodeWord : (wd 0).wellFormed .nop = true ∧ gWord.wellFormed .ld = true ∧
    (⟨true, true, 10, 2, 0, 0, 15, 1, 0x4800000040⟩ : WarpWord).wellFormed .brx = true := by decide +kernel

theorem wit_EncodeDecodeBundle : (decodeBundle 0).wellFormed = true ∧ (decodeBundle (BitVec.allOnes 1024)).wellFormed = true := by
  decide +kernel

/-- Warp 0 at IADD.n32 v3, v3, 100 and the machine's next turn its issue slot; a thread at a bundle of empty slots. -/
def atIadd : State := State.reset.withFetchWord 64 0x0400303006408000
def atBundle : State := State.reset.withFetchWord 1024 0

/-- The hypotheses of a step of a lane group's issue slot: f looks at the state, the workgroup and the warp. -/
def slotOk (s : State) (f : State → Wg → Warp → Bool) : Bool :=
  let u0 := tick 1 { s with sched := [] }
  let u := modLg u0 0 0 (fun l => { l with yielded := none })
  decide (s.sched = [.issue 1 0 0]) && hasSlot u0 0 0 &&
    (match tryOrder u 0 0 (getLg u0 0 0).yielded with
      | cd :: _ =>
        (match getWg u cd.i.g, getWarp u cd.i.g cd.i.w with
          | some x, some p => f { (if x.phase ≤ 4 then leaveNear u x.core p.lg else u) with issuer := some cd.i } x p && cd.i == ⟨1, 0, 0⟩
          | _, _ => false)
      | [] => false)

theorem wit_StepRunsDecoded :
    slotOk atIadd (fun v x p => p.lw.isNone && p.due.isNone && (boundaryTrap v 1 0 0).isNone && !x.stopped &&
      (mget p.frags 0).all (fun fr => !headsQueue v 1 0 x fr.state) &&
      (ctxOf v ⟨1, 0, 0⟩ 0).any (fun k => match fetchWord v x (warpKey 1 0) k.pc.toNat with
        | .ok w t => (match decodeWord (BitVec.ofNat 64 w) (BitVec.ofNat 64 (w / 2 ^ 64)) with
          | .instr i => i == .iadd ⟨false, false, 3, 3, 0, 0x64, 0, 0x8000, 0⟩ && (match exec i t with
            | .next r => r.issuer.isNone
            | _ => false)
          | _ => false)
        | _ => false)) = true ∧
    slotOk atBundle (fun v x p => p.lw.isSome && p.bank.isNone && p.due.isNone && (lwCtxOf v ⟨1, 0, 0⟩).any (fun k =>
      (lwBoundary v k).isNone && (match fetchBundle v x (warpKey 1 0) k.lw.pc.toNat with
        | .ok w t => (match exec (.bundleIssue (decodeBundle (BitVec.ofNat 1024 w))) t with
          | .next r => r.issuer.isNone
          | _ => false)
        | _ => false))) = true ∧
    ({ State.reset with sched := [.event 3 (.supplyRecover 0)] } : State).sched = .event 3 (.supplyRecover 0) :: [] := by decide +kernel

/-- Does a step of the state end in a next state with a further property? -/
def stepsTo (s : State) (f : State → Bool) : Bool :=
  match step s with
  | .next t => f t
  | _ => false

theorem wit_StepKeepsMemoryForm : memoryForm atIadd ∧ stepsTo atIadd (fun _ => true) = true := by
  unfold memoryForm; decide +kernel

theorem wit_RegisterReadsAndWrites : ({ placedWarp false 0 with bank := some ⟨0x10080, 0xFFFFFFFF, [], [], some 0, none⟩ } : Warp).bank.isSome = true ∧
    (232, 0) ≠ ((239, 31) : Nat × Nat) := by decide +kernel

/-- The warp has a bank-lock span of its own. -/
def spanned : State := modCore padded 0 (fun k => { k with spans := [⟨16, 0xFFFFFFFF, 8, 1⟩] })
/-- A clean line of host memory is held. -/
def hostClean : State := { sel with hostLines := [(1, false)] }

theorem wit_StoreAndLoadFrame :
    on .ld gWord sel (fun c => Memory.wf sel.mem && c.p ≠ 0 && passes (checkLanes sel c.agent (spaceCode gWord) (accessBytes gWord) .read false
      (laneAddrs sel c gWord (spaceCode gWord)))) = true ∧
    on .st { gWord with mod := 0x480 } sel (fun c => c.p ≠ 0 && laneRelease sel c.g c.w 4 c.p && passes (checkLanes sel c.agent 0 4 .write false
      (laneAddrs sel c gWord 0))) = true ∧
    on .st pWord padded (fun c => Memory.wf padded.mem && passes (checkLanes padded c.agent 2 4 .write false (laneAddrs padded c pWord 2))) = true ∧
    on .sld { wd 0x8023 with b := 8 } padded (fun c => passesOne (checkLanes padded c.agent (spaceCode (wd 0x8023)) 8 .read false
      (scaAddr c { wd 0x8023 with b := 8 } .sld))) = true ∧
    on .sst { wd 0x8022 with b := 4, dst := 3 } padded (fun c => passes (checkLanes padded c.agent (spaceCode (wd 0x8022)) 4 .write false
      (scaAddr c { wd 0x8022 with b := 4, dst := 3 } .sst))) = true ∧
    on .ld { gWord with mod := 0x40 } sel (fun c => passes (checkLanes sel c.agent 0 4 .read false (laneAddrs sel c gWord 0)) && acqReady sel c c.p []) = true ∧
    (padded.lampq = [] ∧ padded.atoms = [] ∧ ownSpan padded 0 1 0 = false ∧ ownSpan spanned 0 1 0 = true ∧
      on .st pWord spanned (fun c => c.p ≠ 0 && passes (checkLanes spanned c.agent 2 4 .write false (laneAddrs spanned c pWord 2))) = true) ∧
    (steady sel 0x10000 ∧ steady hostClean (hostDevKey 130) ∧ steady hostClean (hostKey 130)) ∧
    ((∀ p ∈ hostClean.hostLines, p.1 < 2 ^ 57) ∧ busKey 0x10000 ∧ busKey (hostKey 130) ∧ busKey (hostDevKey 130)) ∧
    (store1.kind = .st ∧ noAlias 0x10000 store1.cells ∧ store1.cells.all (fun c => c.1 < 2 ^ 100) = true) := by
  refine ⟨by decide +kernel, by decide +kernel, by decide +kernel, by decide +kernel, by decide +kernel, by decide +kernel, by decide +kernel,
    ⟨⟨fun _ _ => by decide +kernel, fun _ _ _ => by decide +kernel⟩, ⟨fun _ _ => by decide +kernel, fun _ _ _ => by decide +kernel⟩,
      ⟨fun _ _ => by decide +kernel, fun _ _ _ => by decide +kernel⟩⟩, by unfold busKey; decide, by decide +kernel, ?_, by decide +kernel⟩
  intro h
  exact absurd h (by decide)

/-! ### Behaviour: the worked examples and other points of the spec -/

/-- Run a word on warp 0 with its registers set; f looks at the warp after. -/
def ran (i : Instr) (regs : Warp → Warp) (f : Warp → Bool) : Bool :=
  match exec i (warpIs regs) with
  | .next t => (getWarp t 1 0).any f
  | _ => false

/-- 02 R56: IADD.n32 v3, v3, 100 as the first step: v3 and the PC. -/
theorem test_firstStep : stepsTo atIadd (fun t => (getWarp t 1 0).any (fun x => x.vreg 3 0 = 100 && x.vreg 3 31 = 100 &&
    x.frags.all (fun q => q.2.pc = 0x10008 && q.2.age = 0))) = true := by decide +kernel

/-- 05 R121: the first and the last instruction of the worked sum of three limbs, in lane 4. -/
theorem test_iaddc : ran (.iaddc ⟨false, false, 0, 2, 4, 5, 0, 0, 0⟩) (fun x => (x.setVreg 2 4 0xFFFFFFFF).setVreg 4 4 1)
      (fun x => x.vreg 0 4 = 0 && x.mreg 5 = 0x10) = true ∧
    ran (.iaddc ⟨false, false, 6, 8, 9, 5, 0, 0, 0⟩) (fun x => (x.setVreg 8 4 1).setMreg 5 0x10)
      (fun x => x.vreg 6 4 = 2 && x.mreg 5 = 0) = true := by decide +kernel

/-- BYSEL v0, v1, v2, v3 with a of lane 0 and a selector. -/
def bysel0 (a sel : Word32) (r : Word32) : Bool :=
  ran (.bysel ⟨false, false, 0, 1, 2, 3, 0, 0, 0⟩) (fun x => (x.setVreg 1 0 a).setVreg 2 0 sel) (fun x => x.vreg 0 0 = r)

/-- 05 R123: the table of selectors. -/
theorem test_bysel : bysel0 0x123456F8 0x000C2040 0x123456F8 = true ∧ bysel0 0x123456F8 0x00618600 0xFFFFFFF8 = true ∧
    bysel0 0x123456F8 0x00208200 0xF8 = true ∧ bysel0 0x123456F8 0x00001083 0xF8563412 = true ∧
    bysel0 0x123456F8 0x008218A3 0x1F6A2C48 = true := by decide +kernel

/-- 03 R84: the worked block: 0.25, 1.25, -2.5, 9, 0, -0, 4.5 and 12 in lane 0 from v16. -/
theorem test_qblk : ran (.qblk ⟨false, false, 4, 16, 0, 0, 0, 0x80E, 0⟩)
    (fun x => [0x3E800000, 0x3FA00000, 0xC0200000, 0x41100000, 0, 0x80000000, 0x40900000, 0x41400000].zipIdx.foldl
      (fun x p => x.setVreg (16 + p.2) 0 p.1) x) (fun x => x.vreg 4 0 = 0x74806A10 && x.vreg 5 0 = 0x80) = true := by decide +kernel

/-- 11 R260: a row of A and a column of B of the worked step. -/
def workedRow (l : List Nat) : OpRow := opRow (BitVec.ofNat 128 (5 * 2 ^ 32)) (l.foldr (fun v n => v + 2 ^ 16 * n) 0) 0 0 0
def ones : List Nat := [0x3F80, 0x3F80, 0x3F80, 0x3F80, 0x3F80, 0x3F80, 0x3F80, 0x3F80]

/-- 11 R260: the step rounds once, so that 1 stays of 2^100 + 1 - 2^100; a NaN that arises sets MNV. -/
theorem test_anvilStep :
    let z := stepElem (workedRow [0x7180, 0x3F80, 0xF180, 0, 0, 0, 0, 0]) (workedRow ones) 0
    z = (0x3FFF00000000000000000000, 0) ∧
      stepElem (workedRow [0x8000, 0x8000, 0x8000, 0x8000, 0x8000, 0x8000, 0x8000, 0x8000]) (workedRow ones) z.1 = (z.1, 0) ∧
      stepElem (workedRow [0x7180, 0, 0xF180, 0, 0, 0, 0, 0]) (workedRow [0x3F80, 0x7F80, 0x3F80, 0x3F80, 0x3F80, 0x3F80, 0x3F80, 0x3F80]) z.1 =
        (0x7FFF80000000000000000000, 8) := by decide +kernel

/-- 14 R351: the frame of the emulated word in the worked run, with the frame of warp 0 at 0x11000. -/
theorem test_emulationFrame :
    (match illegalWord (handled (warpIs (m1Is 0xFF))) ⟨1, 0, 0⟩ 0x3800301090012000 0 2 with
      | .next t => [(0, 0xF0201), (8, 0x10000), (0x10, 0x10008), (0x18, 0x3800301090012000), (0x20, 0), (0x28, 0xFFFFFFFFFFFFFFFF),
          (0x30, 0xFF000000FF), (0x40, 0x70000F003)].all (fun q => readNat t.mem (hbmKey 0x11000 + q.1) 8 = q.2)
      | _ => false) = true := by decide +kernel

/-! ### Ill-formed words: one for each check of WellFormed -/

theorem test_illFormed :
    (wd 0xFFF).wellFormed .iadd = false ∧ ({ wd 0 with guard := 8 } : WarpWord).wellFormed .exit = false ∧
    ({ wd 0 with b := 1 } : WarpWord).wellFormed .mov = false ∧ legal ⟨16, false, false⟩ .iadd { wd 0 with dst := 16 } = false ∧
    ({ wd 3 with dst := 3 } : WarpWord).wellFormed .imul = false ∧ (wd 0).wellFormed .bra = false ∧
    (wd 0 (some 5)).wellFormed .iadd = false ∧ ({ wd 0 with ext := 5 } : WarpWord).wellFormed .iadd = false ∧
    ({ wd 0x2000 with b := 64 } : WarpWord).wellFormed .iadd = false ∧ ({ wd 0x8000 (some 1) with b := 1 } : WarpWord).wellFormed .iadd = false ∧
    ({ wd 0xA000 with b := 1 } : WarpWord).wellFormed .iadd = false ∧
    Bundle.wellFormed { decodeBundle 0 with lanes := (decodeBundle 0).lanes.drop 1 } = false := by decide +kernel

end Sys2Proof.Tests
end

section
/-!
The numbers of the vector classes: what an integer result reads as in its type (03 R58, R59, 05 R119).
-/

namespace Sys2Proof.Numbers
open Sys2Proof.Machine

/-! ### The representative of an integer modulo 2^w in a type's range -/

/-- The integer of a type's range that is z modulo 2^w: the balanced residue for a signed type, else the least one
that is not negative. -/
def wrapInt (signed : Bool) (w : Nat) (z : Int) : Int := if signed then z.bmod (2 ^ w) else z % (2 ^ w : Nat)

/-- Only the residue counts. -/
theorem wrapInt_eq_of_emod_eq {signed : Bool} {w : Nat} {y z : Int} (h : y % (2 ^ w : Nat) = z % (2 ^ w : Nat)) :
    wrapInt signed w y = wrapInt signed w z := by
  cases signed
  · exact h
  · simp only [wrapInt, Int.bmod_def, h]

theorem exists_eq_wrapInt_add_mul (signed : Bool) (w : Nat) (z : Int) :
    ∃ q : Int, z = wrapInt signed w z + q * (2 ^ w : Nat) := by
  cases signed
  · exact ⟨z / (2 ^ w : Nat), (Int.emod_add_ediv_mul z _).symm⟩
  · exact ⟨z.bdiv (2 ^ w), by rw [Int.mul_comm]; exact (Int.bmod_add_bdiv z _).symm⟩

theorem wrapInt_mem_typeRange (signed : Bool) {w : Nat} (hw : 0 < w) (z : Int) :
    (typeRange signed w).1 ≤ wrapInt signed w z ∧ wrapInt signed w z ≤ (typeRange signed w).2 := by
  have hpos : 0 < 2 ^ (w - 1) := Nat.two_pow_pos _
  have hmod := Nat.two_pow_pred_add_two_pow_pred hw
  cases signed
  · simp only [typeRange, wrapInt, Bool.false_eq_true, if_false]
    omega
  · simp only [typeRange, wrapInt, if_true, Int.bmod_def]
    omega

/-- An integer of the range is its own representative. -/
theorem wrapInt_of_mem_typeRange {signed : Bool} {w : Nat} (hw : 0 < w) {z : Int} (hlo : (typeRange signed w).1 ≤ z)
    (hhi : z ≤ (typeRange signed w).2) : wrapInt signed w z = z := by
  have hpos : 0 < 2 ^ (w - 1) := Nat.two_pow_pos _
  have hmod := Nat.two_pow_pred_add_two_pow_pred hw
  cases signed
  · simp only [typeRange, Bool.false_eq_true, if_false] at hlo hhi
    exact Int.emod_eq_of_lt hlo (by omega)
  · simp only [typeRange, if_true] at hlo hhi
    exact Int.bmod_eq_of_le (by omega) (by omega)

theorem typeRange_fst_le_snd (signed : Bool) (w : Nat) : (typeRange signed w).1 ≤ (typeRange signed w).2 := by
  have hpos : 0 < 2 ^ w := Nat.two_pow_pos _
  have hpos' : 0 < 2 ^ (w - 1) := Nat.two_pow_pos _
  cases signed <;> simp only [typeRange, Bool.false_eq_true, if_false, if_true] <;> omega

/-! ### The clamp of .sat -/

theorem clampInt_eq_max_min (signed : Bool) (w : Nat) (r : Int) :
    clampInt signed w r = max (typeRange signed w).1 (min r (typeRange signed w).2) := by
  have hle := typeRange_fst_le_snd signed w
  simp only [clampInt]
  split
  · omega
  · split <;> omega

theorem clampInt_mem_typeRange (signed : Bool) (w : Nat) (r : Int) :
    (typeRange signed w).1 ≤ clampInt signed w r ∧ clampInt signed w r ≤ (typeRange signed w).2 := by
  have hle := typeRange_fst_le_snd signed w
  rw [clampInt_eq_max_min]
  omega

/-! ### Registers of an integer type -/

/-- The widths of the integer types (02 R30). -/
theorem typeBits_of_int {t : Nat} (ht : t ≤ 7) : typeBits t = 8 ∨ typeBits t = 16 ∨ typeBits t = 32 ∨ typeBits t = 64 := by
  have widths : ∀ n < 8, typeBits n = 8 ∨ typeBits n = 16 ∨ typeBits n = 32 ∨ typeBits n = 64 := by decide
  exact widths t (Nat.lt_succ_of_le ht)

theorem typeBits_pos {t : Nat} (ht : t ≤ 7) : 0 < typeBits t := by
  have := typeBits_of_int ht
  omega

/-- A source reads as the representative of the register's bits. -/
theorem intOf_eq_wrapInt {t : Nat} (ht : t ≤ 7) (v : Word64) :
    intOf t v = wrapInt (t % 2 = 1) (typeBits t) v.toNat := by
  have hmod := Nat.two_pow_pred_add_two_pow_pred (typeBits_pos ht)
  simp only [intOf, wrapInt, Int.bmod_def, ← Int.natCast_emod, decide_eq_true_eq]
  split
  · omega
  · split <;> omega

/-- The register holds the result modulo 2^w below bit w: the sign extension of .i8 and .i16 adds a multiple of 2^w. -/
theorem convOutInt_emod {t : Nat} (ht : t ≤ 7) (z : Int) :
    ((convOutInt t z).toNat : Int) % (2 ^ typeBits t : Nat) = z % (2 ^ typeBits t : Nat) := by
  rcases typeBits_of_int ht with hw | hw | hw | hw <;>
  · simp only [convOutInt, hw, apply_ite BitVec.toNat, BitVec.toNat_ofNat]
    split <;> omega

/-- Writing a result and reading it back wraps it. -/
theorem intOf_convOutInt {t : Nat} (ht : t ≤ 7) (z : Int) :
    intOf t (convOutInt t z) = wrapInt (t % 2 = 1) (typeBits t) z := by
  rw [intOf_eq_wrapInt ht]
  exact wrapInt_eq_of_emod_eq (convOutInt_emod ht z)

theorem intOf_intRes_wrap {t : Nat} (ht : t ≤ 7) (r : Int) :
    intOf t (intRes t false r) = wrapInt (t % 2 = 1) (typeBits t) r := intOf_convOutInt ht r

theorem intOf_intRes_sat {t : Nat} (ht : t ≤ 7) (r : Int) :
    intOf t (intRes t true r) = clampInt (t % 2 = 1) (typeBits t) r := by
  obtain ⟨hlo, hhi⟩ := clampInt_mem_typeRange (t % 2 = 1) (typeBits t) r
  exact (intOf_convOutInt ht _).trans (wrapInt_of_mem_typeRange (typeBits_pos ht) hlo hhi)

/-- Settles O2: reading back a result gives its representative in the type's range, and a clamped result lies in that
range already. -/
theorem integerResultWrapsOrClamps : Obligations.IntegerResultWrapsOrClamps := by
  intro t r ht
  simp only [intOf_intRes_wrap ht, intOf_intRes_sat ht]
  obtain ⟨hlo, hhi⟩ := wrapInt_mem_typeRange (t % 2 = 1) (typeBits_pos ht) r
  exact ⟨exists_eq_wrapInt_add_mul _ _ r, hlo, hhi, clampInt_eq_max_min _ _ r⟩

end Sys2Proof.Numbers
end

section
/-!
The conversion instructions (03 R80 to R85) under readiness: what the runner makes of each one's effect.
-/

namespace Sys2Proof.Conversions
open Sys2Proof.Machine

section Lanes
variable {f : WarpWord} {s : State} {c : Ctx}

/-- What CVT leaves of one lane (03 R81). -/
def cvtLane (f : WarpWord) (s : State) (c : Ctx) (i : Nat) : LaneRes :=
  let r := convert (typeCode f) (srcType f) (rndCode f) (ftzBit f) (c.warp.seed i) (opA s c f (typeRegs (srcType f)) i)
  ⟨i, regWrites f.dst.toNat i (tn f) r.1, r.2.1, r.2.2⟩

/-- The element of UNPACK at place j of lane i (03 R83). -/
def unpackAt (f : WarpWord) (s : State) (c : Ctx) (i j : Nat) : Word64 × BitVec 5 :=
  let w := 32 / unpackRegs (typeCode f) (srcType f)
  unpackElem (typeCode f) (srcType f) (BitVec.ofNat 64 (bits (vread s c.g c.w f.a.toNat i).toNat (w * j) w))

/-- What UNPACK leaves of one lane (03 R83). -/
def unpackLane (f : WarpWord) (s : State) (c : Ctx) (i : Nat) : LaneRes :=
  let places := List.range (unpackRegs (typeCode f) (srcType f))
  ⟨i, places.map (fun j => (f.dst.toNat + j, i, (unpackAt f s c i j).1.setWidth 32)),
    places.foldl (fun fl j => fl ||| (unpackAt f s c i j).2) 0, c.warp.seed i⟩

/-- A ready floating instruction writes what its function gives each lane of P. -/
theorem runFlt_ready {op : Op} {fn : Ctx → State → Nat → Word32 → Rounded} (h : Ready op f s c) :
    runFlt op f s fn = .next (clearIssuer (applyLanes (past op f s c) c ((lanesOf c.p).map (fun i =>
      let r := fn c s i (c.warp.seed i)
      ⟨i, regWrites f.dst.toNat i (tn f) (BitVec.ofNat 64 r.code), r.fl, r.st⟩)))) :=
  runWord_done h rfl

/-- CVT passes its value through a natural number and back, which changes nothing. -/
theorem execCvt_ready (h : Ready .cvt f s c) :
    execCvt f s = .next (clearIssuer (applyLanes (past .cvt f s c) c ((lanesOf c.p).map (cvtLane f s c)))) := by
  simp only [execCvt, runFlt_ready h, BitVec.ofNat_toNat, BitVec.setWidth_eq]
  rfl

/-- UNPACK lists its elements with their places first, then writes them and collects their flags. -/
theorem execUnpack_ready (h : Ready .unpack f s c) :
    execUnpack f s = .next (clearIssuer (applyLanes (past .unpack f s c) c ((lanesOf c.p).map (unpackLane f s c)))) := by
  refine (runWord_done h rfl).trans ?_
  simp only [List.map_map, List.foldl_map, Function.comp_def]
  rfl

end Lanes

/-- Settles O7: every conversion's effect completes under the runner. PACK, QBLK and DQBLK are written there as the
statement has them; CVT and UNPACK reach it by their lemmas. -/
theorem conversionResults : Obligations.ConversionResults := by
  intro f s c
  refine ⟨fun h => ?cvt, fun h => ?pack, fun h => ?unpack, fun h => ?qblk, fun h => ?dqblk⟩
  case cvt => exact execCvt_ready h
  case pack =>
    change execPack f s = _
    exact runWord_done h rfl
  case unpack => exact execUnpack_ready h
  case qblk =>
    change execQblk f s = _
    exact runWord_done h rfl
  case dqblk =>
    change execDqblk f s = _
    exact runWord_done h rfl

end Sys2Proof.Conversions
end

section
/-!
The mask, cross-lane and special-register instructions (04 R108 to R114) under readiness.
-/

namespace Sys2Proof.WarpRegisters
open Sys2Proof.Machine

/-- A modifier field of one bit is that bit. -/
theorem modBits_one_eq_one (f : WarpWord) (k : Nat) : modBits f k 1 = 1 ↔ f.mod.getLsbD k = true := by
  simp [modBits, BitVec.getLsbD, Nat.testBit_eq_decide_div_mod_eq]

theorem lanesOf_eq_nil {m : Lanes} : lanesOf m = [] ↔ m = 0 := by
  simp only [lanesOf, List.filter_eq_nil_iff, List.mem_range]
  constructor
  · intro h
    exact BitVec.eq_of_getLsbD_eq fun i hi => by simpa using h i hi
  · rintro rfl
    simp

theorem lowest_zero : lowest 0 = none := by rw [lowest, lanesOf_eq_nil.mpr rfl, List.head?_nil]

/-- Settles O9: every mask instruction's effect completes under the runner; MSK.SAVE's choice of a mask is read off its
field's three cases. -/
theorem maskResults : Obligations.MaskResults := by
  intro f s c
  refine ⟨fun h => ?ballot, fun h => ?vote, fun h => ?leader, fun h => ?mskOp, fun h => ?mskSave, fun h => ?mskWset,
    fun h => ?popcM, fun h => ?firstM⟩
  case ballot => exact (runWord_done h rfl : execBallot f s = _)
  case vote => exact (runWord_done h rfl : execVote f s = _)
  case leader => exact (runWord_done h rfl : execLeader f s = _)
  case mskOp => exact (runWord_done h rfl : execMskOp f s = _)
  case mskSave =>
    refine (runWord_done h rfl : execMskSave f s = _).trans ?_
    match modBits f 0 2 with
    | 0 => rfl
    | 1 => rfl
    | _ + 2 => rfl
  case mskWset => exact (runWord_done h rfl : execMskWset f s = _)
  case popcM => exact (runWord_done h rfl : execPopcM f s = _)
  case firstM => exact (runWord_done h rfl : execFirstM f s = _)

/-- Settles O10: the effects of SHFL, BCAST and LSCAN read the bits 5, 0 and 9 of the modifiers as fields of one bit. -/
theorem crossLaneResults : Obligations.CrossLaneResults := by
  intro f s c
  refine ⟨fun h => ?shfl, fun h => ?bcast, fun h => ?lscan, fun h => ?lred⟩
  case shfl =>
    refine (runWord_done h rfl : execShfl f s = _).trans ?_
    simp only [modBits_one_eq_one, Bool.decide_eq_true]
  case bcast =>
    refine (runWord_done h rfl : execBcast f s = _).trans ?_
    simp only [modBits_one_eq_one]
  case lscan =>
    refine (runWord_done h rfl : execLscan f s = _).trans ?_
    simp only [modBits_one_eq_one]
  case lred => exact (runWord_done h rfl : execLred f s = _)

/-- Settles O13: GETSR by its destination's form; SETSR by the lowest lane of P, none where P is empty, and by its
register's code, of which 0x08, 0x16 and 0x17 are the ones that may be written. -/
theorem specialRegisterResults : Obligations.SpecialRegisterResults := by
  intro f s c
  refine ⟨fun h hm => ?scalar, fun h hm => ?lanes, fun h hp => ?noLane, fun low hlow =>
    ⟨fun h hc => ?wmask, fun h hc => ?fpstat, fun h hc => ?seed⟩⟩
  case scalar =>
    change execGetsr f s = _
    refine runWord_done h ?_
    rw [if_pos ((modBits_one_eq_one f 0).mpr hm)]
  case lanes =>
    change execGetsr f s = _
    refine runWord_done h ?_
    simp only [modBits_one_eq_one, hm, Bool.false_eq_true, if_false]
  case noLane =>
    change execSetsr f s = _
    refine runWord_done h ?_
    simp only [hp, lowest_zero]
  case wmask =>
    change execSetsr f s = _
    refine runWord_done h ?_
    simp only [hlow, hc, wsetMask]
  case fpstat =>
    change execSetsr f s = _
    refine runWord_done h ?_
    simp only [hlow, hc]
  case seed =>
    change execSetsr f s = _
    refine runWord_done h ?_
    simp only [hlow, hc, seedValue]

end Sys2Proof.WarpRegisters
end

section
/-!
The control instructions (04 R94 to R107) under readiness, and the traps of an instruction's own conditions (14 R325).
-/

namespace Sys2Proof.WarpControl
open Sys2Proof.Machine Sys2Proof.WarpRegisters

/-! ### Addresses, lists of addresses, and tables -/

theorem badPc_eq_false {t : Word64} (h : t.toNat % 8 = 0) : badPc t = false := by simp [badPc, h]

theorem badPc_eq_true {t : Word64} (h : t.toNat % 8 ≠ 0) : badPc t = true := by simp [badPc, h]

/-- Lanes whose addresses are all aligned hold none that is misaligned. -/
theorem filter_badPc_eq_nil {ls : List Nat} {adr : Nat → Word64} (h : ∀ i ∈ ls, (adr i).toNat % 8 = 0) :
    ls.filter (fun i => badPc (adr i)) = [] :=
  List.filter_eq_nil_iff.mpr fun i hi => by simp [badPc_eq_false (h i hi)]

/-- A non-empty list of one value alone holds, without duplicates, that value once. -/
theorem nub_eq_singleton {α : Type} [DecidableEq α] {l : List α} {a : α} (hne : l ≠ []) (h : ∀ x ∈ l, x = a) :
    nub l = [a] := by
  obtain ⟨x, t, rfl⟩ := List.exists_cons_of_ne_nil hne
  obtain ⟨rfl, ht⟩ := List.forall_mem_cons.mp h
  have hkeep : t.foldl (fun acc y => if acc.contains y then acc else acc ++ [y]) [x] = [x] :=
    List.foldlRecOn (motive := fun acc => acc = [x]) t _ rfl fun acc hacc y hy => by simp [hacc, ht y hy]
  exact hkeep

/-- What a table answers stands in it. -/
theorem mem_of_mget_eq_some {α : Type} {m : SMap α} {k : Nat} {v : α} (h : mget m k = some v) : (k, v) ∈ m := by
  induction m with
  | nil => simp [mget] at h
  | cons p t ih =>
    obtain ⟨j, x⟩ := p
    simp only [mget] at h
    split at h
    · next hk => cases h; simp [hk]
    · exact List.mem_cons_of_mem _ (ih h)

/-! ### Transfers of control -/

section Transfers
variable {f : WarpWord} {s : State} {c : Ctx}

theorem execBra_taken (h : Ready .bra f s c) (hp : f.guard = 0 ∨ c.p ≠ 0) (ht : (branchTarget c f).toNat % 8 = 0) :
    execBra f s = .next (clearIssuer (setPc (past .bra f s c) c.g c.w c.e (branchTarget c f))) := by
  refine runWord_done h ?_
  simp only [if_pos hp, badPc_eq_false ht, Bool.false_eq_true, if_false]

theorem execBra_misaligned (h : Ready .bra f s c) (hp : f.guard = 0 ∨ c.p ≠ 0) (ht : (branchTarget c f).toNat % 8 ≠ 0) :
    execBra f s = takeTrap s (trapTarget (branchTarget c f)) (siteOf s c (encodeWord .bra f) (some .bra) f true) := by
  refine runWord_trap h ?_
  simp only [if_pos hp, badPc_eq_true ht, if_true]

theorem execBra_notTaken (h : Ready .bra f s c) (hg : f.guard ≠ 0) (hp : c.p = 0) :
    execBra f s = .next (clearIssuer (past .bra f s c)) := by
  refine runWord_done h ?_
  rw [if_neg fun hor => hor.elim hg (absurd hp)]

/-- A RET whose lanes hold one aligned address goes there (04 R105). -/
theorem execRet_one {a : Word64} (h : Ready .ret f s c) (ha : a.toNat % 8 = 0) (hf : c.frag ≠ 0)
    (hall : ∀ i ∈ lanesOf c.frag, vread64 s c.g c.w f.a.toNat i 2 = a) :
    execRet f s = .next (clearIssuer (setPc (past .ret f s c) c.g c.w c.e a)) := by
  refine runWord_done h ?_
  have hal := filter_badPc_eq_nil (adr := fun i => vread64 s c.g c.w f.a.toNat i 2) fun i hi => by rw [hall i hi, ha]
  have hn : nub ((lanesOf c.frag).map (fun i => vread64 s c.g c.w f.a.toNat i 2)) = [a] :=
    nub_eq_singleton (by simpa [lanesOf_eq_nil] using hf) (by simpa using hall)
  simp only [hal, hn, List.isEmpty_nil, if_true]

end Transfers

/-- Settles O11: each transfer by its branch; a RET of several addresses has none misaligned, and splits outside trap
level 1. -/
theorem controlResults : Obligations.ControlResults := by
  intro f s c
  refine ⟨fun h => ?nop, fun h hp ht => execBra_taken h hp ht, fun h hg hp => execBra_notTaken h hg hp, fun h ht => ?call,
    fun a ha hf hall h => execRet_one h ha hf hall, fun first others hal hn ho hb h => ?several, fun h => ?yield,
    fun h hn => ?sleepNone, fun h hn => ?sleepSome, fun fr hfr hr h => ?join⟩
  case nop => exact (runWord_done h rfl : execNop f s = _)
  case call =>
    change execCall f s = _
    refine runWord_done h ?_
    simp only [badPc_eq_false ht, Bool.false_eq_true, if_false]
  case several =>
    change execRet f s = _
    refine runWord_done h ?_
    have hal' := filter_badPc_eq_nil hal
    simp only [hal', hn, List.isEmpty_eq_false_iff.mpr ho, hb, Option.isSome_none, Bool.false_eq_true, if_false]
  case yield => exact (runWord_done h rfl : execYield f s = _)
  case sleepNone =>
    change execSleep f s = _
    exact runWord_done h (if_pos hn)
  case sleepSome =>
    change execSleep f s = _
    exact runWord_done h (if_neg hn)
  case join =>
    change execJoin f s = _
    refine runWord_done h ?_
    simp only [hfr, if_neg hr]

/-! ### Divergence and its end -/

section Divergence
variable {f : WarpWord} {s : State} {c : Ctx} {fr : Frag}

/-- Does a BRX split its fragment to meet at a new address, at the greatest depth already (04 R94)? -/
def brxTooDeep (s : State) (c : Ctx) (f : WarpWord) (fr : Frag) : Prop :=
  brxTaken s c f ≠ 0 ∧ fr.mask &&& ~~~brxTaken s c f ≠ 0 ∧ fr.rca ≠ c.pc + disp f 32 ∧ fr.depth = 31

/-- The model's test of the depth. -/
theorem brxTooDeep_iff : (brxTaken s c f ≠ 0 && fr.mask &&& ~~~brxTaken s c f ≠ 0 && fr.rca ≠ c.pc + disp f 32 &&
    fr.depth = 31) = true ↔ brxTooDeep s c f fr := by
  simp [brxTooDeep, and_assoc]

/-- What a BRX with legal addresses leaves of the state t past it, by the lanes T that take it (04 R94, R103). -/
def brxSplit (f : WarpWord) (c : Ctx) (fr : Frag) (T : Lanes) (t : State) : State :=
  let tgt := c.pc + disp f 0
  let J := c.pc + disp f 32
  if T = 0 then t
  else if fr.mask &&& ~~~T = 0 then setPc t c.g c.w c.e tgt
  else if fr.rca = J then refuse (modWarp t c.g c.w (fun x => splitFrag x c.e T tgt J fr.depth 0)) c.g c.w
  else refuse (modWarp t c.g c.w (fun x => splitFrag (x.setSreg f.dst.toNat fr.rca) c.e T tgt J (fr.depth + 1) 0)) c.g c.w

/-- A BRX past its depth test whose addresses are legal splits its fragment. -/
theorem execBrx_split (h : Ready .brx f s c) (hfr : mget c.warp.frags c.e = some fr) (hd : ¬ brxTooDeep s c f fr)
    (ht : (c.pc + disp f 0).toNat % 8 = 0) (hJ : (c.pc + disp f 32).toNat % 8 = 0) (hJ0 : c.pc + disp f 32 ≠ 0) :
    execBrx f s = .next (clearIssuer (brxSplit f c fr (brxTaken s c f) (past .brx f s c))) := by
  refine runWord_done h ?_
  simp only [hfr]
  rw [if_neg (mt brxTooDeep_iff.mp hd), badPc_eq_false ht, badPc_eq_false hJ]
  simp only [brxSplit, hJ0, decide_false, Bool.or_false, Bool.false_eq_true, if_false, apply_ite Res.done]

end Divergence

/-- Settles O12: a BRX by the lanes that take it, its depth test out of the way in each case; JOIN and EXIT by the
fragment's entry and by what is left of it. -/
theorem divergenceResults : Obligations.DivergenceResults := by
  intro f s c fr hfr T N tgt J left ht hJ hJ0
  refine ⟨fun h hT => ?none, fun h hT hN => ?all, fun h hT hN hr => ?same, fun h hT hN hr hd => ?new, fun h hr => ?join,
    fun h hl => ?some, fun h hl hq => ?frag, fun h hl hq hx hb => ?warp⟩
  case none =>
    have hd : ¬ brxTooDeep s c f fr := fun ⟨hT', _⟩ => hT' hT
    exact (execBrx_split h hfr hd ht hJ hJ0).trans (by rw [brxSplit, if_pos hT])
  case all =>
    have hd : ¬ brxTooDeep s c f fr := fun ⟨_, hN', _⟩ => hN' hN
    exact (execBrx_split h hfr hd ht hJ hJ0).trans (by rw [brxSplit, if_neg hT, if_pos hN])
  case same =>
    have hd : ¬ brxTooDeep s c f fr := fun ⟨_, _, hr', _⟩ => hr' hr
    exact (execBrx_split h hfr hd ht hJ hJ0).trans (by rw [brxSplit, if_neg hT, if_neg hN, if_pos hr])
  case new =>
    have hd : ¬ brxTooDeep s c f fr := fun ⟨_, _, _, hd'⟩ => hd hd'
    exact (execBrx_split h hfr hd ht hJ hJ0).trans (by rw [brxSplit, if_neg hT, if_neg hN, if_neg hr])
  case join =>
    change execJoin f s = _
    refine runWord_done h ?_
    simp only [hfr, if_pos hr]
  case some =>
    change execExit f s = _
    refine runWord_done h ?_
    simp only [hfr]
    exact if_neg hl
  case frag =>
    change execExit f s = _
    refine runWord_done h ?_
    obtain ⟨e, he, hsome⟩ := hq
    obtain ⟨q, hq⟩ := Option.isSome_iff_exists.mp hsome
    have hrest : ((c.warp.frags.filter (fun q => q.1 ≠ c.e)).isEmpty) = false :=
      List.isEmpty_eq_false_iff.mpr (List.ne_nil_of_mem (List.mem_filter.mpr ⟨mem_of_mget_eq_some hq, by simpa using he⟩))
    simp only [hfr]
    rw [if_pos hl, hrest]
    exact if_neg Bool.false_ne_true
  case warp =>
    change execExit f s = _
    refine runWord_done h ?_
    have hrest : ((c.warp.frags.filter (fun q => q.1 ≠ c.e)).isEmpty) = true := by simpa using hq
    simp only [hfr]
    rw [if_pos hl, if_pos hrest, if_neg (by simpa [hx] using hb)]

/-! ### Conditions of execution -/

section Conditions
variable {f : WarpWord} {s : State} {c : Ctx} {fr : Frag}

theorem execBrx_tooDeep (h : Ready .brx f s c) (hfr : mget c.warp.frags c.e = some fr) (hd : brxTooDeep s c f fr) :
    execBrx f s = takeTrap s trapOperand (siteOf s c (encodeWord .brx f) (some .brx) f true) := by
  refine runWord_trap h ?_
  simp only [hfr]
  exact if_pos (brxTooDeep_iff.mpr hd)

theorem execBrx_misalignedTarget (h : Ready .brx f s c) (hfr : mget c.warp.frags c.e = some fr) (hd : ¬ brxTooDeep s c f fr)
    (ht : (c.pc + disp f 0).toNat % 8 ≠ 0) : execBrx f s = takeTrap s (trapTarget (c.pc + disp f 0))
      (siteOf s c (encodeWord .brx f) (some .brx) f true) := by
  refine runWord_trap h ?_
  simp only [hfr]
  rw [if_neg (mt brxTooDeep_iff.mp hd), if_pos (badPc_eq_true ht)]

theorem execBrx_badMeeting (h : Ready .brx f s c) (hfr : mget c.warp.frags c.e = some fr) (hd : ¬ brxTooDeep s c f fr)
    (ht : (c.pc + disp f 0).toNat % 8 = 0) (hJ : (c.pc + disp f 32).toNat % 8 ≠ 0 ∨ c.pc + disp f 32 = 0) :
    execBrx f s = takeTrap s (trapTarget (c.pc + disp f 32)) (siteOf s c (encodeWord .brx f) (some .brx) f true) := by
  refine runWord_trap h ?_
  simp only [hfr]
  rw [if_neg (mt brxTooDeep_iff.mp hd), badPc_eq_false ht, if_neg Bool.false_ne_true,
    if_pos (by simpa [badPc] using hJ)]

/-- A barrier instruction in its turn that meets a condition of execution (08 R228). -/
theorem runBar_trap {op : Op} {eff : Ctx → State → State → Res} {tr : Trap} (h : Ready op f s c)
    (hturn : barTurn s c.g c.w = true) (he : eff c s (barPlace (past op f s c) c.g c.w) = .trap tr) :
    runBar op f s eff = takeTrap s tr (siteOf s c (encodeWord op f) (some op) f true) :=
  runWord_trap h (by rw [if_pos hturn, he])

/-- A notify register that the region's NTFMASK does not name (13 R316). -/
theorem notifyTrap_eq_some {j : Nat} (h : (ntfMaskOf s c.wg.rnum).testBit j = false) :
    notifyTrap s c j = some { cause := 3, sub := 5, aux := j } := by
  rw [notifyTrap, h, if_neg Bool.false_ne_true]

end Conditions

/-- Settles O35: each condition is the one that its instruction's effect meets first. -/
theorem conditionTraps : Obligations.ConditionTraps := by
  intro f s c
  refine ⟨fun h hp ht => execBra_misaligned h hp ht, fun h ht => ?call, fun fr hfr hT hN hr hd h => ?deep,
    fun fr hfr hd h => ⟨fun ht => execBrx_misalignedTarget h hfr hd ht, fun ht hJ => execBrx_badMeeting h hfr hd ht hJ⟩,
    fun b bs hb h => ?ret, fun h hturn hb => ?barInit, fun h hturn hb => ?barArrive, fun h hturn hb => ?barSync,
    fun h hn => ?tlwait, fun h hj => ?ntfPost, fun h hj => ?ntfWait, fun h hl => ?lwLanes, fun h hfr hm ht => ?lwTarget,
    fun h hp => ?twSig, fun h hp => ?twWait, fun h hg => ?anvMma⟩
  case call =>
    change execCall f s = _
    exact runWord_trap h (if_pos (badPc_eq_true ht))
  case deep => exact execBrx_tooDeep h hfr ⟨hT, hN, hr, hd⟩
  case ret =>
    change execRet f s = _
    refine runWord_trap h ?_
    have hb' : (lanesOf c.frag).filter (fun i => badPc (vread64 s c.g c.w f.a.toNat i 2)) = b :: bs := hb
    simp only [hb']
  case barInit =>
    change execBarInit f s = _
    exact runBar_trap h hturn (if_pos hb)
  case barArrive =>
    change execBarArrive f s = _
    exact runBar_trap h hturn (if_pos ((Bool.not_eq_true' _).mpr hb))
  case barSync =>
    change execBarSync f s = _
    exact runBar_trap h hturn (if_pos ((Bool.not_eq_true' _).mpr hb))
  case tlwait =>
    change execTlwait f s = _
    refine runWord_trap h (if_pos ?_)
    simpa only [timelineOf, modBits_one_eq_one, decide_eq_true_eq] using hn
  case ntfPost =>
    change execNtfPost f s = _
    refine runWord_trap h ?_
    simp only [notifyTrap_eq_some hj]
  case ntfWait =>
    change execNtfWait f s = _
    refine runWord_trap h ?_
    simp only [notifyTrap_eq_some hj]
  case lwLanes =>
    change execModeLw f s = _
    exact runWord_trap h (if_pos hl)
  case lwTarget =>
    change execModeLw f s = _
    refine runWord_trap h ?_
    rw [if_neg (by simp [hfr, hm]), if_pos ht]
    rfl
  case twSig =>
    change execTwSig f s = _
    exact runWord_trap h (if_pos ((Bool.not_eq_true' _).mpr hp))
  case twWait =>
    change execTwWait f s = _
    exact runWord_trap h (if_pos ((Bool.not_eq_true' _).mpr hp))
  case anvMma =>
    change execAnvMma f s = _
    exact runWord_trap h (if_pos ((Bool.not_eq_true' _).mpr hg))

end Sys2Proof.WarpControl
end

section
/-!
The entry of a trap that nothing delays (14 R327, R328): the warp's state that it ends in.
-/

namespace Sys2Proof.TrapEntry
open Sys2Proof.Machine

variable {x : Warp} {clock : Nat} {handler : Word64} {frame : Nat} {t : Trap} {a : Site}

/-! ### The registers of the handler's state (14 R328) -/

theorem enterHandler_bank : ∃ b, (enterHandler x clock handler frame t a).bank = some b ∧ b.pc = handler ∧
    b.wmask = 0xFFFFFFFF ∧ b.entry = a.entry ∧ b.wait = none := ⟨_, rfl, rfl, rfl, rfl, rfl⟩

/-- What a table whose unlisted keys read a default answers after a write. -/
theorem mgetD_mput {α : Type} [DecidableEq α] (m : SMap α) (k l : Nat) (v d : α) :
    mgetD (mput m k v d) l d = if l = k then v else mgetD m l d := by
  split
  · next hl => subst hl; exact mgetD_mput_same m l v d
  · next hl => exact mgetD_mput_ne m v d d hl

/-- The s-registers banked at trap level 1. -/
theorem enterHandler_sreg_banked {n : Nat} (h : 56 ≤ n) : (enterHandler x clock handler frame t a).sreg n =
    if n = 63 then BitVec.ofNat 64 (frame + 4096) else if n = 58 then a.pc else if n = 57 then BitVec.ofNat 64 t.word
      else if n = 56 then BitVec.ofNat 64 frame else 0 := by
  have h0 : n ≠ 0 := by omega
  simp only [enterHandler, Warp.sreg, if_neg h0, if_pos h, mgetD_mput]
  rfl

theorem enterHandler_sreg_of_lt {n : Nat} (h : n < 56) : (enterHandler x clock handler frame t a).sreg n = x.sreg n := by
  have hn : ¬ 56 ≤ n := by omega
  cases hb : x.bank <;> simp [enterHandler, Warp.sreg, hn, hb]

theorem enterHandler_vreg_of_lt {n : Nat} (i : Nat) (h : n < 232) :
    (enterHandler x clock handler frame t a).vreg n i = x.vreg n i := by
  have hn : ¬ 232 ≤ n := by omega
  cases hb : x.bank <;> simp [enterHandler, Warp.vreg, hn, hb]

theorem enterHandler_vreg_banked {n : Nat} (i : Nat) (h : 232 ≤ n) : (enterHandler x clock handler frame t a).vreg n i = 0 := by
  simp only [enterHandler, Warp.vreg, if_pos h]
  rfl

/-! ### The entry -/

section Entry
variable {s u : State} {y : Wg} {p0 p : Warp} {key : Nat}

/-- State v with warp a.w, which its accesses have left as p, in the handler of the trap t (14 R328). -/
def inHandler (s : State) (t : Trap) (a : Site) (y : Wg) (p0 p : Warp) (v : State) : State :=
  let s2 := entryState s t a y p0
  clearIssuer (setWarp v a.g a.w
    (enterHandler p v.clock (BitVec.ofNat 64 (ctxBits s2 y.asid 128 64)) (frameAddr s2 y a.w) t a))

/-- A trap that nothing delays ends in the handler's state of the warp as its accesses have left it. -/
theorem takeTrap_ready (h : TrapReady s t a y p0 p u key) : ∃ v, takeTrap s t a = .next (inHandler s t a y p0 p v) := by
  obtain ⟨hwg, hwarp, hbank, hctx, ⟨m, hx⟩, hclean, hlamp, hgone, hdrains, hp⟩ := h
  simp only [entryState] at hctx hx
  have hpoison : ((List.range 64).any (fun i => poisonedAt u (key + 64 * i) 64)) = false := by
    simpa [List.any_eq_false] using hclean
  refine ⟨writeFrame (touchFrame (drainWarp (modWarp u a.g a.w landFlights) a.g a.w) a key) y.core key (frameFields p t a), ?_⟩
  unfold takeTrap
  simp only [hwg, hwarp, hbank, Option.isSome_none, Bool.false_eq_true, if_false, hctx, hx, hpoison, hlamp, hgone, hdrains,
    Bool.not_true, hp, entryState, inHandler]

/-- The handler's state is the one that TrapEntered describes. -/
theorem trapEntered_inHandler (v : State) : TrapEntered s t a y p0 p (inHandler s t a y p0 p v) := by
  obtain ⟨b, hb, hpc, hmask, hentry, hwait⟩ := enterHandler_bank
  refine ⟨rfl, _, b, mget_mset_same .., hb, hpc, hmask, hentry, hwait, ?s56, ?s57, ?s58, ?s63, ?zero, ?vecs, ?low, ?lowVecs,
    fun _ => rfl, rfl, rfl, rfl, rfl, fun _ => ⟨rfl, rfl⟩⟩
  case zero =>
    intro n hlo hhi
    rw [enterHandler_sreg_banked (by omega), if_neg (by omega), if_neg (by omega), if_neg (by omega), if_neg (by omega)]
  case vecs => exact fun n i hlo _ _ => enterHandler_vreg_banked i hlo
  case low => exact fun n hn => enterHandler_sreg_of_lt hn
  case lowVecs => exact fun n i hn _ => enterHandler_vreg_of_lt i hn
  all_goals exact enterHandler_sreg_banked (by omega)

/-- A trap that nothing delays is taken. -/
theorem takeTrap_entered (h : TrapReady s t a y p0 p u key) :
    ∃ v, takeTrap s t a = .next v ∧ TrapEntered s t a y p0 p v := by
  obtain ⟨v, hv⟩ := takeTrap_ready h
  exact ⟨_, hv, trapEntered_inHandler v⟩

end Entry

end Sys2Proof.TrapEntry
end

section
/-!
Long-word mode (04 R115, 06 R141, R144, R149, R160, R163): entering, the events of a thread, and leaving.
-/

namespace Sys2Proof.LongWordMode
open Sys2Proof.Machine

/-! ### Entering and leaving -/

section ModeLw
variable {f : WarpWord} {s : State} {c : Ctx}

/-- A MODE.LW of a whole warp to an aligned target enters, or is BLOCKED where its core has no room or another waits. -/
theorem execModeLw_whole (h : Ready .modeLw f s c) (hf : c.frag = 0xFFFFFFFF) (hm : c.warp.mask = 0xFFFFFFFF)
    (ht : (c.pc + sB c .modeLw f).toNat % 128 = 0) : execModeLw f s = .next (clearIssuer (
      if 2 ≤ lwCount s c.wg.core ∨ lwWaiters s c.wg.core ≠ []
        then blockFrag (past .modeLw f s c) c.g c.w c.e (.modeLw s.clock (c.pc + sB c .modeLw f))
        else enterLw (past .modeLw f s c) c.g c.w (c.pc + sB c .modeLw f))) := by
  refine runWord_done h ?_
  have hwait : (decide (2 ≤ lwCount s c.wg.core) || !(lwWaiters s c.wg.core).isEmpty) = true ↔
      (2 ≤ lwCount s c.wg.core ∨ lwWaiters s c.wg.core ≠ []) := by simp
  rw [if_neg (by simp [hf, hm]), if_neg (Decidable.not_not.mpr ht), apply_ite Res.done]
  simp only [hwait]

end ModeLw

/-- A core with room and a waiting MODE.LW lets the one proceed that has waited longest (06 R141). -/
theorem unblockLw_of_room {s : State} {core : Nat} {q : Nat × Nat × Nat × Word64} (hroom : lwCount s core < 2)
    (hq : leastBy (fun q => [q.2.1, q.2.2.1]) lexLt (lwWaiters s core) = some q) :
    unblockLw s core = enterLw s (q.1 / 16) (q.1 % 16) q.2.2.2 := by
  simp only [unblockLw, if_neg (Nat.not_le.mpr hroom), hq]

/-! ### The watchdog (06 R163) -/

section Watchdog
variable {s u : State} {g w v : Nat} {d : LwCtx}

/-- The watchdog's trap. -/
def watchdogTrap : Trap := { cause := 0x0A, origin := 5, flanes := some 0 }

/-- A thread's context names the issuer's workgroup and warp. -/
theorem lwCtxOf_names {i : Issuer} (h : lwCtxOf s i = some d) : d.g = i.g ∧ d.w = i.w := by
  unfold lwCtxOf at h
  split at h
  · split at h
    · split at h
      · cases h; exact ⟨rfl, rfl⟩
      · cases h
    · cases h
  · cases h

/-- A thread without late and engine faults whose count has passed SPBOUND meets the watchdog's trap. -/
theorem lwPending_watchdog (waits : Nat → Bool) (hb : spBoundOf s d.wg.rnum < d.lw.count s.clock) (hl : d.warp.late = [])
    (he : d.warp.engine = []) : lwPending s d waits = some watchdogTrap := by
  have hnone : pendingTrap d.warp waits = none := by simp [pendingTrap, pendingLate, hl, he]
  simp only [lwPending, hnone]
  exact if_pos hb

theorem execSafePointWatchdog_due (hd : lwCtxOf s ⟨g, w, 0⟩ = some d) (hb : spBoundOf s d.wg.rnum < d.lw.count s.clock)
    (hl : d.warp.late = []) (he : d.warp.engine = []) (hf : fetchBundle s d.wg (warpKey g w) d.lw.pc.toNat = .ok v u) :
    execSafePointWatchdog g w s = takeTrap u watchdogTrap (lwSite d v false) := by
  obtain ⟨hg, hw⟩ := lwCtxOf_names hd
  have hfetch : fetchBundle s d.wg (warpKey d.g d.w) d.lw.pc.toNat = .ok v u := by rw [hg, hw, hf]
  simp only [execSafePointWatchdog, hd, if_pos hb, lwBoundary, lwPending_watchdog _ hb hl he, Option.map_some, hfetch,
    Option.getD_some]

end Watchdog

/-- Settles O36: MODE.LW by the room of its core, each event of a thread by its condition, and the watchdog by the trap
that it takes, whose entry is that of any trap. -/
theorem longWordModeResults : Obligations.LongWordModeResults := by
  intro f s c id g w core
  refine ⟨fun hf hm ht hroom hnone h => ?enter, fun hf hm ht hwait h => ?wait, fun q hroom hq => ?unblock,
    fun x l hx hl hdue => ?land, fun l hl hdark hgone => ?load, fun e he hready => ?store,
    fun x l hx hl hdrain htok hpend hbank => ?drained, fun d t hd hb hlate hengine hfetch v u hv => ?watchdog⟩
  case enter =>
    refine (execModeLw_whole h hf hm ht).trans ?_
    rw [if_neg (not_or.mpr ⟨Nat.not_le.mpr hroom, fun hne => hne hnone⟩)]
  case wait =>
    refine (execModeLw_whole h hf hm ht).trans ?_
    rw [if_pos hwait]
  case unblock => exact congrArg Host.Outcome.next (unblockLw_of_room hroom hq)
  case land =>
    change execResultLanding g w s = _
    have hsome : (l.flights.filter (fun f => f.slot ≤ l.slot)).isEmpty = false := by simpa using hdue
    simp [execResultLanding, hx, hl, hsome]
  case load =>
    change execLwLdComplete id s = _
    simp [execLwLdComplete, hl, hdark, hgone]
  case store =>
    change execLwStComplete id s = _
    rw [execLwStComplete, he]
    exact if_pos hready
  case drained =>
    change execModeSimtDrainDone g w s = _
    simp [execModeSimtDrainDone, hx, hl, hdrain, htok, hpend, hbank]
  case watchdog =>
    have hexec : exec (.safePointWatchdog g w) s = takeTrap u watchdogTrap (lwSite d v false) :=
      execSafePointWatchdog_due hd hb hlate hengine (hfetch.trans hv)
    refine ⟨hexec, fun y p0 p r key hready => ?_⟩
    rw [hexec]
    exact TrapEntry.takeTrap_entered hready

end Sys2Proof.LongWordMode
end

section
/-!
The integer-vector class (05 R117 to R123) under readiness: what each lane of P receives.
-/

namespace Sys2Proof.IntegerVector
open Sys2Proof.Machine

section Runner
variable {f : WarpWord} {s : State} {c : Ctx} {op : Op}

/-- A ready integer-vector instruction writes its function's value in each lane of P. -/
theorem runInt_ready {k : Nat} {val : Ctx → State → Nat → Word64} (h : Ready op f s c) :
    runInt op f s k val = .next (clearIssuer (vecWrite (past op f s c) c f k (val c s))) :=
  runWord_done h rfl

/-- A ready two-source instruction combines a and b, read by its type. -/
theorem runInt2_ready {val : Word64 → Word64 → Word64} (h : Ready op f s c) :
    runInt2 op f s val = .next (clearIssuer (vecWrite (past op f s c) c f (tn f)
      (fun i => val (opA s c f (tn f) i) (opB s c op f (tn f) i)))) :=
  runInt_ready h

end Runner

/-- Settles O1: each instruction is the runner of its class with its own function, whose exact result is the statement's. -/
theorem integerArithmeticResults : Obligations.IntegerArithmeticResults := by
  intro f s c
  refine ⟨fun h => ?iadd, fun h => ?isub, fun h => ?imul, fun h => ?imulh, fun h => ?imad, fun h => ?imin, fun h => ?imax,
    fun h => ?iabsd⟩
  case iadd => exact (runInt2_ready h : execIadd f s = _)
  case isub => exact (runInt2_ready h : execIsub f s = _)
  case imul => exact (runInt2_ready h : execImul f s = _)
  case imulh => exact (runInt2_ready h : execImulh f s = _)
  case imad => exact (runInt_ready h : execImad f s = _)
  case imin => exact (runInt2_ready h : execImin f s = _)
  case imax => exact (runInt2_ready h : execImax f s = _)
  case iabsd => exact (runInt2_ready h : execIabsd f s = _)

/-- Settles O3: a shift's count is the one that its function takes of b, modulo the width or clamped to it. -/
theorem integerBitResults : Obligations.IntegerBitResults := by
  intro f s c
  refine ⟨fun h => ?ishl, fun h => ?ishr, fun h => ?ishra, fun h => ?fshf, fun h => ?bool3, fun h => ?bfx, fun h => ?bfi,
    fun h => ?clz, fun h => ?popc, fun h => ?brev⟩
  case ishl => exact (runInt_ready h : execIshl f s = _)
  case ishr => exact (runInt_ready h : execIshr f s = _)
  case ishra => exact (runInt_ready h : execIshra f s = _)
  case fshf => exact (runInt_ready h : execFshf f s = _)
  case bool3 => exact (runInt_ready h : execBool3 f s = _)
  case bfx => exact (runInt_ready h : execBfx f s = _)
  case bfi => exact (runInt_ready h : execBfi f s = _)
  case clz => exact (runInt_ready h : execClz f s = _)
  case popc => exact (runInt_ready h : execPopc f s = _)
  case brev => exact (runInt_ready h : execBrev f s = _)

/-! ### Comparisons and the carry chain -/

/-- A comparison under .m changes the bits of P in its mask register (05 R122). -/
theorem writeCompare_mask (t : State) (c : Ctx) (f : WarpWord) (out : Nat → Bool) :
    writeCompare t c f true out = mwrite t c.g c.w f.dst.toNat (maskBits (c.warp.mreg f.dst.toNat) c.p out) := rfl

/-- A comparison without .m writes all ones or zero (05 R122). -/
theorem writeCompare_vec (t : State) (c : Ctx) (f : WarpWord) (out : Nat → Bool) :
    writeCompare t c f false out = vecWrite t c f 1 (fun i => if out i then 0xFFFFFFFF else 0) := rfl

/-- The sum that a register of 32 bits holds is the sum modulo 2^32. -/
theorem addCarry_sum (a b : Word32) (cin : Bool) :
    (addCarry a b cin).1.setWidth 64 = BitVec.ofNat 64 ((a.toNat + b.toNat + if cin then 1 else 0) % 2 ^ 32) := by
  simp only [addCarry, ← BitVec.ofNat_toNat, BitVec.toNat_ofNat]

/-- The carry out is bit 32 of the sum. -/
theorem addCarry_carry (a b : Word32) (cin : Bool) :
    (addCarry a b cin).2 = decide (2 ^ 32 ≤ a.toNat + b.toNat + if cin then 1 else 0) := rfl

/-- Settles O4: ICMP writes by the form of its destination; IADDC's register and carry are the low 32 bits of the sum
and bit 32. -/
theorem integerMoveSelectResults : Obligations.IntegerMoveSelectResults := by
  intro f s c
  refine ⟨fun h => ?mov, fun h => ?movi, fun h hm => ?icmp, fun h hm => ?icmpMask, fun h => ?sel, fun h => ?iaddc,
    fun h => ?idp4, fun h => ?bysel⟩
  case mov => exact (runInt_ready h : execMov f s = _)
  case movi => exact (runInt_ready h : execMovi f s = _)
  case icmp =>
    refine (runWord_done h rfl : execIcmp f s = _).trans ?_
    rw [hm, writeCompare_vec]
  case icmpMask =>
    refine (runWord_done h rfl : execIcmp f s = _).trans ?_
    rw [hm, writeCompare_mask]
  case sel => exact (runInt_ready h : execSel f s = _)
  case iaddc =>
    refine (runWord_done h rfl : execIaddc f s = _).trans ?_
    simp only [addCarry_sum, addCarry_carry, WarpRegisters.modBits_one_eq_one]
  case idp4 => exact (runInt_ready h : execIdp4 f s = _)
  case bysel => exact (runInt_ready h : execBysel f s = _)

end Sys2Proof.IntegerVector
end

section
/-!
The floating-point-vector class (05 R124 to R134) under readiness: the lanes' results, their flags and free values.
-/

namespace Sys2Proof.FloatVector
open Sys2Proof.Machine Sys2Proof.Conversions

/-- What a lane's rounded result leaves: its code in the destination, its flags and its stochastic register. -/
def roundedLane (f : WarpWord) (i : Nat) (r : Rounded) : LaneRes :=
  ⟨i, regWrites f.dst.toNat i (tn f) (BitVec.ofNat 64 r.code), r.fl, r.st⟩

section Runner
variable {f : WarpWord} {s : State} {c : Ctx} {op : Op}

/-- A ready floating instruction leaves its function's rounded result in each lane of P. -/
theorem runFlt_rounded {fn : Ctx → State → Nat → Word32 → Rounded} (h : Ready op f s c) :
    runFlt op f s fn = .next (clearIssuer (applyLanes (past op f s c) c
      ((lanesOf c.p).map (fun i => roundedLane f i (fn c s i (c.warp.seed i)))))) :=
  runFlt_ready h

/-- A ready FADD, FSUB or FMUL rounds its operation on a and b, by the lane's stochastic register. -/
theorem runArith_ready {o : FOp} (h : Ready op f s c) :
    runArith o op f s = .next (clearIssuer (applyLanes (past op f s c) c ((lanesOf c.p).map (fun i => roundedLane f i
      (arithVal o (typeCode f) (rndCode f) (ftzBit f) (c.warp.seed i) (opA s c f (tn f) i) (opB s c op f (tn f) i) 0))))) :=
  runFlt_rounded h

/-- A ready approximated function draws a free value for each lane and leaves the stochastic registers alone (logs 4, 7). -/
theorem runApprox_ready {fn : Fmt → Bool → Nat → Nat → Nat × BitVec 5} (h : Ready op f s c) :
    let r := fun i => fn (fmtOf (typeCode f)) (ftzBit f) (Config.freeValue (s.freeCtr + i)).toNat (aCode s c f i)
    runApprox op f s fn = .next (clearIssuer (applyLanes { past op f s c with freeCtr := (past op f s c).freeCtr + 32 } c
      ((lanesOf c.p).map (fun i => roundedLane f i ⟨(r i).1, (r i).2, c.warp.seed i⟩)))) :=
  runWord_done h rfl

end Runner

/-- Settles O5: each instruction is the runner of the class with its own function; FCMP writes its outcome as ICMP does
and raises the flags of P's lanes together. -/
theorem floatArithmeticResults : Obligations.FloatArithmeticResults := by
  intro f s c
  refine ⟨fun h => ?fadd, fun h => ?fsub, fun h => ?fmul, fun h => ?ffma, fun h => ?fmin, fun h => ?fmax, fun h => ?fcmp⟩
  case fadd => exact (runArith_ready h : execFadd f s = _)
  case fsub => exact (runArith_ready h : execFsub f s = _)
  case fmul => exact (runArith_ready h : execFmul f s = _)
  case ffma => exact (runFlt_rounded h : execFfma f s = _)
  case fmin => exact (runFlt_rounded h : execFmin f s = _)
  case fmax => exact (runFlt_rounded h : execFmax f s = _)
  case fcmp => exact (runWord_done h rfl : execFcmp f s = _)

/-- Settles O6: the rounded functions run as the arithmetic does, FCLASS as an integer instruction, and the approximated
ones each with a free value of its own. -/
theorem floatFunctionResults : Obligations.FloatFunctionResults := by
  intro f s c
  refine ⟨fun h => ?frcp, fun h => ?fsqrt, fun h => ?fdiv, fun h => ?frnd, fun h => ?fscale, fun h => ?fclass,
    fun h => ?frsq, fun h => ?fexp2, fun h => ?flog2, fun h => ?fsinpi, fun h => ?fcospi, fun h => ?ftanh⟩
  case frcp => exact (runFlt_rounded h : execFrcp f s = _)
  case fsqrt => exact (runFlt_rounded h : execFsqrt f s = _)
  case fdiv => exact (runFlt_rounded h : execFdiv f s = _)
  case frnd => exact (runFlt_rounded h : execFrnd f s = _)
  case fscale => exact (runFlt_rounded h : execFscale f s = _)
  case fclass => exact (IntegerVector.runInt_ready h : execFclass f s = _)
  case frsq => exact (runApprox_ready h : execFrsq f s = _)
  case fexp2 => exact (runApprox_ready h : execFexp2 f s = _)
  case flog2 => exact (runApprox_ready h : execFlog2 f s = _)
  case fsinpi => exact (runApprox_ready h : execFsinpi f s = _)
  case fcospi => exact (runApprox_ready h : execFcospi f s = _)
  case ftanh => exact (runApprox_ready h : execFtanh f s = _)

end Sys2Proof.FloatVector
end

section
/-!
The scalar class (05 R136, R137, R139) under readiness.
-/

namespace Sys2Proof.ScalarClass
open Sys2Proof.Machine

/-- A ready scalar instruction writes its function's value to its s-register. -/
theorem runSca_ready {f : WarpWord} {s : State} {c : Ctx} {op : Op} {val : Ctx → Word64 → Word64 → Word64}
    (h : Ready op f s c) : runSca op f s val =
      .next (clearIssuer (swrite (past op f s c) c.g c.w f.dst.toNat (val c (sA c f) (sB c op f)))) :=
  runWord_done h rfl

/-! ### SMIN and SMAX choose by the order of the operands' numbers -/

/-- SMIN takes b unless a is less. -/
theorem sminmaxVal_min (u : Bool) (a b : Word64) : sminmaxVal false u a b =
    if u then BitVec.ofNat 64 (min a.toNat b.toNat) else BitVec.ofInt 64 (min a.toInt b.toInt) := by
  cases u
  case false =>
    rw [Int.min_comm, Int.min_def]
    simp only [sminmaxVal, Bool.false_eq_true, if_false, BitVec.slt, Bool.bne_false, decide_eq_true_eq, ← Int.not_lt, ite_not,
      apply_ite (BitVec.ofInt 64), BitVec.ofInt_toInt]
  case true =>
    rw [Nat.min_comm, Nat.min_def]
    simp only [sminmaxVal, if_true, BitVec.ult, Bool.bne_false, decide_eq_true_eq, ← Nat.not_lt, ite_not,
      apply_ite (BitVec.ofNat 64), BitVec.ofNat_toNat, BitVec.setWidth_eq]

/-- SMAX takes a unless it is less. -/
theorem sminmaxVal_max (u : Bool) (a b : Word64) : sminmaxVal true u a b =
    if u then BitVec.ofNat 64 (max a.toNat b.toNat) else BitVec.ofInt 64 (max a.toInt b.toInt) := by
  cases u
  case false =>
    rw [Int.max_comm, Int.max_def]
    simp only [sminmaxVal, Bool.false_eq_true, if_false, BitVec.slt, Bool.bne_true, Bool.not_eq_true', decide_eq_false_iff_not,
      Int.not_lt, apply_ite (BitVec.ofInt 64), BitVec.ofInt_toInt]
  case true =>
    rw [Nat.max_comm, Nat.max_def]
    simp only [sminmaxVal, if_true, BitVec.ult, Bool.bne_true, Bool.not_eq_true', decide_eq_false_iff_not, Nat.not_lt,
      apply_ite (BitVec.ofNat 64), BitVec.ofNat_toNat, BitVec.setWidth_eq]

/-- Settles O8: each instruction is the runner of the class with its own function; SMIN and SMAX choose by the order of
the numbers, SCMP also sets SF, and V2S reads the lane that its form names. -/
theorem scalarResults : Obligations.ScalarResults := by
  intro f s c
  refine ⟨fun h => ?sadd, fun h => ?ssub, fun h => ?smul, fun h => ?smulh, fun h => ?sand, fun h => ?sor, fun h => ?sxor,
    fun h => ?sshl, fun h => ?sshr, fun h => ?sshra, fun h => ?smin, fun h => ?smax, fun h => ?ssel, fun h => ?smov,
    fun h => ?sli, fun h => ?sbfx, fun h => ?sclz, fun h => ?spopc, fun h => ?scmp, fun h => ?v2s⟩
  case sadd => exact (runSca_ready h : execSadd f s = _)
  case ssub => exact (runSca_ready h : execSsub f s = _)
  case smul => exact (runSca_ready h : execSmul f s = _)
  case smulh => exact (runSca_ready h : execSmulh f s = _)
  case sand => exact (runSca_ready h : execSand f s = _)
  case sor => exact (runSca_ready h : execSor f s = _)
  case sxor => exact (runSca_ready h : execSxor f s = _)
  case sshl => exact (runSca_ready h : execSshl f s = _)
  case sshr => exact (runSca_ready h : execSshr f s = _)
  case sshra => exact (runSca_ready h : execSshra f s = _)
  case smin =>
    refine (runSca_ready h : execSmin f s = _).trans ?_
    rw [sminmaxVal_min]
  case smax =>
    refine (runSca_ready h : execSmax f s = _).trans ?_
    rw [sminmaxVal_max]
  case ssel => exact (runSca_ready h : execSsel f s = _)
  case smov => exact (runSca_ready h : execSmov f s = _)
  case sli => exact (runSca_ready h : execSli f s = _)
  case sbfx => exact (runSca_ready h : execSbfx f s = _)
  case sclz => exact (runSca_ready h : execSclz f s = _)
  case spopc => exact (runSca_ready h : execSpopc f s = _)
  case scmp => exact (runWord_done h rfl : execScmp f s = _)
  case v2s =>
    refine (runWord_done h rfl : execV2s f s = _).trans ?_
    simp only [Bool.and_eq_true, decide_eq_true_eq]

end Sys2Proof.ScalarClass
end

section
/-!
Atomic instructions (08 R221 to R223) under readiness: the groups that are sent, and those that run at issue.
-/

namespace Sys2Proof.Atomics
open Sys2Proof.Machine

section Runner
variable {op : Op} {f : WarpWord} {s t : State} {c : Ctx} {k : Nat} {dst : Option Nat}
  {data : State → Ctx → Nat → Word64 × Word64} {ps : List Place} {gs : List Atom}

/-- The space that an atomic accesses (08 R221). -/
def atomSpace (f : WarpWord) : Nat := if f.l then extBits f 37 2 else 0

/-- Has an atomic acquire semantics (08 R221)? -/
def acquires (f : WarpWord) : Bool := decide (atomSem f % 2 = 1)

/-- Is operation k, on the atomic's type, one that an uncached page accepts (08 R223)? -/
def uncachedForm (f : WarpWord) (k : Nat) : Bool := decide (k = 0 ∨ k = 6 ∨ k = 9) && decide (typeCode f ≤ 3)

/-- The lanes of P pass the checks of operation k, with places ps. -/
def ChecksPass (f : WarpWord) (s : State) (c : Ctx) (k : Nat) (ps : List Place) : Prop :=
  checkLanes s c.agent (atomSpace f) (atomBytes (typeCode f)) .atomic (uncachedForm f k) (laneAddrs s c f (atomSpace f)) = .ok ps

/-- No release holds the atomic back (08 R221). -/
def released (f : WarpWord) (s : State) (c : Ctx) : Bool :=
  decide (atomSem f ≤ 1) || laneRelease s c.g c.w (modBits f 8 3) c.p

/-- The lanes that wrapped mode discards read 0. -/
def zeroDiscarded (f : WarpWord) (c : Ctx) (dst : Option Nat) (ps : List Place) (t : State) : State :=
  match dst with
  | some d => vwrites t c.g c.w
      ((ps.filter (fun p => p.key.isNone)).flatMap (fun p => regWrites d p.lane (atomBytes (typeCode f) / 4) 0))
  | none => t

/-- The state in which an atomic with places ps has its groups sent or run. -/
def beforeGroups (op : Op) (f : WarpWord) (s : State) (c : Ctx) (dst : Option Nat) (ps : List Place) : State :=
  touchPlaces (zeroDiscarded f c dst ps (past op f s c)) c.agent ps

/-- Do an atomic's groups run as it issues (08 R222, R223)? -/
abbrev RunsAtIssue (f : WarpWord) (gs : List Atom) : Prop :=
  atomSpace f = 2 ∨ (acquires f = true ∧ gs.any (fun a => onPeer a.key) = false)

/-- The state t with groups gs on their way to their units. -/
def sendGroups (f : WarpWord) (s : State) (c : Ctx) (gs : List Atom) (t : State) : State :=
  lampFlush s c.agent ((gs.map (fun a => { a with acq := if acquires f then some (modBits f 8 3) else none })).foldl addAtom t)

/-- What an atomic whose groups have run does to its core's L1. -/
def acquireAfter (f : WarpWord) (c : Ctx) (t : State) : State :=
  if acquires f = true ∧ modBits f 8 3 ≠ 0 then acquire t c.wg.core else t

/-- A ready atomic without a participating lane does nothing. -/
theorem runAtomic_noLane (h : Ready op f s c) (hp : c.p = 0) :
    runAtomic op f s k dst data = .next (clearIssuer (past op f s c)) :=
  runWord_done h (if_pos hp)

theorem released_iff_not_held : released f s c = true ↔
    ¬ (2 ≤ atomSem f ∧ (!laneRelease s c.g c.w (modBits f 8 3) c.p) = true) := by
  rw [released, Bool.or_eq_true, decide_eq_true_eq, Bool.not_eq_true', not_and, Bool.not_eq_false, ← Nat.not_lt]
  exact Decidable.imp_iff_not_or.symm

theorem runsAtIssue_iff : RunsAtIssue f gs ↔
    (atomSpace f = 2 ∨ (atomSem f % 2 = 1 ∧ (!gs.any (fun a => onPeer a.key)) = true)) := by
  simp only [RunsAtIssue, acquires, decide_eq_true_eq, Bool.not_eq_true']

/-- The model's test of the operation, one equation after another. -/
theorem uncachedForm_eq :
    uncachedForm f k = ((decide (k = 0) || decide (k = 6) || decide (k = 9)) && decide (typeCode f ≤ 3)) := by
  simp only [uncachedForm, Bool.decide_or, Bool.or_assoc]

/-- What the effect of an atomic comes to once its lanes have passed their checks. -/
def groupsAnswer (f : WarpWord) (s : State) (c : Ctx) (ps : List Place) (gs : List Atom) (t : State) : Res :=
  if RunsAtIssue f gs then
    match runGroups gs t with
    | some u => .done (acquireAfter f c u)
    | none => .hold (touchPlaces s c.agent ps)
  else .done (sendGroups f s c gs t)

/-- A ready atomic whose checks hold answers what its groups come to. -/
theorem runAtomic_checked (h : Ready op f s c) (hfree : released f s c = true) (hp : c.p ≠ 0) (hok : ChecksPass f s c k ps)
    (hgroups : groupsAnswer f s c ps (groupsOf ps c.g c.w c.wg.core k (typeCode f) dst (data s c))
      (beforeGroups op f s c dst ps) = .done t) :
    runAtomic op f s k dst data = .next (clearIssuer t) := by
  rw [ChecksPass, uncachedForm_eq] at hok
  refine runWord_done h (Eq.trans ?_ hgroups)
  simp only [atomSpace] at hok
  simp only [if_neg hp, if_neg (released_iff_not_held.mp hfree), hok, groupsAnswer, runsAtIssue_iff, sendGroups, acquireAfter,
    acquires, decide_eq_true_eq]
  rfl

/-- Groups that do not run at issue become requests. -/
theorem runAtomic_sent (h : Ready op f s c) (hfree : released f s c = true) (hp : c.p ≠ 0) (hok : ChecksPass f s c k ps)
    (hnow : ¬ RunsAtIssue f (groupsOf ps c.g c.w c.wg.core k (typeCode f) dst (data s c))) :
    runAtomic op f s k dst data = .next (clearIssuer (sendGroups f s c
      (groupsOf ps c.g c.w c.wg.core k (typeCode f) dst (data s c)) (beforeGroups op f s c dst ps))) :=
  runAtomic_checked h hfree hp hok (if_neg hnow)

/-- Groups that run at issue are followed by the acquire. -/
theorem runAtomic_ran (h : Ready op f s c) (hfree : released f s c = true) (hp : c.p ≠ 0) (hok : ChecksPass f s c k ps)
    (hnow : RunsAtIssue f (groupsOf ps c.g c.w c.wg.core k (typeCode f) dst (data s c)))
    (hrun : runGroups (groupsOf ps c.g c.w c.wg.core k (typeCode f) dst (data s c)) (beforeGroups op f s c dst ps) = some t) :
    runAtomic op f s k dst data = .next (clearIssuer (acquireAfter f c t)) :=
  runAtomic_checked h hfree hp hok (by rw [groupsAnswer, if_pos hnow, hrun])

end Runner

/-- Settles O17: each instruction is the runner of the class with its own operation, destination and data. -/
theorem atomicResults : Obligations.AtomicResults := by
  intro f s c ty k sp swap ok core d before cas groups acq free now sent ran hfree
  refine ⟨fun h hp => ?atomNone, fun h hp => ?casNone, fun h hp => ?redNone, fun ps hp hok hnow h => ?atomSent,
    fun ps t hp hok hnow hrun h => ?atomRan, fun ps hp hok hnow h => ?casSent, fun ps t hp hok hnow hrun h => ?casRan,
    fun ps hp hok hnow h => ?redSent, fun ps t hp hok hnow hrun h => ?redRan⟩
  case atomNone => exact (runAtomic_noLane h hp : execAtom f s = _)
  case casNone => exact (runAtomic_noLane h hp : execAtomCas f s = _)
  case redNone => exact (runAtomic_noLane h hp : execRed f s = _)
  case atomSent => exact (runAtomic_sent h hfree hp hok hnow : execAtom f s = _)
  case atomRan => exact (runAtomic_ran h hfree hp hok hnow hrun : execAtom f s = _)
  case casSent => exact (runAtomic_sent h hfree hp hok hnow : execAtomCas f s = _)
  case casRan => exact (runAtomic_ran h hfree hp hok hnow hrun : execAtomCas f s = _)
  case redSent => exact (runAtomic_sent h hfree hp hok hnow : execRed f s = _)
  case redRan => exact (runAtomic_ran h hfree hp hok hnow hrun : execRed f s = _)

end Sys2Proof.Atomics
end

section
/-!
Barriers (08 R227 to R229), FENCE (08 R226), BANKLOCK (08 R232, R233) and timelines (08 R234) under readiness.
-/

namespace Sys2Proof.Synchronisation
open Sys2Proof.Machine Sys2Proof.WarpRegisters

/-- A condition that holds is not the one whose absence is tested. -/
theorem not_bnot_eq_true {b : Bool} (h : b = true) : ¬ (!b) = true := by simp [h]

/-! ### Barriers -/

section Barriers
variable {op : Op} {f : WarpWord} {s t : State} {c : Ctx} {eff : Ctx → State → State → Res}

/-- A ready barrier instruction in its turn, whose effect is had, ends in its state. -/
theorem runBar_done (h : Ready op f s c) (hturn : barTurn s c.g c.w = true)
    (he : eff c s (barPlace (past op f s c) c.g c.w) = .done t) : runBar op f s eff = .next (clearIssuer t) :=
  runWord_done h (by rw [if_pos hturn, he])

/-- A barrier whose conditions hold, and of which no phase has completed in the cycle, has one to complete. -/
theorem phaseDue_of_complete {g b : Nat} {x : Wg} (hx : getWg s g = some x) (hb : (getBar x b).complete = true)
    (hmark : mget s.marks (clsDone g b) = none) : phaseDue s g b = true := by
  simp [phaseDue, phaseMet, hx, hb, hmark]

theorem completePhase_of_getWg {g b : Nat} {x : Wg} (hx : getWg s g = some x) : completePhase s g b =
    wakeWg (takePlace (setWg s g (setBar x b (getBar x b).finish)) (clsDone g b) 0) g := by
  simp only [completePhase, hx]

end Barriers

/-- Settles O18: each instruction in its turn, past the conditions of R229; a phase that is due completes. -/
theorem barrierResults : Obligations.BarrierResults := by
  intro f s c b live m e a ph put
  refine ⟨fun hturn => ⟨fun h hw hc hm => ?init, fun h hm hr => ?arrive, fun h hf => ?waitOperand, fun p hf hl h => ?waitLast,
    fun h hm hr => ?sync, fun h => ?query⟩, fun n x hx hb hmark => ?phase⟩
  case init =>
    change execBarInit f s = _
    refine runBar_done h hturn ?_
    simp only [modBits_one_eq_one]
    rw [if_neg (not_or.mpr ⟨Decidable.not_not.mpr hw, Decidable.not_not.mpr hc⟩),
      if_neg fun ⟨hm0, he0⟩ => hm.elim (absurd hm0) (absurd he0)]
  case arrive =>
    change execBarArrive f s = _
    exact runBar_done h hturn ((if_neg (not_bnot_eq_true hm)).trans (if_neg (not_bnot_eq_true hr)))
  case waitOperand =>
    change execBarWait f s = _
    refine runBar_done h hturn ?_
    rw [if_pos ((modBits_one_eq_one f 0).mpr hf)]
  case waitLast =>
    change execBarWait f s = _
    refine runBar_done h hturn ?_
    have hlast : mget (barOf c f).lastph c.w = some p := hl
    rw [if_neg (by rw [modBits_one_eq_one, hf]; exact Bool.false_ne_true), hlast]
  case sync =>
    change execBarSync f s = _
    exact runBar_done h hturn ((if_neg (not_bnot_eq_true hm)).trans (if_neg (not_bnot_eq_true hr)))
  case query => exact (runBar_done h hturn rfl : execBarQuery f s = _)
  case phase =>
    change execBarrierPhaseComplete n a s = _
    rw [execBarrierPhaseComplete, if_pos (phaseDue_of_complete hx hb hmark), completePhase_of_getWg hx]

/-! ### Fences, bank locks and timelines -/

/-- A span that has not ended began fewer than 256 cycles ago (08 R232). -/
theorem spanOpen_iff {sp : Span} {clock : Nat} : sp.open clock = true ↔ clock < sp.began + 256 := by
  rw [Span.open, decide_eq_true_eq, Config.spanCycles]

theorem not_spanOpen_eq {sp : Span} {clock : Nat} : (!sp.open clock) = decide (sp.began + 256 ≤ clock) := by
  rw [Bool.eq_iff_iff, Bool.not_eq_true', ← Bool.not_eq_true, spanOpen_iff, Nat.not_lt, decide_eq_true_eq]

/-- No open span of another warp holds a bank that a BANKLOCK names. -/
theorem spans_any_eq_false {spans : List Span} {clock own : Nat} {banks : BitVec 32}
    (h : ∀ sp ∈ spans, clock < sp.began + 256 → sp.warp ≠ own → sp.banks &&& banks = 0) :
    spans.any (fun sp => sp.open clock && sp.warp ≠ own && sp.banks &&& banks ≠ 0) = false := by
  simpa [spanOpen_iff] using h

/-- No atomic of the fragment is still to be performed. -/
theorem atoms_any_eq_false {atoms : List Atom} {g w : Nat} {lanes : Lanes}
    (h : ∀ a ∈ atoms, a.ofLanes g w lanes = true → a.done = true) :
    atoms.any (fun a => !a.done && a.ofLanes g w lanes) = false := by
  simp only [List.any_eq_false, Bool.and_eq_true, Bool.not_eq_true', not_and']
  intro a ha hof
  simp [h a ha hof]

/-- Settles O19: a FENCE and a BANKLOCK are held by nothing, a span's end drops what is no longer open, and TLWAIT and TLREAD
read the timeline that their modifier names. -/
theorem synchronisationResults : Obligations.SynchronisationResults := by
  intro f s c kind scope banks own tl n core
  refine ⟨fun h hrel hatoms => ?fence, fun h hspans hpend hturn => ?banklock, fun k g w => ?spanEnd, fun h hn => ?tlwaitNone,
    fun h hn hissued => ?tlwait, fun h => ?tlread⟩
  case fence =>
    change execFence f s = _
    refine runWord_done h ?_
    have hheld : ¬ (kind ≠ 1 ∧ (!laneRelease s c.g c.w scope c.frag) = true) := fun ⟨hk, hl⟩ =>
      not_bnot_eq_true (hrel hk) hl
    have hwait : ¬ (kind ≠ 2 ∧ s.atoms.any (fun a => !a.done && a.ofLanes c.g c.w c.frag) = true) := fun ⟨hk, ha⟩ =>
      ne_true_of_eq_false (atoms_any_eq_false (hatoms hk)) ha
    exact (if_neg hheld).trans (if_neg hwait)
  case banklock =>
    change execBanklock f s = _
    exact runWord_done h ((if_neg (ne_true_of_eq_false (spans_any_eq_false hspans))).trans
      ((if_neg (ne_true_of_eq_false hpend)).trans (if_neg (not_bnot_eq_true hturn))))
  case spanEnd =>
    change execBanklockSpanEnd k g w s = _
    simp only [execBanklockSpanEnd, not_spanOpen_eq]
  case tlwaitNone =>
    change execTlwait f s = _
    exact runWord_done h ((if_neg (Nat.not_lt.mpr (Nat.le_trans (Nat.le_of_eq hn) (Nat.zero_le _)))).trans (if_pos hn))
  case tlwait =>
    change execTlwait f s = _
    refine runWord_done h ?_
    simp only [timelineOf, modBits_one_eq_one, Bool.decide_eq_true]
    exact (if_neg (Nat.not_lt.mpr hissued)).trans (if_neg hn)
  case tlread =>
    change execTlread f s = _
    refine runWord_done h ?_
    simp only [timelineOf, modBits_one_eq_one, Bool.decide_eq_true]
    rfl

end Sys2Proof.Synchronisation
end

section
/-!
Copy commands of the warp word (08 R214, 10 R238, R239, R244) and COPY.STAT (10 R250) under readiness.
-/

namespace Sys2Proof.CopyCommands
open Sys2Proof.Machine

/-! ### The issuing fragment's workgroup and warp -/

section Issuer
variable {s : State} {i : Issuer} {guard : BitVec 4} {c : Ctx} {op : Op} {f : WarpWord}

/-- A fragment's context holds its workgroup and its warp as the state has them. -/
theorem ctxOf_holds (h : ctxOf s i guard = some c) : getWg s c.g = some c.wg ∧ getWarp s c.g c.w = some c.warp := by
  unfold ctxOf at h
  split at h
  · next wg x hwg hx =>
    split at h
    · cases h
    · split at h
      · cases h; exact ⟨hwg, hx⟩
      · split at h
        · cases h
        · split at h
          · cases h
          · cases h; exact ⟨hwg, hx⟩
  · cases h

theorem holds_of_ready (h : Ready op f s c) : getWg s c.g = some c.wg ∧ getWarp s c.g c.w = some c.warp := by
  obtain ⟨hissue, -⟩ := h
  obtain ⟨i, -, hctx⟩ := Option.bind_eq_some_iff.mp hissue
  exact ctxOf_holds hctx

end Issuer

section Commands
variable {op : Op} {f : WarpWord} {s : State} {c : Ctx} {kind : CopyKind} {blk shared : Bool}

/-- The operands of a copy command of the warp word (10 R244); blk: it has those of a tensor or a gather. -/
def copyOperands (f : WarpWord) (c : Ctx) (kind : CopyKind) (blk : Bool) : CopyReq :=
  let sb := fun i => c.warp.sreg (f.b.toNat + i)
  ⟨kind, c.warp.sreg f.dst.toNat, sA c f, sb 0, if blk then sb 1 else 0, if blk then sb 2 else 0, modBits f 2 2, modBits f 0 2,
    extBits f 32 32⟩

/-- The command with handle id that the fragment c has accepted with operands q (10 R239, R244, R249). -/
def commandOf (s : State) (c : Ctx) (q : CopyReq) (shared : Bool) (id : Nat) : Copy :=
  { id := id, core := c.wg.core, g := c.g, w := c.w, lanes := leaderOf c.p, kind := q.kind, dst := q.dst, a := q.a, b0 := q.b0
    b1 := q.b1, b2 := q.b2, src := q.src, buf := q.buf, ctl := BitVec.ofNat 32 q.ctl, num := c.wg.tlc.issued + 1, token := none
    shared := shared, pc := c.pc, accepted := s.clock
    obBits := if q.buf = 3 then ((ownRec s c.g c.wg.core (obNum q.dst)).map (·.bits)).getD 0 else 0
    recv := mcReceivers s c.wg.core c.wg q, absent := mcAbsent s q (mcReceivers s c.wg.core c.wg q), layout := none, moved := 0
    ahead := [], rows := [], late := [] }

/-- The state t with the command d in its core's queue, in its lane group's turn. -/
def acceptCopy (t : State) (c : Ctx) (d : Copy) : State :=
  takePlace (modWg { t with copies := t.copies ++ [d], nextId := t.nextId + 1 } c.g (fun x => { x with tlc := x.tlc.accept }))
    (clsCopy c.wg.core) c.warp.lg

/-- A ready copy command without a participating lane is none. -/
theorem runCopy_noLane (h : Ready op f s c) (hp : c.p = 0) :
    runCopy op f s kind blk = .next (clearIssuer (past op f s c)) :=
  runWord_done h (if_pos hp)

/-- A command that the queue has room for, with legal and aligned operands, is accepted in its turn. -/
theorem copyIssue_done {t : State} {q : CopyReq} (hwg : getWg s c.g = some c.wg)
    (hwarp : getWarp s c.g c.w = some c.warp) (hoper : copyOperand s c.g c.wg.core q = false) (halign : copyMisalign q = none)
    (hroom : copyRoom s c.wg.core c.g = some shared) (hturn : inOrder s (clsCopy c.wg.core) c.warp.lg = true) :
    copyIssue s t c.g c.w (leaderOf c.p) c.wg.core c.pc none q = .done (acceptCopy t c (commandOf s c q shared t.nextId)) := by
  simp only [copyIssue, hwg, hwarp, hoper, halign, hroom, Option.map_some, Option.getD_some, hturn, Bool.false_eq_true,
    Bool.not_true, if_false]
  rfl

/-- A ready copy command with a participating lane is accepted. -/
theorem runCopy_accepted (h : Ready op f s c) (hp : c.p ≠ 0)
    (hoper : copyOperand s c.g c.wg.core (copyOperands f c kind blk) = false)
    (halign : copyMisalign (copyOperands f c kind blk) = none) (hroom : copyRoom s c.wg.core c.g = some shared)
    (hturn : inOrder s (clsCopy c.wg.core) c.warp.lg = true) :
    runCopy op f s kind blk = .next (clearIssuer (acceptCopy (past op f s c) c
      (commandOf s c (copyOperands f c kind blk) shared (past op f s c).nextId))) := by
  obtain ⟨hwg, hwarp⟩ := holds_of_ready h
  exact runWord_done h ((if_neg hp).trans (copyIssue_done hwg hwarp hoper halign hroom hturn))

end Commands

/-- Settles O22: each command is the runner of the class with its own kind; COPY.STAT by the form that its modifiers name. -/
theorem copyResults : Obligations.CopyResults := by
  intro f s c core sb req turn cmd accepted word
  refine ⟨fun hp h => ?tensorNone, fun shared hp hoper halign hroom hturn h => ?tensor,
    fun hp h => ?linearNone, fun shared hp hoper halign hroom hturn h => ?linear,
    fun hp h => ?gatherNone, fun shared hp hoper halign hroom hturn h => ?gather,
    fun hp h => ?fillNone, fun shared hp hoper halign hroom hturn h => ?fill,
    fun h hm => ?statQueue, fun h hm => ?statSummary, fun h hm => ?statClear⟩
  case tensorNone => exact (runCopy_noLane h hp : execCopyT f s = _)
  case tensor => exact (runCopy_accepted h hp hoper halign hroom hturn : execCopyT f s = _)
  case linearNone => exact (runCopy_noLane h hp : execCopyL f s = _)
  case linear => exact (runCopy_accepted h hp hoper halign hroom hturn : execCopyL f s = _)
  case gatherNone => exact (runCopy_noLane h hp : execCopyG f s = _)
  case gather => exact (runCopy_accepted h hp hoper halign hroom hturn : execCopyG f s = _)
  case fillNone => exact (runCopy_noLane h hp : execCopyFill f s = _)
  case fill => exact (runCopy_accepted h hp hoper halign hroom hturn : execCopyFill f s = _)
  case statQueue =>
    change execCopyStat f s = _
    exact runWord_done h (by rw [hm]; rfl)
  case statSummary =>
    change execCopyStat f s = _
    exact runWord_done h (by rw [hm]; rfl)
  case statClear =>
    change execCopyStat f s = _
    exact runWord_done h (by rw [hm]; rfl)

end Sys2Proof.CopyCommands
end

section
/-!
The end of a copy command: COPY_COMPLETE (10 R247) and COPY_FAULT (10 R248) of a command that is in its core's queue.
-/

namespace Sys2Proof.CopyEnd
open Sys2Proof.Machine

/-- What a command of workgroup x records of a fault after n whole units: the summary word of R248, the address and its space, the
barrier phases that its engine arrivals will end, and its token. -/
def faultSummary (c : Copy) (x : Wg) (n cs sp : Nat) (ad : Word64) : Summary :=
  { word := BitVec.ofNat 64 (doneOf c n % 2 ^ 24 * 2 ^ 40 + c.num % 2 ^ 32 * 2 ^ 8 + cs % 16 * 2 ^ 4 + 1)
    num := c.num, faddr := ad, space := sp, pc := c.pc, delivered := false
    bars := if c.bar then ((arrivalPhase (getBar x c.barNum)).map (fun p => (c.barNum, p))).toList else []
    warp := c.w, token := c.token }

section Queued
variable {s t : State} {id n : Nat} {c : Copy} {x : Wg}

/-- COPY_COMPLETE finishes a queued command in the state that its units left. -/
theorem execCopyComplete_finished (hqueued : s.copies.find? (fun c => c.id = id) = some c) (hwg : getWg s c.g = some x)
    (hrun : copyRun s c x = .finished t n) : execCopyComplete id s = .next (finishCopy t c) := by
  simp only [execCopyComplete, hqueued, hwg, hrun]

/-- COPY_FAULT writes what it may of the faulted units' bytes, records the fault and finishes a queued command. -/
theorem execCopyFault_faulted {cs sp : Nat} {ad : Word64} {rest : List CUnit}
    (hqueued : s.copies.find? (fun c => c.id = id) = some c) (hwg : getWg s c.g = some x)
    (hrun : copyRun s c x = .faulted t n cs sp ad rest) :
    execCopyFault id s = .next (finishCopy
      (recordSummary (scatter t c.core (tailCells t (copySelf c x) (copyTargets s c x) rest 4096)) c.g c.w false
        (faultSummary c x n cs sp ad)) c) := by
  simp only [execCopyFault, hqueued, hwg, hrun, faultSummary]

end Queued

/-- Settles O23: each event runs the command's remaining units, and their outcome names the case. -/
theorem copyEvents : Obligations.CopyEvents := by
  intro s id c x hqueued hwg
  refine ⟨fun t n hrun => ?complete, fun t n cs sp ad rest hrun => ?fault⟩
  case complete => exact (execCopyComplete_finished hqueued hwg hrun : execCopyComplete id s = _)
  case fault => exact (execCopyFault_faulted hqueued hwg hrun : execCopyFault id s = _)

end Sys2Proof.CopyEnd
end

section
/-!
Anvil commands of the warp word and GANG.SET (11 R256, R257, R262, R263, R265 to R267) under readiness.
-/

namespace Sys2Proof.AnvilCommands
open Sys2Proof.Machine Sys2Proof.Synchronisation

/-! ### Acceptance -/

section Acceptance
variable {s t u : State} {q : Ask} {n : Nat} {word D pt seed layout scale : Word64}

/-- The layout word of a range record with its scale word and its valid bit (11 R255, R256). -/
def recordBits (layout scale : Word64) : BitVec 128 := BitVec.ofNat 128 (layout.toNat + bits scale.toNat 0 32 * 2 ^ 64 + 2 ^ 96)

/-- The OB.RES of record n that is accepted in state t, with what the workgroup held there in state s (11 R256). -/
def reserve (s t : State) (q : Ask) (r : BitVec 128) (n : Nat) : Anv :=
  { q.anv t .res (BitVec.ofNat 64 n) with recA := r, recB := ((ownRec s q.g q.core n).map (·.bits)).getD 0 }

/-- OB.RES of a record that no other workgroup owns, over a range that meets none of theirs, fills the record. -/
theorem obResIssue_done (hbad : obBad (recordBits layout scale) = false)
    (howner : ∀ p ∈ (getCore s q.core).obs, p.1 = n → p.2.owner = q.g)
    (hmeet : ∀ p ∈ obRanges s q.core, p.1 ≠ q.g → obMeet (recordBits layout scale) p.2 = false) (hopen : anvHeld s q = false) :
    obResIssue s t q layout scale n = .done (modCore (acceptAnv t (reserve s t q (recordBits layout scale) n)) q.core
      (fun k => { k with obs := mset k.obs n ⟨t.nextId, recordBits layout scale, q.g⟩ })) := by
  have howned : (getCore s q.core).obs.any (fun p => p.1 = n && p.2.owner ≠ q.g) = false := by simpa using howner
  have hapart : (obRanges s q.core).any (fun p => p.1 ≠ q.g && obMeet (recordBits layout scale) p.2) = false := by
    simpa using hmeet
  simp only [recordBits] at hbad hapart
  simp only [obResIssue, hbad, howned, hapart, hopen, Bool.or_self, Bool.false_eq_true, if_false]
  rfl

/-- OB.FREE of a record that the workgroup owns. -/
theorem obFreeIssue_done {r : ObRec} (hown : ownRec s q.g q.core n = some r) (hopen : anvHeld s q = false) :
    obFreeIssue s t q n = .done (acceptAnv t { q.anv t .free (BitVec.ofNat 64 n) with num := r.id }) := by
  simp only [obFreeIssue, hown, hopen, Bool.false_eq_true, if_false]

/-- ANV.ZERO of a tile that is free or the workgroup's takes it. -/
theorem anvZeroIssue_done (htile : foreignTile s q.g q.core (bits word.toNat 0 2) = false) (hopen : anvHeld s q = false) :
    anvZeroIssue s t q word = .done (takeTile (acceptAnv t
      { q.anv t .zero word with i96 := decide (bits word.toNat 2 1 = 1) }) q.g q.core (bits word.toNat 0 2)
      (decide (bits word.toNat 2 1 = 1))) := by
  simp only [anvZeroIssue, htile, hopen, Bool.false_eq_true, if_false]

/-- An effect that is had past a test that would not have it has failed the test. -/
theorem eq_done_of_ite {b : Prop} [Decidable b] {r r' : Res} (h : (if b then r else r') = .done u) (hr : r ≠ .done u) :
    ¬ b ∧ r' = .done u := by
  by_cases hb : b
  · rw [if_pos hb] at h
    exact absurd h hr
  · rw [if_neg hb] at h
    exact ⟨hb, h⟩

/-- An ANV.DRAIN that has its effect has been accepted, from a tile of the workgroup, with its operands. -/
theorem anvDrainIssue_eq_done (h : anvDrainIssue s t q D pt seed word = .done u) :
    ∃ z a, ownTile s q.g q.core (bits word.toNat 0 2) = some z ∧ anvHeld s q = false ∧ u = acceptAnv t a ∧ a.kind = .drain ∧
      a.word = word ∧ a.a = D ∧ a.b = pt ∧ a.c = seed ∧ a.i96 = z.i96 ∧ a.g = q.g ∧ a.core = q.core := by
  simp only [anvDrainIssue] at h
  cases hz : ownTile s q.g q.core (bits word.toNat 0 2) with
  | none =>
    rw [hz] at h
    cases h
  | some z =>
    simp only [hz] at h
    obtain ⟨-, h⟩ := eq_done_of_ite h nofun
    cases halign : rowMisalign (bufSpace (bits word.toNat 9 2)) D [bits pt.toNat 0 32, bits pt.toNat 32 32] with
    | some tr =>
      rw [halign] at h
      cases h
    | none =>
      rw [halign] at h
      obtain ⟨hopen, h⟩ := eq_done_of_ite h nofun
      cases h
      exact ⟨z, _, rfl, eq_false_of_ne_true hopen, rfl, rfl, rfl, rfl, rfl, rfl, rfl, rfl, rfl⟩

/-- An ANV.LOADZ that has its effect has been accepted with its operands and has taken its tile. -/
theorem anvLoadzIssue_eq_done (h : anvLoadzIssue s t q D pt word = .done u) :
    ∃ a, anvHeld s q = false ∧
      u = takeTile (acceptAnv t a) q.g q.core (bits word.toNat 0 2) (decide (bits word.toNat 2 1 = 1)) ∧ a.kind = .loadz ∧
      a.word = word ∧ a.a = D ∧ a.b = pt ∧ a.g = q.g ∧ a.core = q.core := by
  simp only [anvLoadzIssue] at h
  obtain ⟨-, h⟩ := eq_done_of_ite h nofun
  cases halign : rowMisalign (bits word.toNat 3 2) D [bits pt.toNat 0 32] with
  | some tr =>
    rw [halign] at h
    cases h
  | none =>
    rw [halign] at h
    obtain ⟨hopen, h⟩ := eq_done_of_ite h nofun
    cases h
    exact ⟨_, eq_false_of_ne_true hopen, rfl, rfl, rfl, rfl, rfl, rfl, rfl⟩

end Acceptance

/-- Settles O24: each instruction under readiness is the acceptance of its command; GANG.SET passes its four tests. -/
theorem anvilResults : Obligations.AnvilResults := by
  intro f s c core u q layout m zw lw dw open' mine
  refine ⟨fun h hbad howner hmeet hopen => ?res, fun r hown hopen h => ?free, fun h htile hopen => ?zero, fun t ht h => ?drain,
    fun t ht h => ?loadz, fun h hmin hmax hlive hlatch => ?gangSet⟩
  case res => exact (runWord_done h (obResIssue_done hbad howner hmeet hopen) : execObRes f s = _)
  case free => exact (runWord_done h (obFreeIssue_done hown hopen) : execObFree f s = _)
  case zero => exact (runWord_done h (anvZeroIssue_done htile hopen) : execAnvZero f s = _)
  case drain => exact ⟨(runWord_done h ht : execAnvDrain f s = _), anvDrainIssue_eq_done ht⟩
  case loadz => exact ⟨(runWord_done h ht : execAnvLoadz f s = _), anvLoadzIssue_eq_done ht⟩
  case gangSet =>
    change execGangSet f s = _
    have hlegal : ¬ ((warpsOf m).length = 0 || 6 < (warpsOf m).length || m &&& ~~~liveSet s c.g ≠ 0 || c.wg.latch.isSome) = true := by
      simp [hlive, hlatch, Nat.ne_of_gt hmin, hmax]
    exact runWord_done h (if_neg hlegal)

end Sys2Proof.AnvilCommands
end

section
/-!
ANV.MMA of a gang of one warp that holds the licence (11 R259, R261).
-/

namespace Sys2Proof.GangIssue
open Sys2Proof.Machine Sys2Proof.Synchronisation

section Gang
variable {s : State} {c : Ctx} {f : WarpWord} {l : Latch} {a : Anv} {x : Wg}

/-- A command that an MMA word makes is an ANV.MMA of its issuer's workgroup. -/
theorem mmaCommand_eq_some {q : Ask} {word ka kb : Word64} (h : mmaCommand s q word ka kb = some a) :
    a.kind = .mma ∧ a.g = q.g := by
  simp only [mmaCommand] at h
  split at h
  · split at h
    · cases h
    · cases h
      exact ⟨rfl, rfl⟩
  · cases h

theorem numbered_of_mma (h : a.kind = .mma) : a.numbered = true := by simp [Anv.numbered, Anv.tile, h]

/-- A command on a tile takes the next number of its workgroup's tla (08 R214). -/
theorem acceptAnv_numbered (hnum : a.numbered = true) (hwg : getWg s a.g = some x) :
    acceptAnv s a = modWg { takePlace s (clsAnvil a.core) a.lg with
      anvs := s.anvs ++ [{ a with num := x.tla.issued + 1 }], nextId := s.nextId + 1 } a.g
      (fun x => { x with tla := x.tla.accept }) := by
  have hwg' : getWg (takePlace s (clsAnvil a.core) a.lg) a.g = some x := hwg
  simp only [acceptAnv, hnum, if_true, hwg', Option.map_some, Option.getD_some]
  rfl

/-- What a change of a workgroup leaves of it. -/
theorem getWg_modWg_same {g : Nat} {k : Wg → Wg} (hwg : getWg s g = some x) : getWg (modWg s g k) g = some (k x) := by
  rw [getWg, modWg, mget_mmod_same, ← getWg, hwg, Option.map_some]

/-- A change of a workgroup that leaves its core alone moves no workgroup. -/
theorem coreOf_modWg {g : Nat} {k : Wg → Wg} (hcore : ∀ x, (k x).core = x.core) (h : Nat) :
    coreOf (modWg s g k) h = coreOf s h := by
  by_cases hg : h = g
  · subst hg
    simp [coreOf, getWg, modWg, mget_mmod_same, Option.map_map, Function.comp_def, hcore]
  · simp [coreOf, getWg, modWg, mget_mmod_ne _ _ hg]

theorem holdsLic_modWg {g : Nat} {k : Wg → Wg} (hcore : ∀ x, (k x).core = x.core) (h : Nat) :
    holdsLic (modWg s g k) h = holdsLic s h := by
  simp only [holdsLic, pairOfWg, coreOf_modWg hcore]
  rfl

/-- The latch that a warp's arrival makes of an empty one (11 R261). -/
def soleLatch (c : Ctx) (f : WarpWord) : Latch := ⟨f.ext, sA c f, sB c .anvMma f, [⟨c.w, c.e, f⟩], false⟩

theorem joinLatch_of_none (hlatch : c.wg.latch = none) : joinLatch c f = soleLatch c f := by
  simp only [joinLatch, hlatch, soleLatch]

/-- The state in which the gang's command a has been accepted and the latch is empty. -/
def gangAccepted (s : State) (c : Ctx) (a : Anv) : State := modWg (acceptAnv s a) c.g (fun x => { x with latch := none })

/-- A whole gang of the issuing warp alone, which holds the licence, has its command accepted. -/
theorem gangIssue_accepted {e : Nat} {d : WarpWord} (hwaiting : l.waiting = [⟨c.w, e, d⟩]) (hlic : holdsLic s c.g = true)
    (hopen : anvHeld s (gangAsk s c) = false) (hcmd : mmaCommand s (gangAsk s c) l.word l.ka l.kb = some a) :
    gangIssue s c f l = .done (countSpan (advance (gangAccepted s c a) c f) c .anvMma f) := by
  simp only [gangIssue, hcmd, hlic, hopen, hwaiting, Bool.true_or, Bool.not_true, Bool.false_and, Bool.false_eq_true, if_false,
    if_true, List.foldl_cons, List.foldl_nil]
  rfl

theorem warpsOf_warpBit {w : Nat} (hw : w < 16) : warpsOf (warpBit w) = [w] := by
  have hall : ∀ w < 16, warpsOf (warpBit w) = [w] := by decide
  exact hall w hw

theorem getLsbD_warpBit {w : Nat} (hw : w < 16) : (warpBit w).getLsbD w = true := by
  have hmem : w ∈ warpsOf (warpBit w) := by simp [warpsOf_warpBit hw]
  simpa [warpsOf] using (List.mem_filter.mp hmem).2

/-- The state in which the issuing warp stands alone in its workgroup's latch. -/
def latched (s : State) (c : Ctx) (f : WarpWord) : State := modWg s c.g (fun x => { x with latch := some (soleLatch c f) })

/-- The issuing fragment, its workgroup's latch holding its warp alone. -/
def inLatch (c : Ctx) (f : WarpWord) : Ctx := { c with wg := { c.wg with latch := some (soleLatch c f) } }

theorem holdsLic_latched (g : Nat) : holdsLic (latched s c f) g = holdsLic s g :=
  holdsLic_modWg (by intro x; rfl) g

/-- A ready ANV.MMA of a gang of one warp, its latch empty, is the issue of that gang. -/
theorem execAnvMma_sole {t : State} (h : Ready .anvMma f s c) (hgang : c.wg.gang = warpBit c.w) (hw : c.w < 16)
    (hlatch : c.wg.latch = none) (hissue : gangIssue (latched s c f) (inLatch c f) f (soleLatch c f) = .done t) :
    execAnvMma f s = .next (clearIssuer t) := by
  obtain ⟨hwg, -⟩ := CopyCommands.holds_of_ready h
  have hwg' : getWg (latched s c f) c.g = some (inLatch c f).wg := getWg_modWg_same hwg
  have hmember : c.wg.gang.getLsbD c.w = true := hgang ▸ getLsbD_warpBit hw
  have harrived : (soleLatch c f).waiting.any (fun m => m.w = c.w && m.e = c.e) = true := by simp [soleLatch]
  have hagree : ¬ ((soleLatch c f).word ≠ f.ext ∨ (soleLatch c f).ka ≠ sA c f ∨ (soleLatch c f).kb ≠ sB c .anvMma f) := by
    simp [soleLatch]
  have hwhole : ((warpsOf c.wg.gang).all (fun w => (soleLatch c f).waiting.any (fun m => m.w = w))) = true := by
    simp [hgang, warpsOf_warpBit hw, soleLatch]
  refine runWord_done h (Eq.trans ?_ hissue)
  rw [joinLatch_of_none hlatch, if_neg (not_bnot_eq_true hmember)]
  refine (if_neg hagree).trans ((if_neg (not_bnot_eq_true harrived)).trans ((if_pos hwhole).trans ?_))
  rw [latched] at hwg'
  rw [hwg']
  rfl

end Gang

/-- Settles O25: the gang is whole with the issuing warp alone in the latch, holds the licence, and finds room in the queue. -/
theorem gangIssueResult : Obligations.GangIssueResult := by
  intro f s c a hgang hw hlatch hlic hopen hcmd h
  obtain ⟨hwg, -⟩ := CopyCommands.holds_of_ready h
  obtain ⟨hkind, (hg : a.g = c.g)⟩ := mmaCommand_eq_some hcmd
  have hwg' : getWg (latched s c f) a.g = some (inLatch c f).wg := by rw [hg]; exact getWg_modWg_same hwg
  have hlic' : holdsLic (latched s c f) c.g = true := by rw [holdsLic_latched, hlic]
  have haccept := acceptAnv_numbered (numbered_of_mma hkind) hwg'
  refine ⟨gangAccepted (latched s c f) (inLatch c f) a, ?exec, ?wg, ?anvs, ?warps, ?memory⟩
  case exec =>
    change execAnvMma f s = _
    exact execAnvMma_sole h hgang hw hlatch
      (gangIssue_accepted (s := latched s c f) (c := inLatch c f) (l := soleLatch c f) rfl hlic' hopen hcmd)
  case wg =>
    rw [gangAccepted, haccept]
    rw [hg] at hwg' ⊢
    exact getWg_modWg_same (getWg_modWg_same hwg')
  case anvs =>
    rw [gangAccepted, haccept]
    rfl
  case warps =>
    rw [gangAccepted, haccept]
    rfl
  case memory =>
    intro k
    rw [gangAccepted, haccept]
    rfl

end Sys2Proof.GangIssue
end

section
/-!
The matrix licence and the twin flags: LIC.ACQ, LIC.REL, LIC.QUERY, TW.SIG and TW.WAIT (11 R273, R274, R280, R281) under readiness,
and the licence's events (11 R270).
-/

namespace Sys2Proof.MatrixLicence
open Sys2Proof.Machine Sys2Proof.WarpRegisters Sys2Proof.Synchronisation

/-! ### Instructions -/

section Instructions
variable {f : WarpWord} {s : State} {c : Ctx}

/-- The holder's LIC.ACQ pins. -/
theorem execLicAcq_held (h : Ready .licAcq f s c) (htry : f.mod.getLsbD 0 = false) (hheld : holdsLic s c.g = true) :
    execLicAcq f s = .next (clearIssuer (pinLic (past .licAcq f s c) (pairOf c.wg.core))) := by
  have hwaits : ¬ modBits f 0 1 = 1 := by rw [modBits_one_eq_one, htry]; exact Bool.false_ne_true
  exact runWord_done h ((if_neg hwaits).trans (if_pos hheld))

/-- LIC.ACQ.try never waits, and answers whether the licence is held. -/
theorem execLicAcq_try (h : Ready .licAcq f s c) (htry : f.mod.getLsbD 0 = true) :
    execLicAcq f s = .next (clearIssuer (swrite
      (if holdsLic s c.g then pinLic (past .licAcq f s c) (pairOf c.wg.core) else past .licAcq f s c) c.g c.w f.dst.toNat
      (if holdsLic s c.g then 1 else 0))) :=
  runWord_done h (if_pos ((modBits_one_eq_one f 0).mpr htry))

end Instructions

/-- Settles O20: LIC.QUERY by the form that its modifiers name, each other instruction past its tests. -/
theorem licenceResults : Obligations.LicenceResults := by
  intro f s c p held u flag
  refine ⟨fun h htry hheld => ?acq, fun h htry => ?tryAcq, fun h hturn => ?rel, fun h hm => ?licence, fun h hm => ?tile,
    fun h hm => ?conflict, fun h hm => ?fault, fun h hpair hrel hx => ?sig, fun h hpair hreached => ?wait⟩
  case acq => exact (execLicAcq_held h htry hheld : execLicAcq f s = _)
  case tryAcq => exact (execLicAcq_try h htry : execLicAcq f s = _)
  case rel =>
    change execLicRel f s = _
    exact runWord_done h (if_neg (not_bnot_eq_true hturn))
  case licence =>
    change execLicQuery f s = _
    exact runWord_done h (by rw [hm]; rfl)
  case tile =>
    change execLicQuery f s = _
    exact runWord_done h (by rw [hm]; rfl)
  case conflict =>
    change execLicQuery f s = _
    exact runWord_done h (by rw [hm]; rfl)
  case fault =>
    change execLicQuery f s = _
    exact runWord_done h (by rw [hm]; rfl)
  case sig =>
    change execTwSig f s = _
    refine runWord_done h ((if_neg (not_bnot_eq_true hpair)).trans (if_neg ?_))
    simp [hrel, hx]
  case wait =>
    change execTwWait f s = _
    exact runWord_done h ((if_neg (not_bnot_eq_true hpair)).trans (if_pos hreached))

/-! ### Events -/

section Events
variable {s : State} {p g side : Nat} {pinned : Bool}

/-- A pair reads what was last made of it. -/
theorem getPair_modPair (k : Pair → Pair) : getPair (modPair s p k) p = k (getPair s p) := by
  rw [getPair, modPair, mgetD_mput_same]

/-- A held licence under release is freed once no accepted ANV.MMA of its holder is left. -/
theorem licSettle_held (hlic : (getPair s p).lic = .held g side pinned) :
    licSettle s p = if (getPair s p).releasing = true ∧ mmaPending s g = false then freeLic s p side else s := by
  simp only [licSettle, hlic, Bool.and_eq_true, Bool.not_eq_true']

/-- A workgroup without steps under way has none between start and commit. -/
theorem noFlight_of_forall (h : ∀ a ∈ s.anvs, a.g = g → a.flight = []) : noFlight s g = true := by
  simp only [noFlight, List.all_eq_true, Bool.not_eq_true', Bool.and_eq_false_iff, decide_eq_false_iff_not, Bool.not_eq_false',
    List.isEmpty_iff]
  exact fun a ha => Decidable.imp_iff_not_or.mp (h a ha)

/-- A transfer whose 940 cycles have passed ends in its turn: the licence is held, and settles. -/
theorem execLicenceTransferDone_past {began : Nat} (hlic : (getPair s p).lic = .transfer g side pinned began) (hg : g ≠ 0)
    (htime : began + 940 ≤ s.clock) (hturn : inOrder s (clsLic p) 0 = true) :
    execLicenceTransferDone p s =
      .next (licSettle (modPair s p (fun q => { q with lic := .held g side pinned, idleFrom := s.clock })) p) := by
  have hpast : ¬ (s.clock < began + Config.licenceTransfer || !inOrder s (clsLic p) 0) = true := by
    simp [Config.licenceTransfer, Nat.not_lt.mpr htime, hturn]
  simp only [execLicenceTransferDone, hlic]
  rw [if_neg hpast, if_neg hg]

/-- Before that it goes on. -/
theorem execLicenceTransferDone_early {began : Nat} (hlic : (getPair s p).lic = .transfer g side pinned began)
    (htime : s.clock < began + 940) : execLicenceTransferDone p s = .next s := by
  simp only [execLicenceTransferDone, hlic]
  exact if_pos (by simp [Config.licenceTransfer, htime])

/-- A held licence without a pin, a step or a pending command for 256 cycles goes to a request. -/
theorem execLicenceIdleFree_idle (hlic : (getPair s p).lic = .held g side false) (hmma : mmaPending s g = false)
    (hreqs : (getPair s p).reqs ≠ []) (hidle : (getPair s p).idleFrom + 256 ≤ s.clock)
    (hturn : inOrder s (clsLic p) 0 = true) : execLicenceIdleFree p s = .next (freeLic s p side) := by
  simp only [execLicenceIdleFree, hlic]
  exact if_pos (by simp [hmma, hreqs, Config.licenceIdle, hidle, hturn])

/-- An urgent request of another workgroup takes the licence of a holder that has no step under way. -/
theorem execLicenceUrgentHandover_urgent {r : LicReq} (hlic : (getPair s p).lic = .held g side pinned)
    (hr : leastBy (licRank s) lexLt ((getPair s p).reqs.filter (fun r => r.urgent && r.g ≠ g)) = some r)
    (hflight : noFlight s g = true) :
    execLicenceUrgentHandover p s = .next (reraise (handOver s p side r) p g pinned (getPair s p).releasing) := by
  simp only [execLicenceUrgentHandover, hlic, hr]
  exact if_neg (not_bnot_eq_true hflight)

end Events

/-- Settles O21: a transfer whose time has passed settles in the state of its new holder; an idle licence and an urgent request meet
their tests. -/
theorem licenceEvents : Obligations.LicenceEvents := by
  intro s pair q
  refine ⟨fun g side pinned began hlic hg htime hturn => ?done, fun g side pinned began hlic htime => ?early,
    fun g side hlic hmma hreqs hidle hturn => ?idle, fun g side pinned r hlic hr hflight => ?urgent⟩
  case done =>
    refine (execLicenceTransferDone_past hlic hg htime hturn : execLicenceTransferDone pair s = _).trans ?_
    rw [licSettle_held (g := g) (side := side) (pinned := pinned) (by rw [getPair_modPair]), getPair_modPair]
    rfl
  case early => exact (execLicenceTransferDone_early hlic htime : execLicenceTransferDone pair s = _)
  case idle => exact (execLicenceIdleFree_idle hlic hmma hreqs hidle hturn : execLicenceIdleFree pair s = _)
  case urgent =>
    refine (execLicenceUrgentHandover_urgent hlic hr (noFlight_of_forall hflight) : execLicenceUrgentHandover pair s = _).trans ?_
    simp only [reraise, Bool.or_eq_true]
    rfl

end Sys2Proof.MatrixLicence
end

section
/-!
The anvil's events (11 R256, R257, R259, R263 to R268): the ends of OB.RES, OB.FREE, ANV.ZERO, ANV.DRAIN and ANV.LOADZ, the steps of an
ANV.MMA, and its fault.
-/

namespace Sys2Proof.AnvilEnd
open Sys2Proof.Machine

/-! ### Range records -/

section Records
variable {s : State} {id : Nat} {a : Anv}

/-- A command found of a kind is of that kind. -/
theorem kind_of_findAnv {k : AnvKind} (h : findAnv s id k = some a) : a.kind = k := by
  have hkind := List.find?_some h
  simp only [Bool.and_eq_true, decide_eq_true_eq] at hkind
  exact hkind.2

/-- OB_RES_ZERO_DONE once no earlier command and no earlier copy names the record. -/
theorem execObResZeroDone_unnamed (hfind : findAnv s id .res = some a)
    (hanvs : ∀ b ∈ s.anvs, b.id < id → b.core = a.core → anvNames a.g a.word.toNat true b = false)
    (hcopies : ∀ c ∈ s.copies, c.id < id → copyNames s a.g a.core a.word.toNat c = false)
    (hzero : zeroPending s a.g a.word.toNat id = false) :
    execObResZeroDone id s =
      .next (finishAnv (zeroRange s (obKey a.core (256 * obBase a.recA)) (256 * obUnits a.recA)) a) := by
  have hnoAnv : s.anvs.any (fun b => b.id < id && b.core = a.core && anvNames a.g a.word.toNat true b) = false := by
    simpa using hanvs
  have hnoCopy : s.copies.any (fun c => c.id < id && copyNames s a.g a.core a.word.toNat c) = false := by simpa using hcopies
  simp only [execObResZeroDone, hfind, hnoAnv, hnoCopy, hzero, Bool.or_self, Bool.false_eq_true, if_false]

/-- The state without the record that an OB.FREE frees, unless an OB.RES has filled it anew (11 R257). -/
def freeRec (s : State) (a : Anv) : State :=
  match ownRec s a.g a.core a.word.toNat with
  | some r => if r.id = a.num then modCore s a.core (fun c => { c with obs := mdel c.obs a.word.toNat }) else s
  | none => s

/-- OB_FREE_RELEASE once no command and no copy names the record. -/
theorem execObFreeRelease_unnamed (hfind : findAnv s id .free = some a)
    (hanvs : ∀ b ∈ s.anvs, b.core = a.core → anvNames a.g a.word.toNat false b = false)
    (hcopies : ∀ c ∈ s.copies, copyNames s a.g a.core a.word.toNat c = false)
    (hzero : zeroPending s a.g a.word.toNat id = false) :
    execObFreeRelease id s = .next (finishAnv (freeRec s a) a) := by
  have hnoAnv : s.anvs.any (fun b => b.core = a.core && anvNames a.g a.word.toNat false b) = false := by simpa using hanvs
  have hnoCopy : s.copies.any (copyNames s a.g a.core a.word.toNat) = false := by simpa using hcopies
  simp only [execObFreeRelease, hfind, hnoAnv, hnoCopy, hzero, Bool.or_self, Bool.false_eq_true, if_false, freeRec]
  cases ownRec s a.g a.core a.word.toNat with
  | none => rfl
  | some r => simp only [decide_eq_true_eq]

end Records

/-! ### Steps and tiles -/

section Steps
variable {s : State} {id : Nat} {a : Anv}

/-- ANV_STEP_START of a step that is ready and meets no poison. -/
theorem execAnvStepStart_ready (hfind : findAnv s id .mma = some a) (hready : stepReady s a = true)
    (hclean : stepPoison s a = none) :
    execAnvStepStart id s = .next (modLg (modAnv s id (fun a => { a with flight := a.flight ++ [takeSnap s a] })) a.core a.lg
      (fun l => { l with stepped := (s.clock :: l.stepped).take 4 })) := by
  simp only [execAnvStepStart, hfind, hready, hclean, Option.isNone_none, Bool.and_self, if_true]

/-- The command a after its oldest step under way has committed, with the steps rest left under way. -/
def stepDone (a : Anv) (rest : List Snap) : Anv := { a with committed := a.committed + 1, flight := rest }

/-- The state in which the step sn of the command has been committed to the whole tile (11 R259, R263). -/
def stepCommitted (s : State) (id : Nat) (a : Anv) (sn : Snap) (rest : List Snap) : State :=
  modPair (modTile (modAnv s id (fun _ => stepDone a rest)) a.core (bits a.word.toNat 0 2) (stepTile a sn)) (pairOf a.core)
    (fun p => { p with idleFrom := s.clock })

/-- ANV_STEP_COMMIT of the oldest step of the core, in its turn. -/
theorem execAnvStepCommit_oldest {sn : Snap} {rest : List Snap} (hfind : findAnv s id .mma = some a) (hflight : a.flight = sn :: rest)
    (holdest : ∀ b ∈ s.anvs, b.core = a.core → b.kind = .mma → b.id < id → b.flight = [])
    (hturn : inOrder s (clsLic (pairOf a.core)) 0 = true) :
    execAnvStepCommit id s = .next (if (stepDone a rest).committed = mmaSteps a.word
      then finishAnv (stepCommitted s id a sn rest) (stepDone a rest) else stepCommitted s id a sn rest) := by
  have htile : a.tile = some (bits a.word.toNat 0 2) := by simp only [Anv.tile, kind_of_findAnv hfind]
  have hnone : s.anvs.any (fun b => b.core = a.core && b.kind = .mma && b.id < id && !b.flight.isEmpty) = false := by
    simpa using holdest
  simp only [execAnvStepCommit, hfind, hflight, htile, hnone, hturn, Bool.not_true, Bool.or_self, Bool.false_eq_true, if_false]
  rfl

/-- ANV_ZERO_COMPLETE in the command's turn on its tile. -/
theorem execAnvZeroComplete_turn (hfind : findAnv s id .zero = some a) (hturn : tileTurn s a = true) :
    execAnvZeroComplete id s = .next (finishAnv (modTile s a.core (bits a.word.toNat 0 2)
      (fun t => { t with elems := [], status := 0, poisoned := [] })) a) := by
  simp only [execAnvZeroComplete, hfind, hturn, Bool.not_true, Bool.false_eq_true, if_false]

/-- ANV_DRAIN_COMPLETE of a drain whose rows are all written. -/
theorem execAnvDrainComplete_finished {x : Wg} {t : Tile} {u : State} {n : Nat} (hfind : findAnv s id .drain = some a)
    (hwg : getWg s a.g = some x) (htile : mget (getCore s a.core).tiles (bits a.word.toNat 0 2) = some t)
    (hrun : drainRun s a x t = .finished u n) : execAnvDrainComplete id s = .next (finishAnv (drainTile u a t n) a) := by
  simp only [execAnvDrainComplete, hfind, hwg, htile, hrun]

/-- ANV_LOADZ_COMPLETE of a load whose rows are all read. -/
theorem execAnvLoadzComplete_read {x : Wg} {rs : List (List (BitVec 96))} (hfind : findAnv s id .loadz = some a)
    (hwg : getWg s a.g = some x) (hrun : loadRun s a x = (rs, none)) : execAnvLoadzComplete id s =
      .next (finishAnv (modTile (rowsSeen s a x rs.length) a.core (bits a.word.toNat 0 2) (putRows a rs a.fresh)) a) := by
  simp only [execAnvLoadzComplete, hfind, hwg, hrun]

/-- ANV_FAULT of an ANV.MMA whose next step is ready and would read poison, with no step under way. -/
theorem execAnvFault_poisoned {sp off : Nat} (hqueued : s.anvs.find? (fun b => b.id = id) = some a) (hkind : a.kind = .mma)
    (hpoison : stepPoison s a = some (sp, off)) (hready : stepReady s a = true) (hflight : a.flight = []) :
    execAnvFault id s = .next (faultAnv s a a.committed 4 sp (BitVec.ofNat 64 off)) := by
  simp only [execAnvFault, hqueued, hkind, hpoison, hready, hflight, List.isEmpty_nil, Bool.and_self, if_true]

end Steps

/-- Settles O26: each event finds its command and meets its conditions. -/
theorem anvilEvents : Obligations.AnvilEvents := by
  intro s id a hqueued z
  refine ⟨fun _ hanvs hcopies hzero hfind => ?res, fun hfind hanvs hcopies hzero => ?free, fun hfind hready hclean => ?start,
    fun sn rest hfind hflight holdest hturn => ?commit, fun hfind hturn => ?zero, fun x t u n hfind hwg htile hrun => ?drain,
    fun x rs hfind hwg hrun => ?loadz, fun sp off hkind hpoison hready hflight => ?fault⟩
  case res => exact (execObResZeroDone_unnamed hfind hanvs hcopies hzero : execObResZeroDone id s = _)
  case free => exact (execObFreeRelease_unnamed hfind hanvs hcopies hzero : execObFreeRelease id s = _)
  case start => exact (execAnvStepStart_ready hfind hready hclean : execAnvStepStart id s = _)
  case commit => exact (execAnvStepCommit_oldest hfind hflight holdest hturn : execAnvStepCommit id s = _)
  case zero => exact (execAnvZeroComplete_turn hfind hturn : execAnvZeroComplete id s = _)
  case drain => exact (execAnvDrainComplete_finished hfind hwg htile hrun : execAnvDrainComplete id s = _)
  case loadz => exact (execAnvLoadzComplete_read hfind hwg hrun : execAnvLoadzComplete id s = _)
  case fault => exact (execAnvFault_poisoned hqueued hkind hpoison hready hflight : execAnvFault id s = _)

end Sys2Proof.AnvilEnd
end

section
/-!
Records (13 R306, R309 to R312) under readiness: what the effects of REC.ALLOC, REC.COMMIT, REC.ABORT and REC.INFO answer.
-/

namespace Sys2Proof.RecordInstructions
open Sys2Proof.Machine Sys2Proof.WarpRegisters Sys2Proof.Synchronisation

/-! ### Modifier fields of one bit -/

theorem modBits_one_eq_zero (f : WarpWord) (k : Nat) : modBits f k 1 = 0 ↔ f.mod.getLsbD k = false := by
  rw [← Bool.not_eq_true, ← modBits_one_eq_one, modBits, Nat.pow_one]
  omega

/-! ### REC.ALLOC (13 R309) -/

/-- How many records an allocation asks for. -/
def asked (f : WarpWord) (c : Ctx) : Nat := if immBit f then imm32 f else (sB c .recAlloc f).toNat

/-- What an allocation in its turn answers, by the room that it finds (13 R306, R309). -/
def allocServed (f : WarpWord) (s t : State) (c : Ctx) (N : Nat) : Option (State × Nat) → Res
  | some (t, a) => .done (swrite (takePlace t clsAlloc (allocPlace c)) c.g c.w f.dst.toNat (BitVec.ofNat 64 a))
  | none =>
    if f.mod.getLsbD 0 = false then
      .done (swrite (takePlace t clsAlloc (allocPlace c)) c.g c.w f.dst.toNat (BitVec.ofNat 64 1))
    else .done (modNode (blockFrag (takePlace (countSpan { s with nextId := s.nextId + 1 } c .recAlloc f) clsAlloc (allocPlace c))
      c.g c.w c.e (.alloc s.nextId N (asked f c) (f.mod.getLsbD 1) f.dst.toNat)) c.wg.rnum N
      (fun d => { d with waiters := d.waiters ++ [.frag (warpKey c.g c.w) s.nextId] }))

/-- What an allocation whose operands are legal answers: the depth limit comes first, then the eight reservations, then its turn. -/
def allocAnswer (f : WarpWord) (s t : State) (c : Ctx) (N : Nat) (d : Node) : Res :=
  if nd d.bits 368 6 < c.wg.depth + 1 then .done (swrite t c.g c.w f.dst.toNat (BitVec.ofNat 64 2))
  else if 8 ≤ c.wg.resv.length then .done (swrite t c.g c.w f.dst.toNat (BitVec.ofNat 64 3))
  else if !inOrder s clsAlloc (allocPlace c) then .hold s
  else allocServed f s t c N (allocate t c.g c.wg.rnum N (asked f c) (f.mod.getLsbD 1) d.waiters.isEmpty)

section Records
variable {f : WarpWord} {s t : State} {c : Ctx} {N : Nat} {d : Node}

theorem execRecAlloc_noLane (h : Ready .recAlloc f s c) (hp : c.p = 0) : execRecAlloc f s =
    .next (clearIssuer (swrite (past .recAlloc f s c) c.g c.w f.dst.toNat (BitVec.ofNat 64 0))) :=
  runWord_done h (if_pos hp)

/-- A ready REC.ALLOC with a lane in P, a node that exists and a number of records from 1 to 256. -/
theorem execRecAlloc_legal (h : Ready .recAlloc f s c) (hp : c.p ≠ 0) (hN : allocNode c f = some N)
    (hd : getNode s c.wg.rnum N = some d) (hlo : 1 ≤ asked f c) (hhi : asked f c ≤ 256)
    (hans : allocAnswer f s (past .recAlloc f s c) c N d = .done t) : execRecAlloc f s = .next (clearIssuer t) := by
  have hn : ¬ (asked f c = 0 ∨ 256 < asked f c) := by omega
  refine runWord_done h (Eq.trans ?_ hans)
  unfold asked at hn
  simp only [hp, hN, hd, hn, if_false, allocAnswer, allocServed, asked, modBits_one_eq_one, modBits_one_eq_zero,
    Bool.decide_eq_true] <;> rfl

/-- The answer of an allocation within its limits, in its turn. -/
theorem allocAnswer_turn (hdeep : c.wg.depth + 1 ≤ nd d.bits 368 6) (hfree : c.wg.resv.length < 8)
    (hturn : inOrder s clsAlloc (allocPlace c) = true) : allocAnswer f s t c N d =
      allocServed f s t c N (allocate t c.g c.wg.rnum N (asked f c) (f.mod.getLsbD 1) d.waiters.isEmpty) := by
  rw [allocAnswer, if_neg (Nat.not_lt.mpr hdeep), if_neg (Nat.not_le.mpr hfree), if_neg (not_bnot_eq_true hturn)]

/-! ### REC.COMMIT, REC.ABORT and REC.INFO (13 R310 to R312) -/

variable {r : Resv}

/-- A ready REC.COMMIT of a reservation, its release had and its pages at hand. -/
theorem execRecCommit_named (h : Ready .recCommit f s c) (hp : c.p ≠ 0) (hr : resvAt c.wg (sA c f).toNat = some r)
    (hk : extBits f 32 9 ≤ r.n)
    (hrel : laneRelease s c.g c.w (commitScope s c.wg r (f.mod.getLsbD 11) (modBits f 8 3)) (leaderOf c.p) = true)
    (hpages : resvMiss s (warpKey c.g c.w) c.wg r = []) : execRecCommit f s =
      .next (clearIssuer (commitResv (pieceDone (past .recCommit f s c) (warpKey c.g c.w)) c.g c.wg r (extBits f 32 9))) := by
  refine runWord_done h ?_
  simp only [modBits_one_eq_one, Bool.decide_eq_true, hp, hr, Nat.not_lt.mpr hk, hrel, hpages, List.isEmpty_nil,
    Bool.not_true, Bool.false_eq_true, if_false]

/-- A ready REC.ABORT of a reservation whose pages are at hand. -/
theorem execRecAbort_named (h : Ready .recAbort f s c) (hp : c.p ≠ 0) (hr : resvAt c.wg (sA c f).toNat = some r)
    (hpages : resvMiss s (warpKey c.g c.w) c.wg r = []) : execRecAbort f s =
      .next (clearIssuer (dropResv (abortRecs (pieceDone (past .recAbort f s c) (warpKey c.g c.w)) c.wg.asid c.wg.rnum r.node
        r.addr r.n) c.g r.addr)) := by
  refine runWord_done h ?_
  simp only [hp, hr, hpages, List.isEmpty_nil, Bool.not_true, Bool.false_eq_true, if_false]

theorem execRecInfo_batch (h : Ready .recInfo f s c) (hm : modBits f 0 2 = 0) : execRecInfo f s =
    .next (clearIssuer (swrite (past .recInfo f s c) c.g c.w f.dst.toNat
      (BitVec.ofNat 64 (c.wg.batch.getD (sB c .recInfo f).toNat 0)))) :=
  runWord_done h (by simp only [hm])

theorem execRecInfo_queue (h : Ready .recInfo f s c) (hm : modBits f 0 2 = 1)
    (hd : getNode s c.wg.rnum (sB c .recInfo f).toNat = some d) : execRecInfo f s =
      .next (clearIssuer (swrite (past .recInfo f s c) c.g c.w f.dst.toNat (BitVec.ofNat 64 (queueInfo d c.wg)))) :=
  runWord_done h (by simp only [hm, hd])

theorem execRecInfo_spill {r : Region} (h : Ready .recInfo f s c) (hm : modBits f 0 2 = 2)
    (hr : mget s.regions c.wg.rnum = some r) : execRecInfo f s =
      .next (clearIssuer (swrite (past .recInfo f s c) c.g c.w f.dst.toNat
        (BitVec.ofNat 64 (((spilled r).map (·.2)).foldl (· + ·) 0 + rcb r.bits 192 32 * 2 ^ 32)))) :=
  runWord_done h (by simp only [hm, hr])

end Records

/-- Settles O27: an allocation with legal operands answers by the first limit that it meets, in its turn by the room; the
others act on the reservation that s<a> names and read what the modifiers select. -/
theorem recordResults : Obligations.RecordResults := by
  intro f s c u n ret i took own pages
  refine ⟨fun hp h => execRecAlloc_noLane h hp, fun N d hp hN hd hlo hhi h => ?alloc,
    fun h hp => (runWord_done h (if_pos hp) : execRecCommit f s = _),
    fun r hp hr hk hrel hpages h => execRecCommit_named h hp hr hk hrel hpages,
    fun h hp => (runWord_done h (if_pos hp) : execRecAbort f s = _),
    fun r hp hr hpages h => execRecAbort_named h hp hr hpages, fun hm h => execRecInfo_batch h hm,
    fun d hm hd h => execRecInfo_queue h hm hd, fun r hm hr h => execRecInfo_spill h hm hr⟩
  intro room
  have legal {t : State} : allocAnswer f s (u .recAlloc) c N d = .done t → exec (.recAlloc f) s = .next (clearIssuer t) :=
    execRecAlloc_legal h hp hN hd hlo hhi
  refine ⟨fun hdeep => legal (if_pos hdeep),
    fun hdeep hfull => legal ((if_neg (Nat.not_lt.mpr hdeep)).trans (if_pos hfull)), fun hdeep hfree hturn => ?_⟩
  have inTurn : allocAnswer f s (u .recAlloc) c N d = allocServed f s (u .recAlloc) c N room :=
    allocAnswer_turn hdeep hfree hturn
  refine ⟨fun t a hroom => legal ?room, fun hroom hnowait => legal ?full, fun hroom hwait => legal ?wait⟩
  case room => rw [inTurn, hroom, allocServed]
  case full => rw [inTurn, hroom, allocServed, if_pos hnowait]
  case wait => rw [inTurn, hroom, allocServed, if_neg (ne_false_of_eq_true hwait)]; rfl

end Sys2Proof.RecordInstructions
end

section
/-!
Children, register pools and notify registers under readiness (13 R313 to R318), with the start of a pending child and the
clearing of a granule (04 R90, 13 R314).
-/

namespace Sys2Proof.ChildrenAndPools
open Sys2Proof.Machine Sys2Proof.WarpRegisters Sys2Proof.WarpControl
  Sys2Proof.Synchronisation

variable {f : WarpWord} {s t : State} {c : Ctx}

/-! ### Notify registers (13 R316 to R318) -/

/-- A notify register that the region's NTFMASK names may be used (13 R316). -/
theorem notifyTrap_eq_none {j : Nat} (h : (ntfMaskOf s c.wg.rnum).testBit j = true) : notifyTrap s c j = none := if_pos h

/-- Settles O29: the register is one that NTFMASK names, and the post's release is had. -/
theorem notifyResults : Obligations.NotifyResults := by
  intro f s c j hj
  have hnone : notifyTrap s c f.a.toNat = none := notifyTrap_eq_none hj
  refine ⟨fun h hrel => ?post, fun h => ?wait⟩
  case post =>
    change execNtfPost f s = _
    refine runWord_done h ?_
    simp only [hnone]
    exact if_neg (not_bnot_eq_true hrel)
  case wait =>
    change execNtfWait f s = _
    refine runWord_done h ?_
    simp only [hnone]
    rfl

/-! ### SPAWN (13 R313) -/

/-- The child that SPAWN makes with a WARPID. -/
def childOf (f : WarpWord) (s : State) (c : Ctx) (w : Nat) : Pending :=
  ⟨c.g, w, c.pc + disp f 0, extBits f 32 8, extBits f 40 5, spawnVals s c f⟩

/-- What a SPAWN answers whose child has a WARPID: the child has started, it waits in the store, or the store is full. -/
def childAnswer (f : WarpWord) (s t : State) (c : Ctx) (w : Nat) : Option State → Res
  | some t => .done (swrite t c.g c.w f.dst.toNat (BitVec.ofNat 64 (1 + w * 2 ^ 8)))
  | none =>
    if (getCore s c.wg.core).spawns.length < 16 then
      .done (swrite (modCore t c.wg.core (fun k => { k with spawns := k.spawns ++ [childOf f s c w] })) c.g c.w f.dst.toNat
        (BitVec.ofNat 64 (2 + w * 2 ^ 8)))
    else .done (swrite t c.g c.w f.dst.toNat (BitVec.ofNat 64 3))

theorem find_lowestFree {taken : List Nat} {w : Nat} (hw : w < 16) (hfree : taken.contains w = false)
    (hlow : ∀ v, v < w → taken.contains v = true) : (List.range 16).find? (fun w => !taken.contains w) = some w := by
  rw [List.find?_range_eq_some, List.mem_range]
  exact ⟨by rw [hfree]; rfl, hw, fun v hv => by rw [hlow v hv]; rfl⟩

theorem execSpawn_noWarpid (h : Ready .spawn f s c) (hp : c.p ≠ 0) (htgt : (c.pc + disp f 0).toNat % 8 = 0)
    (hfull : ∀ w, w < 16 → (takenIds s c.g).contains w = true) : execSpawn f s =
      .next (clearIssuer (swrite (past .spawn f s c) c.g c.w f.dst.toNat (BitVec.ofNat 64 4))) := by
  have hnone : (List.range 16).find? (fun w => !(takenIds s c.g).contains w) = none := by
    rw [List.find?_range_eq_none]
    exact fun w hw => by rw [hfull w hw]; rfl
  refine runWord_done h ?_
  simp only [hp, badPc_eq_false htgt, hnone, Bool.false_eq_true, if_false]

theorem execSpawn_child {w : Nat} (h : Ready .spawn f s c) (hp : c.p ≠ 0) (htgt : (c.pc + disp f 0).toNat % 8 = 0)
    (hid : (List.range 16).find? (fun w => !(takenIds s c.g).contains w) = some w)
    (hrel : laneRelease s c.g c.w 0 (leaderOf c.p) = true)
    (hans : childAnswer f s (past .spawn f s c) c w (startChild (past .spawn f s c) c.wg.core (childOf f s c w)) = .done t) :
    execSpawn f s = .next (clearIssuer t) := by
  refine runWord_done h (Eq.trans ?_ hans)
  simp only [hp, badPc_eq_false htgt, hid, hrel, Bool.not_true, Bool.false_eq_true, if_false, childAnswer, childOf,
    Config.spawnStore] <;> rfl

/-! ### Register pools (13 R315) -/

/-- A ready REG.GIVE of granules that the warp holds beyond its first, with no access under way into them. -/
theorem execRegGive_free {left : Nat} (h : Ready .regGive f s c) (hlo : 1 ≤ (sB c .regGive f).toNat)
    (hhi : 8 * (sB c .regGive f).toNat + 8 ≤ c.warp.alloc) (hleft : c.warp.alloc - 8 * (sB c .regGive f).toNat = left)
    (hfree : (s.loads.any (fun l => l.g = c.g && l.w = c.w && l.vecs.any (fun v => left ≤ v.1 && v.1 < 240)) ||
      s.atoms.any (fun o => o.g = c.g && o.w = c.w && !o.done && o.dst.any (fun d => left ≤ d + 1 && d < 240))) = false) :
    execRegGive f s = .next (clearIssuer (wakeWg (modWg (modLg (modWarp (past .regGive f s c) c.g c.w (fun x =>
        { x with alloc := left, vregs := x.vregs.filter (fun p => p.1 < 32 * left), poisoned := x.poisoned.filter (· < 32 * left) }))
      c.wg.core c.warp.lg (fun l => { l with wash := l.wash.filter (fun h => !(h.1 = warpKey c.g c.w && left / 8 ≤ h.2)) }))
      c.g (fun x => { x with pools := mput x.pools c.warp.lg (mgetD x.pools c.warp.lg 0 + (sB c .regGive f).toNat) 0 })) c.g)) := by
  subst hleft
  refine runWord_done h ?_
  exact (if_neg (by omega)).trans (if_neg (ne_true_of_eq_false hfree))

/-- What REG.CLAIM answers: with .try by what the pool holds; else the claim waits its turn. -/
theorem execRegClaim_legal (h : Ready .regClaim f s c) (hlo : (sB c .regClaim f).toNat ≠ 0)
    (hhi : c.warp.alloc + 8 * (sB c .regClaim f).toNat ≤ 240) : execRegClaim f s = .next (clearIssuer (
      if f.mod.getLsbD 0 = true then
        if mgetD c.wg.pools c.warp.lg 0 < (sB c .regClaim f).toNat then swrite (past .regClaim f s c) c.g c.w f.dst.toNat 0
        else swrite (takeGranules (past .regClaim f s c) c.g c.w (sB c .regClaim f).toNat) c.g c.w f.dst.toNat 1
      else waitOn { past .regClaim f s c with nextId := s.nextId + 1 } c.g c.w c.e
        (.claim s.nextId (sB c .regClaim f).toNat))) := by
  refine runWord_done h ((if_neg (by omega)).trans ?_)
  simp only [modBits_one_eq_one, apply_ite Res.done]

/-! ### The clearing of granules (04 R90) -/

/-- The granule granted first is clear, and the lane group has had its turn in this cycle. -/
def granuleCleared (s : State) (k lg : Nat) (rest : List (Nat × Nat)) : State :=
  takePlace (modLg s k lg (fun l => { l with wash := rest })) (clsWash k lg) 0

theorem warps_takePlace (cls place : Nat) : (takePlace s cls place).warps = s.warps := rfl

theorem getLg_takePlace (cls place k lg : Nat) : getLg (takePlace s cls place) k lg = getLg s k lg := rfl

/-- A lane group reads what was last made of it. -/
theorem getLg_modLg (k lg : Nat) (m : Lg → Lg) : getLg (modLg s k lg m) k lg = m (getLg s k lg) := by
  rw [getLg, modLg, mgetD_mput_same]

theorem granuleCleared_wash (k lg : Nat) (rest : List (Nat × Nat)) : (getLg (granuleCleared s k lg rest) k lg).wash = rest := by
  rw [granuleCleared, getLg_takePlace, getLg_modLg]

theorem granuleCleared_warps (k lg : Nat) (rest : List (Nat × Nat)) : (granuleCleared s k lg rest).warps = s.warps := rfl

/-- The state in which a warp's last granule is clear and it may issue with its values (13 R313). -/
def warpWashed (s : State) (k lg : Nat) (h : Nat × Nat) (rest : List (Nat × Nat)) (x : Warp) : State :=
  let t := granuleCleared s k lg rest
  takePlace { t with warps := mset t.warps h.1 { x with washing := false, vregs := x.vals, vals := [] } } (clsWash k lg) (h.1 + 1)

section Clearing
variable {k lg : Nat} {h : Nat × Nat} {rest : List (Nat × Nat)}

theorem warpWashed_wash (x : Warp) : (getLg (warpWashed s k lg h rest x) k lg).wash = rest := granuleCleared_wash k lg rest

theorem warpWashed_warps (x : Warp) :
    mget (warpWashed s k lg h rest x).warps h.1 = some { x with washing := false, vregs := x.vals, vals := [] } :=
  mget_mset_same _ _ _

/-- LIMEWASH_GRANULE_CLEAR of the last granule of a starting warp. -/
theorem execLimewashGranuleClear_last {x : Warp} (hwash : (getLg s k lg).wash = h :: rest)
    (hmark : mget s.marks (clsWash k lg) = none) (hx : mget s.warps h.1 = some x)
    (hlast : (x.washing && !rest.any (fun q => q.1 = h.1)) = true) :
    execLimewashGranuleClear k lg s = .next (warpWashed s k lg h rest x) := by
  simp only [execLimewashGranuleClear, hwash, hmark, Option.isSome_none, Bool.false_eq_true, if_false, warps_takePlace, modLg_warps,
    hx, hlast, if_true]
  rfl

/-- LIMEWASH_GRANULE_CLEAR of any other granule. -/
theorem execLimewashGranuleClear_more (hwash : (getLg s k lg).wash = h :: rest) (hmark : mget s.marks (clsWash k lg) = none)
    (hmore : ∀ x, mget s.warps h.1 = some x → (x.washing && !rest.any (fun q => q.1 = h.1)) = false) :
    execLimewashGranuleClear k lg s = .next (granuleCleared s k lg rest) := by
  simp only [execLimewashGranuleClear, hwash, hmark, Option.isSome_none, Bool.false_eq_true, if_false, warps_takePlace, modLg_warps]
  cases hx : mget s.warps h.1 with
  | none => rfl
  | some x =>
    simp only [hmore x hx, Bool.false_eq_true, if_false]
    rfl

/-- The granule granted first clears in its lane group's turn, and a starting warp may issue when it was its last. -/
theorem execLimewashGranuleClear_turn (hwash : (getLg s k lg).wash = h :: rest) (hmark : mget s.marks (clsWash k lg) = none) :
    ∃ t, execLimewashGranuleClear k lg s = .next t ∧ (getLg t k lg).wash = rest ∧
      (rest.any (fun q => q.1 = h.1) = true → t.warps = s.warps) ∧
      (∀ x, rest.any (fun q => q.1 = h.1) = false → mget s.warps h.1 = some x → x.washing = true →
        mget t.warps h.1 = some { x with washing := false, vregs := x.vals, vals := [] }) := by
  by_cases hlast : ∃ x, mget s.warps h.1 = some x ∧ (x.washing && !rest.any (fun q => q.1 = h.1)) = true
  · obtain ⟨x, hx, hlast⟩ := hlast
    refine ⟨_, execLimewashGranuleClear_last hwash hmark hx hlast, warpWashed_wash x, fun hany => ?_, fun y _ hy _ => ?_⟩
    · simp [hany] at hlast
    · cases hx.symm.trans hy
      exact warpWashed_warps x
  · have hmore : ∀ x, mget s.warps h.1 = some x → (x.washing && !rest.any (fun q => q.1 = h.1)) = false :=
      fun x hx => Bool.eq_false_iff.mpr fun hl => hlast ⟨x, hx, hl⟩
    refine ⟨_, execLimewashGranuleClear_more hwash hmark hmore, granuleCleared_wash k lg rest, fun _ => rfl,
      fun x hany hx hw => ?_⟩
    simpa [hw, hany] using hmore x hx

end Clearing

/-- PENDING_SPAWN_START of the oldest child that fits. -/
theorem execPendingSpawnStart_fits {k : Nat} {p : Pending} (hfind : (getCore s k).spawns.find?
      (fun p => !(fittingLgs s k p.ag).isEmpty && ((getWg s p.g).map Wg.isResident).getD false) = some p)
    (hstart : startChild s k p = some t) : execPendingSpawnStart k s =
      .next (modCore t k (fun q => { q with spawns := q.spawns.erase p })) := by
  simp only [execPendingSpawnStart, hfind, hstart]

/-- Settles O28: SPAWN takes the lowest free WARPID, and its answer is what became of the child; the pools' instructions meet
their operands' conditions; a lane group's first granule clears. -/
theorem spawnAndPoolResults : Obligations.SpawnAndPoolResults := by
  intro f s c u ret core tgt g pool child n left busy
  refine ⟨fun hp h => (runWord_done h (if_pos hp) : execSpawn f s = _), fun hp htgt hfull h => execSpawn_noWarpid h hp htgt hfull,
    fun w hp htgt hw hfree hlow hrel h => ?spawn, fun hlo hhi hfree h => execRegGive_free h hlo hhi rfl hfree,
    fun htry hg hhi hpool h => ?claimShort, fun htry hg hhi hpool h => ?claimTaken, fun htry hg hhi h => ?claimWaits,
    fun k p t hfind hstart => execPendingSpawnStart_fits hfind hstart,
    fun k lg h rest hwash hmark => execLimewashGranuleClear_turn hwash hmark⟩
  case spawn =>
    have answer {t : State} : childAnswer f s (u .spawn) c w (startChild (u .spawn) core (child w)) = .done t →
        exec (.spawn f) s = .next (clearIssuer t) :=
      execSpawn_child h hp htgt (find_lowestFree hw hfree hlow) hrel
    refine ⟨fun t hstart => answer ?started, fun hnone hroom => answer ?waits, fun hnone hroom => answer ?full⟩
    case started => rw [hstart, childAnswer]
    case waits =>
      rw [hnone, childAnswer, if_pos hroom]
      rfl
    case full => rw [hnone, childAnswer, if_neg (Nat.not_lt.mpr hroom)]
  case claimShort =>
    refine (execRegClaim_legal h hg hhi).trans ?_
    rw [if_pos htry, if_pos hpool]
    rfl
  case claimTaken =>
    refine (execRegClaim_legal h hg hhi).trans ?_
    rw [if_pos htry, if_neg (Nat.not_lt.mpr hpool)]
    rfl
  case claimWaits =>
    refine (execRegClaim_legal h hg hhi).trans ?_
    rw [if_neg (ne_true_of_eq_false htry)]

end Sys2Proof.ChildrenAndPools
end

section
/-!
The Coopers' events (13 R299 to R306, 14 R343, R345): placement, restores, victims, saves, parking and the gating of clusters.
-/

namespace Sys2Proof.CooperTurns
open Sys2Proof.Machine

variable {s : State} {stack g : Nat} {c : Candidate} {sides : List Side}

/-! ### Placement (13 R302) -/

/-- A partial function that is undefined before the first element of a property is found at that element. -/
theorem findSome?_of_find? {α β : Type} {p : α → Bool} {f : α → Option β} {l : List α} {a : α} {b : β}
    (hfind : l.find? p = some a) (hnone : ∀ x, p x = false → f x = none) (hfa : f a = some b) : l.findSome? f = some b := by
  obtain ⟨-, before, after, rfl, hbefore⟩ := List.find?_eq_some_iff_append.mp hfind
  have hskip : before.findSome? f = none :=
    List.findSome?_eq_none_iff.mpr fun x hx => hnone x ((Bool.not_eq_true' _).mp (hbefore x hx))
  rw [List.findSome?_append, hskip, Option.none_or, List.findSome?_cons_of_isSome (by simp [hfa]), hfa]

/-- A Cooper that need not stand back for West's choice places its first candidate that fits. -/
theorem placesNow_first (hmay : mayPlace s stack = true) (hturn : inOrder s clsCooper stack = true)
    (hfree : stack = 0 ∨ mayPlace s 0 = false) : placesNow s stack = firstPlaceable s stack := by
  by_cases hwest : stack = 0
  · subst hwest
    simp only [placesNow, hmay, hturn, Bool.not_true, Bool.or_self, Bool.false_eq_true, if_false, if_true]
  · have hno : mayPlace s 0 = false := hfree.resolve_left hwest
    simp only [placesNow, hmay, hturn, hwest, hno, Bool.not_true, Bool.or_self, Bool.false_eq_true, if_false, reduceCtorEq,
      firstPlaceable]

/-- East places its first candidate that fits when it is another than West places in the cycle. -/
theorem placesNow_east {west : List Side} {d : Ranked} (hmay : mayPlace s stack = true)
    (hturn : inOrder s clsCooper stack = true) (hstack : stack ≠ 0) (hboth : mayPlace s 0 = true)
    (hwest : firstPlaceable s 0 = some (c, west))
    (hfind : (candidates s stack).find? (fun r => (findPlace s stack r.cand).isSome) = some d) (hother : d.cand ≠ c)
    (hplace : findPlace s stack d.cand = some sides) : placesNow s stack = some (d.cand, sides) := by
  simp only [placesNow, hmay, hturn, hstack, hboth, hwest, Bool.not_true, Bool.or_self, Bool.false_eq_true, if_false, if_true,
    Option.map_some, Option.some.injEq]
  refine findSome?_of_find? hfind (fun r hr => ?_) ?_
  · rw [Option.isSome_eq_false_iff, Option.isNone_iff_eq_none] at hr
    rw [hr, Option.map_none, ite_self]
  · rw [if_neg hother, hplace, Option.map_some]

theorem execWorkgroupPlace_placed (h : placesNow s stack = some (c, sides)) :
    execWorkgroupPlace stack s = .next (takePlace (place s stack c sides) clsCooper stack) := by
  simp only [execWorkgroupPlace, h, placeNow]

/-! ### Restores (14 R345) -/

theorem execWorkgroupRestore_awake {x : Wg} (hwg : getWg s g = some x) (hstatus : x.status = .restoring)
    (hawake : ∀ h ∈ restoreSet s g, (getWg s h).any (restoreAwake s) = true) :
    execWorkgroupRestore stack g s = .next (finishRestore s (restoreSet s g)) := by
  simp only [execWorkgroupRestore, hwg, hstatus, List.all_eq_true.mpr hawake, if_true]

theorem status_of_isSaved {x : Wg} (h : x.isSaved = true) : ∃ p a q, x.status = .saved p a q := by
  unfold Wg.isSaved at h
  split at h
  · next p a q hstatus => exact ⟨p, a, q, hstatus⟩
  · cases h

theorem execWorkgroupRestore_begins {x : Wg} (hwg : getWg s g = some x) (hsaved : x.isSaved = true)
    (hplace : placesNow s stack = some (.restore g, sides)) : execWorkgroupRestore stack g s =
      .next (takePlace (place s stack (.restore g) sides) clsCooper stack) := by
  obtain ⟨p, a, q, hstatus⟩ := status_of_isSaved hsaved
  simp only [execWorkgroupRestore, hwg, hstatus, hplace, if_true, placeNow]

/-! ### Victims, saves and parking (13 R303, 14 R343, 08 R231) -/

/-- PREEMPT_VICTIMS of a candidate that has waited out PREDLY, for which no departure makes room: the victims chosen stop. -/
theorem execPreemptVictims_chosen {cand : Candidate} {c : Ranked} {vs : List Victim}
    (hfind : (candidates s stack).find? (fun c => c.cand = cand) = some c) (hdelay : c.since + preDlyOf s c.rnum ≤ s.clock)
    (hnone : findPlace s stack cand = none)
    (hsites : ∀ k ∈ sites s stack cand, placeable (departed s (leaving s)) cand k.1 = false)
    (hvictims : chooseVictims s stack cand (prioOf s c.rnum) = some vs)
    (hturns : ∀ g ∈ vs.flatMap (·.gs), withdrawTurn s g = true) : execPreemptVictims stack cand s =
      .next (restartDelay ((vs.flatMap (·.gs)).foldl (fun s g => stopWg s false g) s) cand) := by
  have hroom : (sites s stack cand).any (fun k => placeable (departed s (leaving s)) cand k.1) = false :=
    List.any_eq_false.mpr fun k hk => ne_true_of_eq_false (hsites k hk)
  simp only [execPreemptVictims, hfind, Nat.not_lt.mpr hdelay, hnone, hroom, hvictims, List.all_eq_true.mpr hturns,
    Option.isSome_none, decide_false, Bool.or_self, Bool.not_true, Bool.false_eq_true, if_false]

theorem execPreemptSave_saved (hne : wgSet s g ≠ []) (hmay : ∀ h ∈ wgSet s g, maySave s h = true)
    (hfits : ∀ h ∈ wgSet s g, ∀ x, getWg s h = some x → imageAddr s x + imageSize ≤ Config.hbmBytes) :
    execPreemptSave g s = .next (saveSet s (wgSet s g)) := by
  have hinside : (wgSet s g).any (fun h => (getWg s h).any (fun x => Config.hbmBytes < imageAddr s x + imageSize)) = false := by
    simpa [Option.any_eq_false] using hfits
  simp only [execPreemptSave, List.isEmpty_eq_false_iff.mpr hne, List.all_eq_true.mpr hmay, hinside, Bool.not_true, Bool.or_self,
    Bool.false_eq_true, if_false]

theorem execParkWorkgroup_parks (hne : wgSet s g ≠ []) (hroom : imageRoom s (wgSet s g) = true)
    (hturns : ∀ h ∈ wgSet s g, withdrawTurn s h = true)
    (hmay : (∀ h ∈ wgSet s g, mayPark s false h = true) ∨ (∀ h ∈ wgSet s g, mayPark s true h = true)) :
    execParkWorkgroup g s = .next ((wgSet s g).foldl (fun s h => stopWg s true h) s) := by
  have hpark : ((wgSet s g).all (mayPark s false) || (wgSet s g).all (mayPark s true)) = true := by
    rwa [Bool.or_eq_true, List.all_eq_true, List.all_eq_true]
  simp only [execParkWorkgroup, hpark, List.isEmpty_eq_false_iff.mpr hne, hroom, List.all_eq_true.mpr hturns, Bool.not_false,
    Bool.and_self, if_true]

theorem execClusterPowerGate_idle {cluster : Nat}
    (hidle : ∀ p ∈ s.wgs, p.2.onCore = true → clusterOf p.2.core ≠ cluster) (hnew : s.gated.contains cluster = false) :
    execClusterPowerGate cluster s = .next { s with gated := s.gated ++ [cluster] } := by
  have hnone : s.wgs.any (fun p => p.2.onCore && clusterOf p.2.core = cluster) = false := by simpa using hidle
  simp only [execClusterPowerGate, hnone, hnew, Bool.or_self, Bool.false_eq_true, if_false]

/-- Settles O40: each event finds its Cooper's candidate or its set of workgroups, and meets its conditions. -/
theorem cooperEvents : Obligations.CooperEvents := by
  intro s stack g cluster rnum node cand
  refine ⟨rfl, fun c sides hmay hturn hfree hfirst => ?place,
    fun c d sides rest hmay hturn hstack hboth hwest hfind hother hplace => ?placeEast,
    fun x hwg hstatus hawake => execWorkgroupRestore_awake hwg hstatus hawake,
    fun x sides hwg hsaved hplace => execWorkgroupRestore_begins hwg hsaved hplace,
    fun c vs hfind hdelay hnone hsites hvictims hturns => execPreemptVictims_chosen hfind hdelay hnone hsites hvictims hturns,
    fun gs hgs hne hmay hfits => ?save, fun gs hgs hne hroom hturns hmay => ?park,
    fun hidle hnew => execClusterPowerGate_idle hidle hnew⟩
  case place => exact execWorkgroupPlace_placed ((placesNow_first hmay hturn hfree).trans hfirst)
  case placeEast => exact execWorkgroupPlace_placed (placesNow_east hmay hturn hstack hboth hwest hfind hother hplace)
  case save =>
    subst hgs
    exact execPreemptSave_saved hne hmay hfits
  case park =>
    subst hgs
    exact execParkWorkgroup_parks hne hroom hturns hmay

end Sys2Proof.CooperTurns
end

section
/-!
Region commands (13 R289, 15 R356): a write to RCMD while no command is under way, and what a RELOAD leaves of its region.
-/

namespace Sys2Proof.RegionControl
open Sys2Proof.Machine

variable {s : State} {v : Word64}

/-! ### Grants of vault banks leave the regions as they are -/

theorem grantUnit_regions (u : Nat) : (grantUnit s u).regions = s.regions := by
  rw [grantUnit]
  split
  · rfl
  · rfl

theorem grantBank_regions (b : Nat) : (grantBank s b).regions = s.regions := by
  rw [grantBank]
  split
  · rfl
  · exact grantUnit_regions _

theorem grantBanks_regions (asid : Nat) (banks fresh : List Nat) : (grantBanks s asid banks fresh).regions = s.regions := by
  have keep : ∀ (l : List Nat) (t : State), (l.foldl grantBank t).regions = t.regions := by
    intro l
    induction l with
    | nil => exact fun t => rfl
    | cons b l ih => exact fun t => (ih _).trans (grantBank_regions b)
  exact keep fresh _

theorem renumber_regions (old new : Nat) : (renumber s old new).regions = s.regions := by
  rw [renumber]
  split
  · rfl
  · rfl

/-! ### The commands (13 R289) -/

/-- While a command is under way a write to RCMD is discarded (15 R356). -/
theorem rcmdWrite_busy (hbusy : s.host.rcmdBusy = true) : rcmdWrite v s = s := if_pos hbusy

theorem execActivate_idle (hidle : s.host.rcmdBusy = false) (hcmd : v.toNat % 4 = 1) :
    execActivate v s = .next (activateRegion s s.host.rcmdAddr.toNat) := by
  simp only [execActivate, rcmdWrite, hidle, hcmd, Bool.false_eq_true, if_false, if_true]

theorem execReload_idle (hidle : s.host.rcmdBusy = false) (hcmd : v.toNat % 4 = 2) :
    execReload v s = .next (reloadRegion s s.host.rcmdAddr.toNat) := by
  simp only [execReload, rcmdWrite, hidle, hcmd, Bool.false_eq_true, if_false, if_true]

theorem execDeactivate_idle (hidle : s.host.rcmdBusy = false) (hcmd : v.toNat % 4 = 3) :
    execDeactivate v s = .next (deactivateRegion s s.host.rcmdAddr.toNat) := by
  simp only [execDeactivate, rcmdWrite, hidle, hcmd, Bool.false_eq_true, if_false, if_true]

section Reload
variable {addr old : Nat} {q : Region}

/-- The state in which a RELOAD is checked: its region has the block that it asks for. -/
def inPlace (s : State) (addr old : Nat) (q : Region) : State :=
  { s with regions := mset s.regions old { q with bits := (readBlock s addr).bits } }

/-- The region that an accepted RELOAD leaves. -/
def reloaded (q : Region) (m : RegionBlock) : Region :=
  { q with bits := m.bits, banks := m.banks, nodes := ((List.range m.nodes.length).zip m.nodes).map (fun p =>
    (p.1, match mget q.nodes p.1 with
      | some n => { n with bits := p.2 }
      | none => Node.fresh p.2)) }

theorem reloadRegion_refused (hfind : s.regions.find? (fun p => p.2.addr = addr) = some (old, q))
    (hbad : checkBlock (inPlace s addr old q) addr (readBlock (inPlace s addr old q) addr) (some old) ≠ 0) :
    reloadRegion s addr = rcmdAnswer (askBlock s addr (readBlock (inPlace s addr old q) addr))
      (checkBlock (inPlace s addr old q) addr (readBlock (inPlace s addr old q) addr) (some old)) := by
  simp only [reloadRegion, hfind]
  exact if_pos hbad

/-- An accepted RELOAD answers 0 and leaves its region, with the block in place, at the number that the block gives. -/
theorem reloadRegion_accepted (hfind : s.regions.find? (fun p => p.2.addr = addr) = some (old, q))
    (hok : checkBlock (inPlace s addr old q) addr (readBlock (inPlace s addr old q) addr) (some old) = 0) :
    ∃ t : State, reloadRegion s addr = rcmdAnswer t 0 ∧
      mget t.regions (rcb (readBlock (inPlace s addr old q) addr).bits 418 12) =
        some (reloaded q (readBlock (inPlace s addr old q) addr)) := by
  simp only [reloadRegion, hfind]
  refine ⟨_, if_neg (Decidable.not_not.mpr hok), ?_⟩
  simp only [reown, grantBanks_regions, dropBanks, putContext, renumber_regions]
  exact mget_mset_same _ _ _

end Reload

theorem deactivateRegion_unused {addr n : Nat} {q : Region} (hfind : s.regions.find? (fun p => p.2.addr = addr) = some (n, q))
    (hwgs : ∀ p ∈ s.wgs, p.2.rnum ≠ n) (hchildren : ∀ p ∈ s.regions, rcb p.2.bits 0 64 ≠ addr) :
    deactivateRegion s addr = rcmdAnswer (dropBanks { s with regions := mdel s.regions n } q.banks) 0 := by
  have hwg : s.wgs.any (fun p => p.2.rnum = n) = false := by simpa using hwgs
  have hchild : s.regions.any (fun p => rcb p.2.bits 0 64 = addr) = false := by simpa using hchildren
  simp only [deactivateRegion, hfind, hwg, hchild, Bool.or_self, Bool.false_eq_true, if_false]

theorem deactivateRegion_inactive {addr : Nat} (hfind : s.regions.find? (fun p => p.2.addr = addr) = none) :
    deactivateRegion s addr = rcmdAnswer s 10 := by
  simp only [deactivateRegion, hfind]

/-- Settles O41: each command, while none is under way, is its own function on the block at RCMDADDR, which answers by the
check of the block. -/
theorem regionCommands : Obligations.RegionCommands := by
  intro s v addr k r
  refine ⟨rfl, fun hbusy => ?busy, fun hidle hcmd => ?activate, fun old q hidle hcmd hfind => ?reload,
    fun n q hidle hcmd hfind hwgs hchildren => ?unused, fun hidle hcmd hfind => ?inactive⟩
  case busy =>
    change execActivate v s = _ ∧ execReload v s = _ ∧ execDeactivate v s = _
    simp only [execActivate, execReload, execDeactivate, rcmdWrite_busy hbusy, ite_self, and_self]
  case activate =>
    intro u
    have hact : exec (.activate v) s = .next (activateRegion s addr) := execActivate_idle hidle hcmd
    exact ⟨fun hbad => hact.trans (congrArg _ (if_pos hbad)),
      fun hok => hact.trans (congrArg _ (if_neg (Decidable.not_not.mpr hok)))⟩
  case reload =>
    intro u m
    have hrel : exec (.reload v) s = .next (reloadRegion s addr) := execReload_idle hidle hcmd
    refine ⟨fun hbad => hrel.trans (congrArg _ (reloadRegion_refused hfind hbad)), fun hok => ?_⟩
    obtain ⟨t, hanswer, hregion⟩ := reloadRegion_accepted hfind hok
    exact ⟨rcmdAnswer t 0, reloaded q m, hrel.trans (congrArg _ hanswer), rfl, rfl, hregion, rfl, rfl, rfl⟩
  case unused =>
    exact (execDeactivate_idle hidle hcmd).trans (congrArg _ (deactivateRegion_unused hfind hwgs hchildren))
  case inactive => exact (execDeactivate_idle hidle hcmd).trans (congrArg _ (deactivateRegion_inactive hfind))

end Sys2Proof.RegionControl
end

section
/-!
Doorbells (13 R306, R307, 15 R357, R358, R360, R372): the write to DBTRIG, and the commit of the oldest one.
-/

namespace Sys2Proof.Doorbells
open Sys2Proof.Machine Sys2Proof.Synchronisation

/-! ### The write to DBTRIG (15 R357) -/

section Ringing
variable {s : State} {who : Requester} {word : Word64} {ide : Bool}

/-- A request that touches no pseudo-channel waits for none. -/
theorem lampHeld_nil (a : Nat) : lampHeld s a [] = false := by simp [lampHeld]

/-- An agent that waits for no pseudo-channel leaves no queue. -/
theorem lampLeave_eq_self {a : Nat} (h : ∀ q ∈ s.lampq, q.who ≠ a) : lampLeave s a = s := by
  have hkeep : s.lampq.filter (fun q => q.who ≠ a) = s.lampq := List.filter_eq_self.mpr (by simpa using h)
  rw [lampLeave, hkeep]

/-- Every requester's DBTRIG is the one of its doorbell page. -/
theorem writeReg_bellOffset : writeReg who (bellOffset who) word s = ringBell who word s := by
  cases who with
  | tdi t => rfl
  | pf => rfl
  | hart h => simp [writeReg, bellOffset, regWrite, bellWrite]

/-- A doorbell that arrives, with nothing of its requester before it, is rung. -/
theorem execDoorbell_rung (hask : mayAsk s who = true) (harr : arrives s who = true) (hprot : unprotected s who ide = false)
    (hposted : hasPosted s who = false) (hqueue : ∀ q ∈ s.lampq, q.who ≠ reqWho who) :
    execDoorbell ⟨who, ide⟩ word s = .next (ringBell who word s) := by
  have hready : postReady s who (.register (bellOffset who) word) = true := by
    simp [postReady, Posted.units, Posted.addrs, nub, lampHeld_nil]
  simp only [execDoorbell, hostWrite, hask, harr, hprot, post, hposted, hready, doPosted, lampLeave_eq_self hqueue,
    writeReg_bellOffset, Bool.not_true, Bool.not_false, Bool.or_self, Bool.and_self, Bool.false_eq_true, if_false, if_true]

/-- A doorbell behind an earlier posted write of its requester waits its turn. -/
theorem execDoorbell_behind (hask : mayAsk s who = true) (harr : arrives s who = true) (hprot : unprotected s who ide = false)
    (hposted : hasPosted s who = true) : execDoorbell ⟨who, ide⟩ word s =
      .next { s with posted := s.posted ++ [(who, .register (bellOffset who) word)] } := by
  simp only [execDoorbell, hostWrite, hask, harr, hprot, post, hposted, await, Bool.not_true, Bool.false_and, Bool.or_self,
    Bool.false_eq_true, if_false, if_true]

theorem execDoorbell_discarded (harr : arrives s who = false) : execDoorbell ⟨who, ide⟩ word s = .next s := by
  simp only [execDoorbell, hostWrite, harr, Bool.not_false, Bool.or_true, if_true]

theorem execDoorbell_unprotected (hask : mayAsk s who = true) (harr : arrives s who = true)
    (hprot : unprotected s who ide = true) :
    execDoorbell ⟨who, ide⟩ word s = .next { s with completion := some .unsupported } := by
  simp only [execDoorbell, hostWrite, hask, harr, hprot, answer, Bool.not_true, Bool.or_self, Bool.false_eq_true, if_false, if_true]

/-- One doorbell more is pending. -/
theorem length_joinRing (q : Ring) (l : List Ring) : (joinRing q l).length = l.length + 1 := by
  induction l with
  | nil => rfl
  | cons r rest ih =>
    rw [joinRing]
    split
    · rfl
    · rw [List.length_cons, ih, List.length_cons]

/-- A doorbell that names no node is discarded. -/
theorem ringBell_noNode (hd : getNode s (bits word.toNat 0 12) (bits word.toNat 12 10) = none) :
    ringBell who word s = discardBell s who := by simp only [ringBell, hd]

/-- A doorbell that names staged records in reach joins the pending ones, of which there are fewer than 64. -/
theorem ringBell_joins {d : Node} {rnum node n addr : Nat} (hrnum : bits word.toNat 0 12 = rnum)
    (hnode : bits word.toNat 12 10 = node) (hn : bits word.toNat 22 9 = n)
    (haddr : (getBell s who).addr.toNat / 32 * 32 = addr) (hd : getNode s rnum node = some d) (hlo : 1 ≤ n) (hhi : n ≤ 256)
    (hroom : s.rings.length < 64) (hctx : s.host.ctxSet = true) (hname : mayName s who rnum = true)
    (hfirst : (stagingAddr s who addr).isSome = true)
    (hlast : (stagingAddr s who (addr + n * recSize d.bits - 1)).isSome = true) : ringBell who word s =
      { s with rings := joinRing ⟨who, addr, rnum, node, n, s.nextId, s.clock⟩ s.rings, nextId := s.nextId + 1 } := by
  subst hrnum hnode hn haddr
  have hfit : s.rings.length + 1 ≤ Config.maxDoorbells := hroom
  have hcount : (decide (bits word.toNat 22 9 = 0) || decide (256 < bits word.toNat 22 9)) = false := by
    rw [Bool.or_eq_false_iff, decide_eq_false_iff_not, decide_eq_false_iff_not]; omega
  simp only [ringBell, hd, hcount, hctx, hname, hfirst, hlast, Bool.not_true, Bool.or_self, Bool.and_self,
    Bool.false_eq_true, if_false]
  have hlen : ∀ q, (joinRing q s.rings).length ≤ Config.maxDoorbells := fun q =>
    Nat.le_trans (Nat.le_of_eq (length_joinRing q s.rings)) hfit
  rw [List.take_of_length_le (hlen _), List.drop_of_length_le (hlen _)]

end Ringing

/-! ### DOORBELL_COMMIT (13 R306, R307) -/

section Commit
variable {s : State} {q : Ring} {rest : List Ring} {d : Node}

/-- What the commit of a doorbell answers that finds its slots (14 R346): its pages are asked for, or its records are committed. -/
theorem execDoorbellCommit_takes (hrings : s.rings = q :: rest) (hckpt : s.ckpt.busy ≠ 1) (hcame : q.came < s.clock)
    (hturn : inOrder s clsAlloc 0 = true) (hd : getNode s q.rnum q.node = some d) (hnone : d.waiters = [])
    (htakes : ringTakes d q.n = true) : execDoorbellCommit s =
      let asid := asidOf s q.rnum
      let who := cooperWho (cooperOf s q.rnum)
      let pages := contextMiss s asid who (ringTake d q.n).2 (q.n * recSize d.bits)
      if pages = [] then .next (pieceDone (commitBell (modNode { s with rings := rest } q.rnum q.node
        (fun _ => freeSlots (ringTake d q.n).1)) q asid (ringTake d q.n).2 (q.n * recSize d.bits)) who)
      else .next (askPieces s (240 * cooperOf s q.rnum) asid who pages) := by
  have hkeep : { d with waiters := [] } = d := by rw [← hnone]
  have hcore : 120 * (2 * cooperOf s q.rnum) = 240 * cooperOf s q.rnum := by omega
  simp only [execDoorbellCommit, hrings, hckpt, Nat.not_le.mpr hcame, hturn, hd, hnone, htakes, hkeep, hcore,
    List.filter_nil, decide_false, Bool.not_true, Bool.or_self, Bool.true_and, Bool.false_eq_true, if_false, if_true,
    Bool.not_eq_true', List.isEmpty_eq_false_iff, ne_eq, ite_not]

theorem execDoorbellCommit_waits (hrings : s.rings = q :: rest) (hckpt : s.ckpt.busy ≠ 1) (hcame : q.came < s.clock)
    (hturn : inOrder s clsAlloc 0 = true) (hd : getNode s q.rnum q.node = some d) (hnone : d.waiters = [])
    (htakes : ringTakes d q.n = false) : execDoorbellCommit s =
      .next (modNode s q.rnum q.node (fun d => { d with waiters := d.waiters ++ [.bell q.ticket] })) := by
  simp only [execDoorbellCommit, hrings, hckpt, Nat.not_le.mpr hcame, hturn, hd, hnone, htakes, decide_false,
    Bool.not_true, Bool.or_self, Bool.and_false, List.any_nil, Bool.false_eq_true, if_false]


/-- None is committed during a checkpoint or in the cycle of its arrival. -/
theorem execDoorbellCommit_barred (hrings : s.rings = q :: rest) (hbar : s.ckpt.busy = 1 ∨ s.clock ≤ q.came) :
    execDoorbellCommit s = .next s := by
  have : (decide (s.ckpt.busy = 1) || decide (s.clock ≤ q.came)) = true := by simpa using hbar
  simp only [execDoorbellCommit, hrings, this, Bool.true_or, if_true]

end Commit

/-- Settles O42: a doorbell that arrives first is rung, and is discarded or joins the pending ones; the oldest in its turn finds
its slots or waits for them. -/
theorem doorbellEvents : Obligations.DoorbellEvents := by
  intro s who word ide rnum node n addr asks clear
  refine ⟨fun ⟨hask, harr, hprot⟩ ⟨hposted, hqueue⟩ hd => ?noNode,
    fun d ⟨hask, harr, hprot⟩ ⟨hposted, hqueue⟩ hd hlo hhi hroom hctx hname hfirst hlast => ?joins,
    fun ⟨hask, harr, hprot⟩ hposted => execDoorbell_behind hask harr hprot hposted, fun harr => execDoorbell_discarded harr,
    fun hask harr hprot => execDoorbell_unprotected hask harr hprot,
    fun q rest d hrings hckpt hcame hturn hd hnone htakes => ?takes,
    fun q rest d hrings hckpt hcame hturn hd hnone htakes => execDoorbellCommit_waits hrings hckpt hcame hturn hd hnone htakes,
    fun q rest hrings hbar => execDoorbellCommit_barred hrings hbar⟩
  case noNode => exact (execDoorbell_rung hask harr hprot hposted hqueue).trans (congrArg _ (ringBell_noNode hd))
  case joins =>
    exact (execDoorbell_rung hask harr hprot hposted hqueue).trans
      (congrArg _ (ringBell_joins rfl rfl rfl rfl hd hlo hhi hroom hctx hname hfirst hlast))
  case takes =>
    intro asid cooper pages
    have hcommit := execDoorbellCommit_takes hrings hckpt hcame hturn hd hnone htakes
    exact ⟨fun hpages => hcommit.trans (if_pos hpages), fun hpages => hcommit.trans (if_neg hpages)⟩

end Sys2Proof.Doorbells
end

section
/-!
The instructions and events that take or end a trap (14 R325, R333 to R341, 16 R375): each answers the entry of its trap,
the return from the frame, or the end of its workgroup.
-/

namespace Sys2Proof.TrapTaking
open Sys2Proof.Machine Sys2Proof.WarpControl

/-! ### What the entry of a trap answers -/

/-- Settles O31: the entry of a ready trap ends in the handler's state. -/
theorem trapEntryState : Obligations.TrapEntryState :=
  fun _ _ _ _ _ _ _ _ hready => TrapEntry.takeTrap_entered hready

/-- An outcome that is the entry of a trap is the handler's state wherever the trap is ready. -/
theorem entered_of_eq_takeTrap {o : Out} {s : State} {t : Trap} {a : Site} (ho : o = takeTrap s t a) :
    o = takeTrap s t a ∧ ∀ x p0 p u key, TrapReady s t a x p0 p u key → ∃ v, o = .next v ∧ TrapEntered s t a x p0 p v :=
  ⟨ho, fun _ _ _ _ _ hready => ho ▸ TrapEntry.takeTrap_entered hready⟩

section DoubleFault
variable {s : State} {t : Trap} {a : Site} {x : Wg} {p : Warp}

/-- A trap at trap level 1 (14 R340). -/
theorem takeTrap_atLevelOne (hx : getWg s a.g = some x) (hp : getWarp s a.g a.w = some p) (hbank : p.bank.isSome = true) :
    takeTrap s t a =
      .next (clearIssuer (doubleFault (if t.cause = 2 then freeze s 3 else s) a.g a.w 3 t.word a.pc t.faddr)) := by
  simp only [takeTrap, hx, hp, hbank, if_true]

/-- A trap in a context without a handler (14 R340). -/
theorem takeTrap_noHandler (hx : getWg s a.g = some x) (hp : getWarp s a.g a.w = some p) (hbank : p.bank = none)
    (hnone : ctxBits (entryState s t a x p) x.asid 128 64 = 0) :
    takeTrap s t a = .next (clearIssuer (doubleFault (entryState s t a x p) a.g a.w 2 t.word a.pc t.faddr)) := by
  unfold entryState at hnone ⊢
  simp only [takeTrap, hx, hp, hbank, Option.isSome_none, Bool.false_eq_true, if_false, hnone, if_true]

end DoubleFault

/-- Settles O33: at trap level 1 the entry ends before it has begun, without a handler once it has begun. -/
theorem doubleFaults : Obligations.DoubleFaults := by
  intro s t a x p hx hp
  exact ⟨fun hbank => takeTrap_atLevelOne hx hp hbank, fun hbank hnone => takeTrap_noHandler hx hp hbank hnone⟩

/-! ### TRAP, BRK, TRAP.RET and VARY -/

section Instructions
variable {f : WarpWord} {s : State} {c : Ctx}

theorem execTrap_taken (h : Ready .trap f s c) (hp : f.guard = 0 ∨ c.p ≠ 0) : execTrap f s =
    takeTrap s { cause := 9, sub := imm16 f, aux := imm16 f } (siteOf s c (encodeWord .trap f) (some .trap) f true) :=
  runWord_trap h (if_pos hp)

theorem execTrap_passed (h : Ready .trap f s c) (hg : f.guard ≠ 0) (hp : c.p = 0) :
    execTrap f s = .next (clearIssuer (past .trap f s c)) :=
  runWord_done h (if_neg fun hor => hor.elim hg (absurd hp))

theorem execBrk_taken (h : Ready .brk f s c) : execBrk f s =
    takeTrap s { cause := 8, sub := 2, aux := imm16 f } (siteOf s c (encodeWord .brk f) (some .brk) f true) :=
  runWord_trap h rfl

theorem execTrapRet_levelZero (h : Ready .trapRet f s c) (hbank : c.warp.bank = none) :
    execTrapRet f s = takeTrap s trapOperand (siteOf s c (encodeWord .trapRet f) (some .trapRet) f true) :=
  runWord_trap h (if_pos (by rw [hbank, Option.isNone_none]))

/-- What a TRAP.RET reads whose frame is at fr (14 R335). -/
def retChecked (f : WarpWord) (s : State) (c : Ctx) (fr : Nat) : Checked :=
  checkLanes s c.agent 0 4 .read false
    (retWords fr (retReads (modBits f 0 2) (modBits f 2 2) ((sB c .trapRet f).setWidth 32 &&& trappedMask c.warp)))

/-- A TRAP.RET at trap level 1 whose words may be read and are clean does with them what its mode says. -/
theorem execTrapRet_levelOne {ps : List Place} (h : Ready .trapRet f s c) (hbank : c.warp.bank.isSome = true)
    (hret : returning s c.g c.w = false) (hps : retChecked f s c (frameAddr s c.wg c.w) = .ok ps)
    (hatoms : ∀ q ∈ ps, ∀ k, q.key = some k → warpAtomMeets s c.g c.w k 4 = false) (hgone : nowGone s c 0 ps = true)
    (hclean : wordsBad s ps = false) :
    let u := readNow (past .trapRet f s c) c 0 ps
    let key := frameKey (frameAddr s c.wg c.w) ps
    (modBits f 0 2 ≠ 2 → (modBits f 2 2 ≠ 0 → xWaits s c (retVecs u c key (modBits f 2 2)) = false) → execTrapRet f s =
      .next (clearIssuer (returnTrap u c key (modBits f 0 2) (modBits f 2 2) ((sB c .trapRet f).setWidth 32)))) ∧
    (modBits f 0 2 = 2 → execTrapRet f s = .next (clearIssuer (killByRet u c (some key)))) := by
  intro u key
  have hnone : c.warp.bank.isNone = false := by simpa using hbank
  have hfree : ps.any (fun p => p.key.any (fun k => warpAtomMeets s c.g c.w k 4)) = false := by
    simpa only [List.any_eq_false, Option.any_eq_true, not_exists, not_and, Bool.not_eq_true] using hatoms
  unfold retChecked at hps
  refine ⟨fun hmode hwaits => runWord_done h ?_, fun hmode => runWord_done h ?_⟩
  · have hready : (decide (modBits f 2 2 ≠ 0) && xWaits s c (retVecs u c key (modBits f 2 2))) = false := by
      simpa using hwaits
    simp only [hnone, hret, hps, hfree, hgone, hclean, hmode, Bool.not_true, Bool.false_eq_true, if_false]
    exact if_neg (ne_true_of_eq_false hready)
  · rw [hmode] at hps
    simp only [hnone, hret, hmode, hps, hfree, hgone, hclean, Bool.not_true, Bool.false_eq_true, if_false, if_true]
    rfl

/-- Offset in the constant image at which a VARY's table holds the entry of PLEVEL (16 R375). -/
def varyOffset (f : WarpWord) (s : State) (c : Ctx) : Nat :=
  (sA c f).toNat % 2 ^ 32 + 8 * ((getLg s c.wg.core c.warp.lg).plevel % 4)

/-- A VARY whose entry of the table is readable and clean goes to the address that it holds (16 R375). -/
theorem execVary_goes {p : Place} {k : Nat} (h : Ready .vary f s c) (hin : varyOffset f s c + 8 ≤ nd (nodeBits s c.wg) 288 17)
    (haligned : (sA c f).toNat % 2 ^ 32 % 8 = 0) (hkey : p.key = some k) (hclean : poisonedAt s k 8 = false)
    (hps : checkLanes s c.agent 3 8 .read false [((lowest c.frag).getD 0, BitVec.ofNat 64 (varyOffset f s c))] = .ok [p])
    (hgone : nowGone s c 3 [p] = true) :
    let u := readNow (past .vary f s c) c 3 [p]
    let tgt : Word64 := BitVec.ofNat 64 (nd (nodeBits s c.wg) 64 64 + varyOffset f s c +
      loadNat (past .vary f s c) u c.wg.core c.g c.w 3 p)
    tgt.toNat % 8 = 0 → execVary f s = .next (clearIssuer (setPc u c.g c.w c.e tgt)) := by
  intro u tgt htgt
  refine runWord_done h ?_
  have hsum := Nat.add_assoc (nd (nodeBits s c.wg) 64 64) ((sA c f).toNat % 2 ^ 32) (8 * ((getLg s c.wg.core c.warp.lg).plevel % 4))
  unfold varyOffset at hin hps
  simp only [Nat.not_lt.mpr hin, haligned, hps, hgone, hkey, hclean, List.any_cons, List.any_nil, Option.any_some,
    List.map_cons, List.map_nil, List.foldl_cons, List.foldl_nil, Nat.zero_add, hsum, Bool.or_false,
    Bool.not_true, Bool.false_eq_true, ne_eq, not_true_eq_false, if_false]
  exact if_neg (ne_true_of_eq_false (badPc_eq_false htgt))

end Instructions

/-- Settles O30: TRAP by its lanes, BRK always, TRAP.RET by the trap level and its mode, VARY past its three tests. -/
theorem trapInstructions : Obligations.TrapInstructions := by
  intro f s c fr core nb o at' lane
  refine ⟨fun h hp => entered_of_eq_takeTrap (execTrap_taken h hp), fun h hg hp => execTrap_passed h hg hp,
    fun h => entered_of_eq_takeTrap (execBrk_taken h), fun h hbank => execTrapRet_levelZero h hbank,
    fun ps hbank hret => ?ret,
    fun p k hin haligned hkey hclean hps hgone h => execVary_goes h hin haligned hkey hclean hps hgone⟩
  case ret =>
    intro commit mode width hps hatoms hgone hclean h
    exact execTrapRet_levelOne h hbank hret hps hatoms hgone hclean

/-! ### TRAP_ENTRY and LATE_FAULT -/

/-- Where a late fault of no token stands first, a boundary meets its trap (14 R336). -/
theorem pendingTrap_of_late {p : Warp} {l : Late} {rest : List Late} (hlate : p.late = l :: rest) (htok : l.token = none)
    (waits : Nat → Bool) : pendingTrap p waits = some l.trap := by
  simp [pendingTrap, pendingLate, hlate, htok]

section Boundary
variable {s t : State} {g w e v : Nat} {x : Wg} {p : Warp} {fr : Frag} {tr : Trap}

/-- A READY fragment at trap level 0 whose warp has a trap pending takes it, with the word at PC in its frame. -/
theorem boundaryTrap_pending (hx : getWg s g = some x) (hp : getWarp s g w = some p) (hbank : p.bank = none)
    (hdue : p.due = none) (hfr : mget p.frags e = some fr) (hready : fr.state = .ready)
    (hpend : pendingTrap p (fun _ => false) = some tr) (hfetch : fetchWord s x (warpKey g w) fr.pc.toNat = .ok v t) :
    boundaryTrap s g w e = some (takeTrap t tr (fragSite g w e p fr v)) := by
  simp only [boundaryTrap, hx, hp, hbank, hdue, hfr, hpend, hready, if_true, hfetch]

/-- The lowest READY fragment takes the trap of its warp's boundary, outside long-word mode and where the warp may issue. -/
theorem execTrapEntry_boundary (hx : getWg s g = some x) (hp : getWarp s g w = some p) (hissue : x.mayIssue = true)
    (hlw : lwOn s x.core p.lg = false) (hnolw : p.lw = none)
    (hfirst : p.frags.find? (fun q => q.2.state = .ready) = some (e, fr)) :
    execTrapEntry g w s = (boundaryTrap s g w e).getD (.next s) := by
  simp only [execTrapEntry, hx, hp, hissue, hlw, hnolw, hfirst, Option.any_some, Option.isSome_none, Bool.not_false,
    Bool.and_self, Bool.not_true, Bool.or_self, Bool.false_eq_true, if_false]

end Boundary

/-- Settles O38: the first late fault is the boundary's trap; a lasting error is of the load, or else of the atomic, in flight. -/
theorem trapEvents : Obligations.TrapEvents := by
  intro s g w id x p e fr l rest
  refine ⟨fun hx hp hissue hlw hnolw hbank hdue hfirst hfr hlate htok v t hfetch => entered_of_eq_takeTrap ?late,
    fun d r rs hload hreads => ?load, fun a hnone hatom => ?atom⟩
  case late =>
    have hready : fr.state = .ready := by simpa using List.find?_some hfirst
    change execTrapEntry g w s = _
    rw [execTrapEntry_boundary hx hp hissue hlw hnolw hfirst,
      boundaryTrap_pending hx hp hbank hdue hfr hready (pendingTrap_of_late hlate htok _) hfetch]
    rfl
  case load =>
    change execLateFault id 0x0B 1 s = _
    simp only [execLateFault, hload, hreads, and_self, if_true]
  case atom =>
    change execLateFault id 0x0B 2 s = _
    simp only [execLateFault, hnone, hatom, and_self, if_true]

end Sys2Proof.TrapTaking
end

section
/-!
The events of translation (14 R346 to R349, 15 R356): how a walk, a Translation Request and an invalidation end.
-/

namespace Sys2Proof.Translations
open Sys2Proof.Machine

/-! ### Walks (14 R346, R349) -/

section Walks
variable {s : State} {id : Nat} {k : Walk}

/-- A walk of the tables that no entry ends. -/
theorem execPageWalkComplete_fault {sub : Nat}
    (hk : s.walks.find? (fun k => k.id = id && k.state = .walking && walks s k) = some k)
    (hend : walkContext s k.asid (4096 * k.va) = .fault sub) :
    execPageWalkComplete id s = .next (setWalk (walkReads s k.asid (4096 * k.va)) id (.failed sub)) := by
  simp only [execPageWalkComplete, hk, hend]

/-- The state in which a walk has read its leaf and the TLBs hold it (14 R348). -/
def walkCached (s : State) (k : Walk) (size pa mtype : Nat) (r w x : Bool) : State :=
  let u := walkReads s k.asid (4096 * k.va)
  if (tlbFind u k.core k.asid (4096 * k.va) false).isSome then u
    else fillTlb u k.core k.asid size (4096 * k.va) (leafAddr u pa mtype) mtype r w x

/-- A walk that ends in a leaf is over, unless the page is one of the host: then it fails without ATS, and asks the host where
no TLB holds the host's answer. -/
theorem execPageWalkComplete_leaf {size pa mtype : Nat} {r w x : Bool}
    (hk : s.walks.find? (fun k => k.id = id && k.state = .walking && walks s k) = some k)
    (hend : walkContext s k.asid (4096 * k.va) = .leaf size pa mtype r w x) :
    let t := walkCached s k size pa mtype r w x
    execPageWalkComplete id s =
      if mtype = 1 ∨ mtype = 2 then
        if ctxBits t k.asid 399 1 = 0 then .next (setWalk t id (.failed 5))
        else if (tlbFind t k.core k.asid (4096 * k.va) true).isSome then .next (endWalk t id)
        else .next (setWalk t id (.ats mtype))
      else .next (endWalk t id) := by
  simp only [execPageWalkComplete, hk, hend]
  rfl

theorem execAtsCompletion_granted {m pa : Nat} {rd wr : Bool} (hk : s.walks.find? (fun k => k.id = id) = some k)
    (hst : k.state = .ats m) :
    let page := (k.asid, k.va, pa / 4096 % 2 ^ 52)
    let t := if m = 1 then { s with atsPages := page :: s.atsPages.filter (fun p => p ≠ page) } else s
    execAtsCompletion id (.granted pa rd wr) s = .next (endWalk (tlbInsert t
      ⟨480 + stackOf k.core, k.asid, 12, k.va, pa / 4096 * 4096 % 2 ^ 64, m + 4, rd, wr, false⟩) id) := by
  simp only [execAtsCompletion, hk, hst, atsMtype]

theorem execAtsCompletion_notPresent {m : Nat} (hk : s.walks.find? (fun k => k.id = id) = some k) (hst : k.state = .ats m) :
    execAtsCompletion id .notPresent s = .next (setWalk s id (.pri m)) := by
  simp only [execAtsCompletion, hk, hst]

theorem execAtsCompletion_refused {m : Nat} (hk : s.walks.find? (fun k => k.id = id) = some k) (hst : k.state = .ats m) :
    execAtsCompletion id .refused s = .next (setWalk s id (.failed 5)) := by
  simp only [execAtsCompletion, hk, hst]

end Walks

/-! ### Invalidation (14 R348) -/

section Invalidation
variable {s : State} {stack : Nat} {v : Word64}

/-- A command of another form than FORM 3 invalidates while its stack has none under way. -/
theorem tlbWrite_idle (hidle : mgetD s.host.tlbBusy stack 0 = 0) (hform : v.toNat % 4 ≠ 3) :
    tlbWrite stack v s = renewWindows (dropTlb { s with host := { s.host with
        tlbAsid := mset s.host.tlbAsid stack (bits v.toNat 2 11), tlbBusy := mset s.host.tlbBusy stack (v.toNat % 4 + 1) } }
      (covered (v.toNat % 4) (bits v.toNat 2 11) (mgetD s.host.tlbAddr stack 0).toNat (mgetD s.host.tlbLen stack 0).toNat)) := by
  simp only [tlbWrite, hidle, hform, ne_eq, not_true_eq_false, decide_false, Bool.or_self, Bool.false_eq_true, if_false]

/-- A command is discarded while one is under way. -/
theorem tlbWrite_busy (hbusy : mgetD s.host.tlbBusy stack 0 ≠ 0) : tlbWrite stack v s = s := by
  simp only [tlbWrite, hbusy, ne_eq, not_false_eq_true, decide_true, Bool.true_or, if_true]

theorem execTlbInvalidationComplete_over {b : Nat} (hb : mgetD s.host.tlbBusy stack 0 = b) (hbusy : b ≠ 0)
    (hdone : usesPending s (decide (b = 1)) (mgetD s.host.tlbAsid stack 0) = false) :
    execTlbInvalidationComplete stack s = .next (rereadContexts
      { s with host := { s.host with tlbBusy := mset s.host.tlbBusy stack 0 } } (decide (b = 1)) (mgetD s.host.tlbAsid stack 0)) := by
  simp only [execTlbInvalidationComplete, hb, hbusy, hdone, decide_false, Bool.or_self, Bool.false_eq_true, if_false]

end Invalidation

/-- Settles O43: a walk by how it ends and by its page's MTYPE, a completion by its result, a command by whether its stack is busy. -/
theorem translationEvents : Obligations.TranslationEvents := by
  intro s id stack k v
  refine ⟨fun sub hk hend => execPageWalkComplete_fault hk hend, fun size pa mtype r w x hk hend => ?leaf,
    fun m pa rd wr hk hst => execAtsCompletion_granted hk hst,
    fun m hk hst => ⟨execAtsCompletion_notPresent hk hst, execAtsCompletion_refused hk hst⟩,
    fun m ok hk hst => ?pri, fun pasid va len => rfl, fun hidle => ?idle, fun hbusy => ?busy,
    fun b hb hbusy hdone => execTlbInvalidationComplete_over hb hbusy hdone, rfl⟩
  case leaf =>
    have hleaf := execPageWalkComplete_leaf hk hend
    intro u t
    refine ⟨fun h1 h2 => hleaf.trans (if_neg (not_or.mpr ⟨h1, h2⟩)),
      fun hhost hats => hleaf.trans ((if_pos hhost).trans (if_pos hats)),
      fun hhost hats hnone => hleaf.trans ((if_pos hhost).trans ((if_neg hats).trans (if_neg ?_)))⟩
    change ¬ (tlbFind t k.core k.asid (4096 * k.va) true).isSome = true
    rw [hnone, Option.isSome_none]
    exact Bool.false_ne_true
  case pri =>
    change execPriResponse id ok s = _
    simp only [execPriResponse, hk, hst]
  case idle =>
    intro form asid t
    have hdrop (hform : form ≠ 3) : tlbWrite stack v s = t := tlbWrite_idle hidle hform
    refine ⟨fun h => ?_, fun h => ?_, fun h => ?_⟩ <;>
      exact congrArg Host.Outcome.next ((if_pos h).trans (hdrop (by omega)))
  case busy =>
    have hkeep (form : Nat) : (if v.toNat % 4 = form then tlbWrite stack v s else s) = s := by
      rw [tlbWrite_busy hbusy, ite_self]
    exact ⟨congrArg _ (hkeep 0), congrArg _ (hkeep 1), congrArg _ (hkeep 2)⟩

end Sys2Proof.Translations
end

section
/-!
The byte at the point of coherence while memory-side slices bring in and replace lines (07 R170, R174): a byte that the host has,
or that its slice will write back, stays what it is.
-/

namespace Sys2Proof.SliceMemory
open Sys2Proof.Machine

/-! ### Bytes of a filtered memory -/

theorem readByte_filter_kept {m : List Host.Cell} {p : Host.Cell → Bool} {k : Nat} (h : ∀ c, c.1 = k → p c = true) :
    readByte (m.filter p) k = readByte m k := by
  induction m with
  | nil => rfl
  | cons c t ih =>
    simp only [readByte, mgetD] at ih ⊢
    by_cases hc : c.1 = k
    · simp [h c hc, mget, hc.symm]
    · by_cases hp : p c = true <;> simp [hp, mget, Ne.symm hc, ih]

theorem readByte_absent {m : List Host.Cell} {k : Nat} (h : ∀ c ∈ m, c.1 ≠ k) : readByte m k = blank := by
  induction m with
  | nil => rfl
  | cons c t ih =>
    obtain ⟨hc, ht⟩ := List.forall_mem_cons.mp h
    simpa [readByte, mgetD, mget, Ne.symm hc] using ih ht

theorem filter_absent {m : List Host.Cell} {p : Host.Cell → Bool} {k : Nat} (h : ∀ c, c.1 = k → p c = false) :
    ∀ c ∈ m.filter p, c.1 ≠ k := fun c hc hk => by simp [h c hk] at hc

/-! ### A key that is listed once -/

/-- Cells of key k stand behind cells of smaller keys only; so there is one at most. -/
def inPlace (k : Nat) (m : List Host.Cell) : Prop := m.Pairwise (fun a b => b.1 = k → a.1 < k)

theorem inPlace_of_absent {m : List Host.Cell} {k : Nat} (h : ∀ c ∈ m, c.1 ≠ k) : inPlace k m :=
  List.pairwise_of_forall_mem_list fun _ _ b hb hk => absurd hk (h b hb)

theorem inPlace_filter {m : List Host.Cell} {k : Nat} (p : Host.Cell → Bool) (h : inPlace k m) : inPlace k (m.filter p) :=
  List.Pairwise.filter p h

theorem inPlace_mset {m : List Host.Cell} {k : Nat} (l : Nat) (b : Byte) (h : inPlace k m) : inPlace k (mset m l b) := by
  induction m with
  | nil => simp [inPlace, mset]
  | cons c t ih =>
    obtain ⟨j, x⟩ := c
    obtain ⟨hj, ht⟩ := List.pairwise_cons.mp h
    simp only [mset]
    split
    · next hlt =>
      refine List.pairwise_cons.mpr ⟨fun d hd hk => ?_, h⟩
      rcases List.mem_cons.mp hd with rfl | hd
      · exact hk ▸ hlt
      · exact Nat.lt_trans hlt (hj d hd hk)
    · split
      · next heq => exact List.pairwise_cons.mpr ⟨fun d hd hk => heq ▸ hj d hd hk, ht⟩
      · next hge hne =>
        refine List.pairwise_cons.mpr ⟨fun d hd hk => ?_, ih ht⟩
        rcases mem_mset hd with rfl | hd
        · simp only at hk ⊢; omega
        · exact hj d hd hk

theorem inPlace_writeByte {m : List Host.Cell} {k : Nat} (l : Nat) (b : Byte) (h : inPlace k m) : inPlace k (writeByte m l b) := by
  unfold writeByte mput
  split
  · exact inPlace_filter _ h
  · exact inPlace_mset l b h

theorem inPlace_writeCells {m : List Host.Cell} {k : Nat} (cs : List Host.Cell) (h : inPlace k m) :
    inPlace k (writeCells m cs) :=
  List.foldlRecOn (motive := inPlace k) cs _ h fun _ hm c _ => inPlace_writeByte c.1 c.2 hm

/-! ### The last of the cells of a key -/

theorem lastCell_absent {cs : List Host.Cell} {k : Nat} (b : Byte) (h : ∀ c ∈ cs, c.1 ≠ k) :
    cs.foldl (fun b c => if c.1 = k then c.2 else b) b = b :=
  List.foldlRecOn (motive := fun x => x = b) cs _ rfl fun _ hx c hc => by rw [if_neg (h c hc), hx]

/-- Where a key is listed once, the last of its cells is the one that is read. -/
theorem lastCell_inPlace {m : List Host.Cell} {k : Nat} (h : inPlace k m) :
    m.foldl (fun b c => if c.1 = k then c.2 else b) blank = readByte m k := by
  induction m with
  | nil => rfl
  | cons c t ih =>
    obtain ⟨hc, ht⟩ := List.pairwise_cons.mp h
    by_cases hk : c.1 = k
    · have hrest : ∀ d ∈ t, d.1 ≠ k := fun d hd hdk => absurd (hc d hd hdk) (by omega)
      rw [List.foldl_cons, if_pos hk, lastCell_absent _ hrest]
      simp [readByte, mgetD, mget, hk.symm]
    · rw [List.foldl_cons, if_neg hk, ih ht]
      simp [readByte, mgetD, mget, Ne.symm hk]

/-- Cells that give a key one value alone leave it that value. -/
theorem lastCell_eq {cs : List Host.Cell} {k : Nat} {b : Byte} (hall : ∀ c ∈ cs, c.1 = k → c.2 = b)
    (hsome : b = blank ∨ ∃ c ∈ cs, c.1 = k) : cs.foldl (fun b c => if c.1 = k then c.2 else b) blank = b := by
  rcases hsome with rfl | ⟨c, hc, hk⟩
  · exact List.foldlRecOn (motive := fun x => x = blank) cs _ rfl fun x hx c hc => by
      split
      · next hk => exact hall c hc hk
      · exact hx
  · obtain ⟨before, after, rfl⟩ := List.append_of_mem hc
    rw [List.foldl_append, List.foldl_cons, if_pos hk]
    exact List.foldlRecOn (motive := fun x => x = b) after _ (hall c hc hk) fun x hx d hd => by
      split
      · next hdk => exact hall d (by simp [hd]) hdk
      · exact hx

/-! ### Copying a range -/

section CopyRange
variable {m : List Host.Cell} {src dst n k : Nat}

/-- A range is copied by clearing the destination and writing the source's cells there. -/
theorem copyRange_eq : copyRange m src dst n = writeCells (m.filter (fun c => c.1 < dst ∨ dst + n ≤ c.1))
    ((m.filter (fun c => src ≤ c.1 ∧ c.1 < src + n)).map (fun c => (c.1 - src + dst, c.2))) := by
  simp only [copyRange, writeCells, List.foldl_map]

theorem readByte_copyRange_outside (h : k < dst ∨ dst + n ≤ k) : readByte (copyRange m src dst n) k = readByte m k := by
  rw [copyRange_eq, readByte_writeCells_ne, readByte_filter_kept]
  · rintro c rfl; simpa using h
  · intro c hc
    obtain ⟨d, hd, rfl⟩ := List.mem_map.mp hc
    have := (List.mem_filter.mp hd).2
    simp only [decide_eq_true_eq] at this
    simp only; omega

theorem readByte_copyRange_inside {j : Nat} (hj : j < n) (h : inPlace (src + j) m) :
    readByte (copyRange m src dst n) (dst + j) = readByte m (src + j) := by
  have hcleared : readByte (m.filter (fun c => c.1 < dst ∨ dst + n ≤ c.1)) (dst + j) = blank :=
    readByte_absent (filter_absent fun c hc => by simp; omega)
  rw [copyRange_eq, readByte_writeCells, hcleared, List.foldl_map]
  calc (m.filter (fun c => src ≤ c.1 ∧ c.1 < src + n)).foldl (fun b c => if c.1 - src + dst = dst + j then c.2 else b) blank
      = (m.filter (fun c => src ≤ c.1 ∧ c.1 < src + n)).foldl (fun b c => if c.1 = src + j then c.2 else b) blank := by
        refine List.foldl_ext _ _ _ fun b c hc => ?_
        have := (List.mem_filter.mp hc).2
        simp only [decide_eq_true_eq] at this
        exact if_congr (by omega) rfl rfl
    _ = readByte (m.filter (fun c => src ≤ c.1 ∧ c.1 < src + n)) (src + j) := lastCell_inPlace (inPlace_filter _ h)
    _ = readByte m (src + j) := readByte_filter_kept fun c hc => by simp; omega

theorem inPlace_copyRange (h : inPlace k m) : inPlace k (copyRange m src dst n) := by
  rw [copyRange_eq]
  exact inPlace_writeCells _ (inPlace_filter _ h)

end CopyRange

theorem readByte_zeroRange_outside {s : State} {k l n : Nat} (h : k < l ∨ l + n ≤ k) :
    readByte (zeroRange s l n).mem k = readByte s.mem k :=
  readByte_filter_kept fun c hc => by simpa [hc] using h

theorem zeroRange_absent {s : State} {k l n : Nat} (hlo : l ≤ k) (hhi : k < l + n) : ∀ c ∈ (zeroRange s l n).mem, c.1 ≠ k :=
  filter_absent fun c hc => by simp; omega

/-! ### What holds a byte at the point of coherence -/

/-- State t has the bytes and the host lines of state s. -/
def SameView (s t : State) : Prop := t.mem = s.mem ∧ t.hostLines = s.hostLines

theorem SameView.trans {s t u : State} (h : SameView s t) (h' : SameView t u) : SameView s u :=
  ⟨h'.1.trans h.1, h'.2.trans h.2⟩

theorem sameView_foldl {α : Type} (f : State → α → State) (hf : ∀ s a, SameView s (f s a)) (l : List α) (s : State) :
    SameView s (l.foldl f s) :=
  List.foldlRecOn (motive := SameView s) l f ⟨rfl, rfl⟩ fun _ h a _ => h.trans (hf _ a)

theorem sameView_freeze (s : State) (n : Nat) : SameView s (freeze s n) := by
  unfold freeze
  split <;> exact ⟨rfl, rfl⟩

theorem sameView_recordEntry (s : State) (cls addr r : Nat) : SameView s (recordEntry s cls addr r) := by
  unfold recordEntry
  split <;> exact ⟨rfl, rfl⟩

theorem sameView_fireTrigger (s : State) (i : Nat) : SameView s (fireTrigger s i) := by
  unfold fireTrigger
  simp only
  split
  · have hfired := sameView_freeze
      (fireMsix { s with obs := { s.obs with trigs := mset s.obs.trigs i (mgetD s.obs.trigs i 0 + 0x100000000) } } 3) 6
    exact hfired
  · exact ⟨rfl, rfl⟩

theorem sameView_countAsk (s : State) (since k : Nat) : SameView s (countAsk s since k) := by
  unfold countAsk
  split
  · have hrecorded := sameView_foldl (fun s r => recordEntry s 2 k r) (fun s r => sameView_recordEntry s 2 k r) (List.range 4) s
    exact hrecorded.trans (sameView_foldl fireTrigger sameView_fireTrigger _ _)
  · exact ⟨rfl, rfl⟩

/-- The byte of key k at the point of coherence is b, whatever lines the slices replace: where a slice holds its line of host memory,
the line is dirty. -/
structure Holds (s : State) (k : Nat) (b : Byte) : Prop where
  byte : pocByte s k = b
  dirty : isHostDev k = true → hostHeld s (hostLine k) = true → (hostLine k, true) ∈ s.hostLines ∧ inPlace k s.mem

section Holding
variable {s t : State} {k l : Nat} {b : Byte}

/-- A step keeps a byte that leaves its cell as it is and, in the cached view of host memory, its line and the host's cell too. -/
theorem Holds.transfer (h : Holds s k b) (hread : readByte t.mem k = readByte s.mem k)
    (hheld : isHostDev k = true → hostHeld t (hostLine k) = hostHeld s (hostLine k))
    (hdirty : isHostDev k = true → (hostLine k, true) ∈ s.hostLines → (hostLine k, true) ∈ t.hostLines)
    (hplace : inPlace k s.mem → inPlace k t.mem)
    (hback : isHostDev k = true → readByte t.mem (k - 2 ^ 66 + 2 ^ 65) = readByte s.mem (k - 2 ^ 66 + 2 ^ 65)) : Holds t k b := by
  obtain ⟨hbyte, hset⟩ := h
  refine ⟨hbyte ▸ ?_, fun hdev hh => ?_⟩
  · cases hdev : isHostDev k with
    | true => simp only [pocByte, hdev, hheld hdev, hread, hback hdev]
    | false => simp only [pocByte, hdev, hread, Bool.false_and, Bool.false_eq_true, if_false]
  · obtain ⟨hmem, hpl⟩ := hset hdev (hheld hdev ▸ hh)
    exact ⟨hdirty hdev hmem, hplace hpl⟩

theorem Holds.of_sameView (h : Holds s k b) (hv : SameView s t) : Holds t k b := by
  obtain ⟨hm, hl⟩ := hv
  exact h.transfer (by rw [hm]) (fun _ => by rw [hostHeld, hostHeld, hl]) (fun _ => by rw [hl]; exact id) (by rw [hm]; exact id)
    (fun _ => by rw [hm])

/-! ### Lines that leave their slice (07 R170, R174) -/

/-- Every line of host memory that a slice holds is one of the 2^64 bytes of the bus. -/
def busLines (s : State) : Prop := ∀ p ∈ s.hostLines, p.1 < 2 ^ 57

theorem isHostDev_le (h : isHostDev k = true) : 2 ^ 66 ≤ k := by
  simp only [isHostDev, Bool.and_eq_true, decide_eq_true_eq] at h
  exact h.1

/-- A key of a line that slices hold is of device memory, or of the cached view of the bus. -/
theorem inSlice_cases (hin : inSlice k = true) (hbus : busKey k) :
    k < 2 ^ 56 ∨ (isHostDev k = true ∧ 2 ^ 66 ≤ k ∧ k < 2 ^ 66 + 2 ^ 64) := by
  simp only [inSlice, isHbm, Bool.or_eq_true, decide_eq_true_eq] at hin
  exact hin.imp_right fun hdev => ⟨hdev, isHostDev_le hdev, hbus hdev⟩

theorem hostLine_lt (hbus : busKey k) (hdev : isHostDev k = true) : hostLine k < 2 ^ 57 := by
  have := hbus hdev
  unfold hostLine
  omega

theorem hostHeld_of_mem {d : Bool} (h : (l, d) ∈ s.hostLines) : hostHeld s l = true :=
  List.any_eq_true.mpr ⟨_, h, by simp⟩

/-- Marks on lines do not change which lines there are. -/
theorem any_line_map {ls : List (Nat × Bool)} {f : Nat × Bool → Nat × Bool} (hf : ∀ p, (f p).1 = p.1) (j : Nat) :
    (ls.map f).any (fun p => p.1 = j) = ls.any (fun p => p.1 = j) := by
  simp only [List.any_map, Function.comp_def, hf]

theorem writeBack_hostHeld (s : State) (l j : Nat) : hostHeld (writeBack s l) j = hostHeld s j := by
  unfold writeBack
  split
  · exact any_line_map (fun p => by split <;> rfl) _
  · rfl

theorem writeBack_dirty_ne {j : Nat} (hj : j ≠ l) (h : (j, true) ∈ s.hostLines) : (j, true) ∈ (writeBack s l).hostLines := by
  unfold writeBack
  split
  · exact List.mem_map.mpr ⟨_, h, if_neg hj⟩
  · exact h

theorem dropHostLine_hostHeld_self (s : State) (l : Nat) : hostHeld (dropHostLine s l) l = false := by
  simp [hostHeld, dropHostLine]

theorem dropHostLine_hostHeld_ne {j : Nat} (hj : j ≠ l) : hostHeld (dropHostLine s l) j = hostHeld s j := by
  simp only [hostHeld, dropHostLine, List.any_filter]
  refine congrArg (fun f => s.hostLines.any f) (funext fun p => ?_)
  by_cases hp : p.1 = j <;> simp [hp, hj]

theorem inPlace_evicted (h : inPlace k s.mem) : inPlace k (dropHostLine (writeBack s l) l).mem := by
  refine inPlace_filter _ ?_
  unfold writeBack
  split
  · exact inPlace_copyRange h
  · exact h

theorem readByte_evicted_elsewhere (hdev : k < 2 ^ 66 + 128 * l ∨ 2 ^ 66 + 128 * l + 128 ≤ k)
    (hhost : k < 2 ^ 65 + 128 * l ∨ 2 ^ 65 + 128 * l + 128 ≤ k) :
    readByte (dropHostLine (writeBack s l) l).mem k = readByte s.mem k := by
  refine (readByte_zeroRange_outside hdev).trans ?_
  unfold writeBack
  split
  · exact readByte_copyRange_outside hhost
  · rfl

/-- A dirty line that leaves its slice is the host's. -/
theorem readByte_evicted_dirty {j : Nat} (hj : j < 128) (hdirty : (l, true) ∈ s.hostLines)
    (h : inPlace (2 ^ 66 + 128 * l + j) s.mem) :
    readByte (dropHostLine (writeBack s l) l).mem (2 ^ 65 + 128 * l + j) = readByte s.mem (2 ^ 66 + 128 * l + j) := by
  refine (readByte_zeroRange_outside (by simp only [hostDevKey]; omega)).trans ?_
  unfold writeBack
  rw [if_pos (by simpa using hdirty)]
  exact readByte_copyRange_inside hj h

theorem readByte_evicted_clean {j : Nat} (hj : j < 128) (hclean : (l, true) ∉ s.hostLines) :
    readByte (dropHostLine (writeBack s l) l).mem (2 ^ 65 + 128 * l + j) = readByte s.mem (2 ^ 65 + 128 * l + j) := by
  refine (readByte_zeroRange_outside (by simp only [hostDevKey]; omega)).trans ?_
  unfold writeBack
  rw [if_neg (by simpa using hclean)]

theorem Holds.evict (h : Holds s k b) (hin : inSlice k = true) (hbus : busKey k) (hl : l < 2 ^ 57) :
    Holds (dropHostLine (writeBack s l) l) k b := by
  by_cases hown : isHostDev k = true ∧ hostLine k = l
  · obtain ⟨hdev, rfl⟩ := hown
    obtain ⟨hbyte, hset⟩ := h
    have hrange := isHostDev_le hdev
    have hk : k = 2 ^ 66 + 128 * hostLine k + (k - 2 ^ 66) % 128 := by unfold hostLine; omega
    have hback : k - 2 ^ 66 + 2 ^ 65 = 2 ^ 65 + 128 * hostLine k + (k - 2 ^ 66) % 128 := by unfold hostLine; omega
    have hj : (k - 2 ^ 66) % 128 < 128 := Nat.mod_lt _ (by omega)
    have hgone := dropHostLine_hostHeld_self (writeBack s (hostLine k)) (hostLine k)
    refine ⟨hbyte ▸ ?_, fun _ hh => by rw [hgone] at hh; cases hh⟩
    unfold pocByte
    rw [hgone, hdev]
    simp only [Bool.not_false, Bool.and_self, if_true, Bool.true_and]
    cases hheld : hostHeld s (hostLine k) with
    | true =>
      obtain ⟨hdirty, hplace⟩ := hset hdev hheld
      rw [hback, readByte_evicted_dirty hj hdirty (hk ▸ hplace), ← hk]
      rfl
    | false =>
      have hclean : (hostLine k, true) ∉ s.hostLines := fun hm => by rw [hostHeld_of_mem hm] at hheld; cases hheld
      rw [hback, readByte_evicted_clean hj hclean]
      rfl
  · have hne : isHostDev k = true → hostLine k ≠ l := fun hdev hl => hown ⟨hdev, hl⟩
    have hkey := inSlice_cases hin hbus
    refine h.transfer (readByte_evicted_elsewhere ?_ ?_) (fun hdev => ?_)
      (fun hdev hm => List.mem_filter.mpr ⟨writeBack_dirty_ne (hne hdev) hm, by simpa using hne hdev⟩) inPlace_evicted
      (fun hdev => readByte_evicted_elsewhere ?_ ?_)
    · rcases hkey with hlt | ⟨hdev, hlo, hhi⟩
      · omega
      · have := hne hdev; unfold hostLine at this; omega
    · omega
    · rw [dropHostLine_hostHeld_ne (hne hdev), writeBack_hostHeld]
    · have := hbus hdev; omega
    · have := hne hdev
      have := isHostDev_le hdev
      unfold hostLine at *
      omega

/-! ### An access of a slice to a line (07 R170) -/

theorem makeRoom_gone_mem {α : Type} {cap : Nat} {first : α → Bool} {l kept : List α} {x : α}
    (h : makeRoom s cap first l = (kept, some x, t)) : x ∈ l := by
  unfold makeRoom at h
  split at h
  · cases h
  · simp only [Prod.mk.injEq] at h
    exact List.mem_of_getElem? h.2.1

theorem makeRoom_sameView {α : Type} {cap : Nat} {first : α → Bool} {l kept : List α} {gone : Option α}
    (h : makeRoom s cap first l = (kept, gone, t)) : SameView s t := by
  unfold makeRoom at h
  split at h <;> cases h <;> exact ⟨rfl, rfl⟩

/-- Room in a slice is made at once or by a line that leaves it. -/
theorem sliceRoom_cases (s : State) (die : Nat) : SameView s (sliceRoom s die) ∨
    ∃ u l d, SameView s u ∧ (l, d) ∈ s.hostLines ∧ sliceRoom s die = dropHostLine (writeBack u l) l := by
  unfold sliceRoom
  split
  · next e =>
    have hmem := makeRoom_gone_mem e
    simp only [sliceOf, List.mem_append, List.mem_map, List.mem_filter, Prod.mk.injEq, Bool.false_eq_true, false_and, and_false,
      exists_false, false_or, true_and] at hmem
    obtain ⟨⟨l, d⟩, ⟨hl, -⟩, rfl, -⟩ := hmem
    exact .inr ⟨_, _, d, makeRoom_sameView e, hl, rfl⟩
  · next e =>
    have hview := makeRoom_sameView e
    exact .inl hview
  · next e => exact .inl (makeRoom_sameView e)

theorem Holds.sliceRoom (h : Holds s k b) (hin : inSlice k = true) (hbus : busKey k) (hlines : busLines s) (die : Nat) :
    Holds (sliceRoom s die) k b := by
  rcases sliceRoom_cases s die with hv | ⟨u, l, d, hv, hl, he⟩
  · exact h.of_sameView hv
  · exact he ▸ (h.of_sameView hv).evict hin hbus (hlines _ hl)

theorem busLines_of_sameView (h : busLines s) (hv : SameView s t) : busLines t := fun p hp => h p (hv.2 ▸ hp)

theorem writeBack_busLines (h : busLines s) : busLines (writeBack s l) := by
  unfold writeBack
  split
  · intro p hp
    obtain ⟨q, hq, rfl⟩ := List.mem_map.mp hp
    split <;> exact h q hq
  · exact h

theorem sliceRoom_busLines (h : busLines s) (die : Nat) : busLines (sliceRoom s die) := by
  rcases sliceRoom_cases s die with hv | ⟨u, l, d, hv, -, he⟩
  · exact busLines_of_sameView h hv
  · rw [he]
    exact fun p hp => writeBack_busLines (busLines_of_sameView h hv) p (List.mem_filter.mp hp).1

theorem hostFill_busLines (h : busLines s) (str : Bool) {q : Nat} (hq : busKey q) : busLines (hostFill s str q) := by
  unfold hostFill
  split
  · next hdev =>
    split
    · exact h
    · intro p hp
      rcases List.mem_append.mp hp with hp | hp
      · exact sliceRoom_busLines h _ p hp
      · rw [List.mem_singleton.mp hp]; exact hostLine_lt hq hdev
  · exact h

theorem useLine_busLines (h : busLines s) (str : Bool) {q : Nat} (hq : busKey q) : busLines (useLine s str q) := by
  unfold useLine
  split
  · split
    · exact h
    · exact sliceRoom_busLines h _
  · exact hostFill_busLines h str hq

theorem askLine_busLines (h : busLines s) (since : Nat) (str : Bool) {q : Nat} (hq : busKey q) :
    busLines (askLine s since str q) :=
  useLine_busLines (busLines_of_sameView h (sameView_countAsk s since q)) str hq

/-- A line of the cached view of host memory that is accessed is one that its slice then holds. -/
theorem askLine_hostHeld {q : Nat} (hdev : isHostDev q = true) (s : State) (since : Nat) (str : Bool) :
    hostHeld (askLine s since str q) (hostLine q) = true := by
  have hnot : isHbm q = false := by have := isHostDev_le hdev; simp [isHbm]; omega
  simp only [askLine, useLine, hnot, hostFill, hdev, Bool.false_eq_true, if_false, if_true]
  split
  · assumption
  · simp [hostHeld]

/-- A line of host memory that is brought in is none but its own. -/
theorem Holds.hostFill (h : Holds s k b) (hin : inSlice k = true) (hbus : busKey k) (hlines : busLines s) (str : Bool) {q : Nat}
    (hq : busKey q) (hline : k / 128 ≠ q / 128) : Holds (hostFill s str q) k b := by
  unfold Machine.hostFill
  split
  · next hdev =>
    split
    · exact h.of_sameView ⟨rfl, rfl⟩
    · have hroom := h.sliceRoom hin hbus hlines (hubOf (128 * hostLine q))
      have hq' := isHostDev_le hdev
      have hlt := hq hdev
      have hkey := inSlice_cases hin hbus
      refine hroom.transfer (readByte_copyRange_outside ?_) (fun hk => ?_) (fun _ hm => List.mem_append_left _ hm) inPlace_copyRange
        (fun hk => readByte_copyRange_outside ?_)
      · unfold hostDevKey hostLine; omega
      · have hk' := isHostDev_le hk
        have hne : hostLine q ≠ hostLine k := by unfold hostLine; omega
        simp [hostHeld, hne]
      · have := hbus hk; unfold hostDevKey hostLine; omega
  · exact h

/-- An access to another line. -/
theorem Holds.askLine (h : Holds s k b) (hbus : busKey k) (hlines : busLines s) (since : Nat) (str : Bool) {q : Nat}
    (hq : busKey q) (hin : inSlice k = inSlice q) (hline : k / 128 ≠ q / 128) : Holds (askLine s since str q) k b := by
  have hview := sameView_countAsk s since q
  have hasked := h.of_sameView hview
  have hlines' := busLines_of_sameView hlines hview
  unfold Machine.askLine useLine
  split
  · next hhbm =>
    have hk : inSlice k = true := by rw [hin, inSlice, hhbm, Bool.true_or]
    split
    · exact hasked.of_sameView ⟨rfl, rfl⟩
    · exact (hasked.sliceRoom hk hbus hlines' _).of_sameView ⟨rfl, rfl⟩
  · next hhbm =>
    cases hdev : isHostDev q with
    | true =>
      have hk : inSlice k = true := by rw [hin, inSlice, hdev, Bool.or_true]
      exact hasked.hostFill hk hbus hlines' str hq hline
    | false =>
      unfold Machine.hostFill
      rw [hdev]
      exact hasked

theorem hostDirty_hostHeld (s : State) (q l : Nat) : hostHeld (hostDirty s q) l = hostHeld s l := by
  unfold hostDirty
  split
  · exact any_line_map (fun p => by split <;> rfl) _
  · rfl

theorem hostDirty_mem (s : State) (q : Nat) : (hostDirty s q).mem = s.mem := by
  unfold hostDirty
  split <;> rfl

theorem hostDirty_keeps {q : Nat} (h : (l, true) ∈ s.hostLines) : (l, true) ∈ (hostDirty s q).hostLines := by
  unfold hostDirty
  split
  · exact List.mem_map.mpr ⟨_, h, by split <;> rfl⟩
  · exact h

theorem hostDirty_dirty {q : Nat} (hdev : isHostDev q = true) (hheld : hostHeld s (hostLine q) = true) :
    (hostLine q, true) ∈ (hostDirty s q).hostLines := by
  obtain ⟨p, hp, hl⟩ := List.any_eq_true.mp hheld
  simp only [decide_eq_true_eq] at hl
  simp only [hostDirty, hdev, if_true]
  exact List.mem_map.mpr ⟨p, hp, by rw [if_pos hl, hl]⟩

theorem hostDirty_busLines (h : busLines s) (q : Nat) : busLines (hostDirty s q) := by
  unfold hostDirty
  split
  · intro p hp
    obtain ⟨r, hr, rfl⟩ := List.mem_map.mp hp
    split <;> exact h r hr
  · exact h

theorem Holds.hostDirty (h : Holds s k b) (q : Nat) : Holds (hostDirty s q) k b :=
  h.transfer (by rw [hostDirty_mem]) (fun _ => hostDirty_hostHeld s q _) (fun _ => hostDirty_keeps)
    (by rw [hostDirty_mem]; exact id) (fun _ => by rw [hostDirty_mem])

theorem Holds.zeroRange (h : Holds s k b) {q n : Nat} (hout : k < q ∨ q + n ≤ k)
    (hback : isHostDev k = true → k - 2 ^ 66 + 2 ^ 65 < q ∨ q + n ≤ k - 2 ^ 66 + 2 ^ 65) : Holds (zeroRange s q n) k b :=
  h.transfer (readByte_zeroRange_outside hout) (fun _ => rfl) (fun _ => id) (inPlace_filter _)
    (fun hdev => readByte_zeroRange_outside (hback hdev))

theorem Holds.putCells (h : Holds s k b) {cs : List Host.Cell} (hout : ∀ c ∈ cs, c.1 ≠ k)
    (hback : isHostDev k = true → ∀ c ∈ cs, c.1 ≠ k - 2 ^ 66 + 2 ^ 65) : Holds (putCells s cs) k b :=
  h.transfer (readByte_writeCells_ne _ _ _ hout) (fun _ => rfl) (fun _ => id) (inPlace_writeCells cs)
    (fun hdev => readByte_writeCells_ne _ _ _ (hback hdev))

end Holding

end Sys2Proof.SliceMemory
end

section
/-!
The trap frame (14 R329): the page that an entry writes line by line holds each of its words at its offset.
-/

namespace Sys2Proof.TrapFrame
open Sys2Proof.Machine Sys2Proof.SliceMemory

/-! ### The bytes of a number -/

theorem div_byte_succ (v j : Nat) : v / 256 / 256 ^ j = v / 256 ^ (j + 1) := by
  rw [Nat.div_div_eq_div_mul, ← Nat.pow_succ']

theorem mem_cellsOf {k n v : Nat} {c : Host.Cell} :
    c ∈ cellsOf k n v ↔ ∃ j < n, c = (k + j, BitVec.ofNat 8 (v / 256 ^ j)) := by
  induction n generalizing k v with
  | zero => simp [cellsOf]
  | succ n ih =>
    simp only [cellsOf, List.mem_cons, ih]
    constructor
    · rintro (rfl | ⟨j, hj, rfl⟩)
      · exact ⟨0, by omega, by simp⟩
      · exact ⟨j + 1, by omega, by rw [div_byte_succ, Nat.add_right_comm, Nat.add_assoc]⟩
    · rintro ⟨j, hj, rfl⟩
      cases j with
      | zero => simp
      | succ j => exact .inr ⟨j, by omega, by rw [div_byte_succ, Nat.add_right_comm, Nat.add_assoc]⟩

/-- What stands byte by byte at the point of coherence is read there as a number. -/
theorem pocNat_of_bytes {s : State} {k n v : Nat} (h : ∀ j < n, pocByte s (k + j) = BitVec.ofNat 8 (v / 256 ^ j)) :
    pocNat s k n = v % 256 ^ n := by
  induction n generalizing k v with
  | zero => simp [pocNat, Nat.mod_one]
  | succ n ih =>
    have hlow : (pocByte s k).toNat = v % 256 := by simpa using congrArg BitVec.toNat (h 0 (by omega))
    have hrest : pocNat s (k + 1) n = v / 256 % 256 ^ n := ih fun j hj => by
      rw [Nat.add_right_comm, Nat.add_assoc, h (j + 1) (by omega), div_byte_succ]
    rw [pocNat, hlow, hrest, Nat.pow_succ', Nat.mod_mul]

/-! ### The cells of a frame -/

/-- The cells of a frame's fields that are not zero. -/
def frameCells (key : Nat) (fs : List (Nat × Nat × Nat)) : List Host.Cell :=
  (fs.filter (fun f => f.2.2 ≠ 0)).flatMap (fun f => cellsOf (key + f.1) f.2.1 f.2.2)

/-- Two fields are one, or do not meet. -/
def disjoint (f g : Nat × Nat × Nat) : Prop := f = g ∨ f.1 + f.2.1 ≤ g.1 ∨ g.1 + g.2.1 ≤ f.1

/-- A field that no other one meets. -/
def apart (fs : List (Nat × Nat × Nat)) (g : Nat × Nat × Nat) : Prop := g ∈ fs ∧ ∀ f ∈ fs, disjoint f g

section Field
variable {key : Nat} {fs : List (Nat × Nat × Nat)} {g : Nat × Nat × Nat} {j : Nat}

/-- The cells at a byte of such a field hold its byte. -/
theorem frameCells_value (h : apart fs g) (hj : j < g.2.1) {c : Host.Cell} (hc : c ∈ frameCells key fs)
    (hk : c.1 = key + g.1 + j) : c.2 = BitVec.ofNat 8 (g.2.2 / 256 ^ j) := by
  obtain ⟨-, hother⟩ := h
  obtain ⟨f, hf, hcell⟩ := List.mem_flatMap.mp hc
  obtain ⟨i, hi, rfl⟩ := mem_cellsOf.mp hcell
  simp only at hk ⊢
  rcases hother f (List.mem_filter.mp hf).1 with rfl | hlow | hhigh
  · rw [show i = j by omega]
  · omega
  · omega

/-- There is one, unless the byte is zero. -/
theorem frameCells_listed (h : apart fs g) (hj : j < g.2.1) :
    BitVec.ofNat 8 (g.2.2 / 256 ^ j) = blank ∨ ∃ c ∈ frameCells key fs, c.1 = key + g.1 + j := by
  obtain ⟨hg, -⟩ := h
  by_cases hz : g.2.2 = 0
  · exact .inl (by rw [hz, Nat.zero_div]; rfl)
  · have hkept : g ∈ fs.filter (fun f => f.2.2 ≠ 0) := List.mem_filter.mpr ⟨hg, by simpa using hz⟩
    exact .inr ⟨_, List.mem_flatMap.mpr ⟨g, hkept, mem_cellsOf.mpr ⟨j, hj, rfl⟩⟩, rfl⟩

end Field

/-! ### The lines of a frame -/

section Lines
variable {s : State} {k q : Nat} {b : Byte} {cs : List Host.Cell}

theorem frameLine_busLines (h : busLines s) (hq : busKey q) : busLines (frameLine cs s q) :=
  hostDirty_busLines (askLine_busLines h s.clock false hq) q

/-- A line that is written holds its bytes. -/
theorem frameLine_holds (hq : q % 128 = 0) (hline : k / 128 = q / 128) (hdev : isHostDev k = isHostDev q)
    (hall : ∀ c ∈ cs, c.1 = k → c.2 = b) (hsome : b = blank ∨ ∃ c ∈ cs, c.1 = k) : Holds (frameLine cs s q) k b := by
  have habsent : ∀ c ∈ (zeroRange (hostDirty (askLine s s.clock false q) q) q 128).mem, c.1 ≠ k :=
    zeroRange_absent (by omega) (by omega)
  have hread : readByte (frameLine cs s q).mem k = b := by
    refine (readByte_writeCells _ _ _).trans ?_
    rw [readByte_absent habsent]
    exact lastCell_eq (fun c hc => hall c (List.mem_filter.mp hc).1)
      (hsome.imp_right fun ⟨c, hc, hk⟩ => ⟨c, List.mem_filter.mpr ⟨hc, by simpa [hk] using hline⟩, hk⟩)
  have hheld (hq' : isHostDev q = true) : hostHeld (frameLine cs s q) (hostLine q) = true :=
    (hostDirty_hostHeld _ q _).trans (askLine_hostHeld hq' s s.clock false)
  have hown (hk : isHostDev k = true) : hostLine k = hostLine q := by
    have := isHostDev_le hk
    have := isHostDev_le (hdev ▸ hk)
    unfold hostLine
    omega
  have hdirty (hq' : isHostDev q = true) : (hostLine q, true) ∈ (frameLine cs s q).hostLines :=
    hostDirty_dirty hq' (askLine_hostHeld hq' s s.clock false)
  refine ⟨?_, fun hk _ => ⟨by rw [hown hk]; exact hdirty (hdev ▸ hk), inPlace_writeCells _ (inPlace_of_absent habsent)⟩⟩
  cases hk : isHostDev k with
  | true => simp only [pocByte, hown hk, hheld (hdev ▸ hk), Bool.not_true, Bool.and_false, Bool.false_eq_true, if_false, hread]
  | false => simp only [pocByte, hk, Bool.false_and, Bool.false_eq_true, if_false, hread]

/-- The bytes of the other lines stay. -/
theorem frameLine_holds_other (h : Holds s k b) (hlines : busLines s) (hk : busKey k) (hq : busKey q) (hq0 : q % 128 = 0)
    (hline : k / 128 ≠ q / 128) (hin : inSlice k = inSlice q) (hdev : isHostDev k = isHostDev q) : Holds (frameLine cs s q) k b := by
  have hback (hk' : isHostDev k = true) : k - 2 ^ 66 + 2 ^ 65 < q := by
    have := isHostDev_le (hdev ▸ hk')
    have := hk hk'
    omega
  refine (((h.askLine hk hlines s.clock false hq hin hline).hostDirty q).zeroRange (by omega) (fun hk' => .inl (hback hk'))).putCells
    (fun c hc hck => ?_) (fun hk' c hc hck => ?_)
  · have hown := (List.mem_filter.mp hc).2
    rw [decide_eq_true_eq, hck] at hown
    exact hline hown
  · have hown := (List.mem_filter.mp hc).2
    have := hback hk'
    rw [decide_eq_true_eq, hck] at hown
    omega

end Lines

/-- Keys of one page are of one kind. -/
theorem page_kind {key i : Nat} (h : key % 4096 = 0) (hi : i < 4096) :
    isHbm (key + i) = isHbm key ∧ isHostDev (key + i) = isHostDev key := by
  constructor
  · unfold isHbm; exact decide_eq_decide.mpr (by omega)
  · unfold isHostDev
    exact congrArg₂ _ (decide_eq_decide.mpr (by omega)) (decide_eq_decide.mpr (by omega))

section Page
variable {s : State} {core key : Nat} {fs : List (Nat × Nat × Nat)} {g : Nat × Nat × Nat}

theorem busKey_page {i : Nat} (hkey : key % 4096 = 0) (hbus : busKey key) (hi : i < 4096) : busKey (key + i) := by
  intro hdev
  have := hbus ((page_kind hkey hi).2 ▸ hdev)
  omega

/-- Once the lines of a page are written, one of them that holds a byte, or had it, holds it. -/
theorem frameLines_hold {cs : List Host.Cell} {o : Nat} {b : Byte} (hkey : key % 4096 = 0) (hbus : busKey key) (ho : o < 4096)
    (hall : ∀ c ∈ cs, c.1 = key + o → c.2 = b) (hsome : b = blank ∨ ∃ c ∈ cs, c.1 = key + o) (is : List Nat)
    (his : ∀ i ∈ is, i < 32) (hlines : busLines s) (hmem : o / 128 ∈ is ∨ Holds s (key + o) b) :
    Holds (is.foldl (fun s i => frameLine cs s (key + 128 * i)) s) (key + o) b := by
  induction is generalizing s with
  | nil => exact hmem.resolve_left List.not_mem_nil
  | cons i is ih =>
    obtain ⟨hi, his⟩ := List.forall_mem_cons.mp his
    have hbusi := busKey_page hkey hbus (i := 128 * i) (by omega)
    obtain ⟨hhbm, hdev⟩ := page_kind hkey ho
    obtain ⟨hhbmi, hdevi⟩ := page_kind hkey (i := 128 * i) (by omega)
    refine ih his (frameLine_busLines hlines hbusi) ?_
    by_cases hown : o / 128 = i
    · exact .inr (frameLine_holds (by omega) (by omega) (hdev.trans hdevi.symm) hall hsome)
    · refine hmem.imp (fun hm => (List.mem_cons.mp hm).resolve_left hown) fun hholds => ?_
      exact frameLine_holds_other hholds hlines (busKey_page hkey hbus ho) hbusi (by omega) (by omega)
        (by rw [inSlice, inSlice, hhbm, hdev, hhbmi, hdevi]) (hdev.trans hdevi.symm)

/-- A field of a frame that no other one meets is read back. -/
theorem writeFrame_field (hkey : key % 4096 = 0) (hbus : busKey key) (hlines : busLines s) (h : apart fs g)
    (hfits : g.1 + g.2.1 ≤ 4096) : pocNat (writeFrame s core key fs) (key + g.1) g.2.1 = g.2.2 % 256 ^ g.2.1 := by
  refine pocNat_of_bytes fun j hj => ?_
  have hcell := frameLines_hold (s := dropL1 s core (fun l => key / 128 ≤ l && l < key / 128 + 32)) (cs := frameCells key fs)
    (o := g.1 + j) hkey hbus (by omega) (fun c hc hk => frameCells_value h hj hc (by omega))
    ((frameCells_listed h hj).imp_right fun ⟨c, hc, hk⟩ => ⟨c, hc, by omega⟩) (List.range 32) (fun i => List.mem_range.mp) hlines
    (.inl (List.mem_range.mpr (by omega)))
  rw [Nat.add_assoc]
  exact hcell.byte

end Page

/-! ### The words of a trap -/

/-- The first eleven words of a frame: offset, size, value. -/
def frameWords (x : Warp) (t : Trap) (a : Site) : List (Nat × Nat × Nat) :=
  [(0x000, 8, t.word), (0x008, 8, a.pc.toNat), (0x010, 8, a.npc.toNat), (0x018, 8, a.word.toNat), (0x020, 8, a.extw.toNat),
   (0x028, 8, a.exec.toNat + a.wmask.toNat * 2 ^ 32),
   (0x030, 8, a.planes.toNat + (t.flanes.getD a.planes).toNat * 2 ^ 32),
   (0x038, 8, t.faddr.toNat), (0x040, 8, infoWord x a.w a), (0x048, 8, t.aux), (0x050, 8, x.tcount + 1)]

section Words
variable {x : Warp} {t : Trap} {a : Site}

/-- Past those words a frame's fields start at 0x80. -/
theorem frameFields_eq : ∃ fs, frameFields x t a = frameWords x t a ++ fs ∧ ∀ f ∈ fs, 0x80 ≤ f.1 := by
  refine ⟨_, by simp only [frameFields, List.append_assoc]; rfl, fun f hf => ?_⟩
  simp only [List.mem_append, List.mem_map, List.mem_flatMap, List.mem_cons, List.not_mem_nil, or_false] at hf
  rcases hf with ⟨j, -, rfl⟩ | ⟨j, -, rfl⟩ | ⟨i, -, hi⟩ | rfl | rfl
  · simp only; omega
  · simp only; omega
  · split at hi
    · obtain ⟨l, -, rfl⟩ := List.mem_map.mp hi
      simp only; omega
    · exact absurd hi List.not_mem_nil
  · simp only; omega
  · simp only; omega

/-- The words follow each other. -/
theorem frameWords_rising : (frameWords x t a).Pairwise (fun f g => f.1 + f.2.1 ≤ g.1) := by
  simp [frameWords]

theorem frameWords_end : ∀ g ∈ frameWords x t a, g.1 + g.2.1 ≤ 0x58 := by simp [frameWords]

/-- None of them meets another field. -/
theorem frameWords_apart {g : Nat × Nat × Nat} (hg : g ∈ frameWords x t a) : apart (frameFields x t a) g := by
  obtain ⟨fs, he, hrest⟩ := frameFields_eq (x := x) (t := t) (a := a)
  have hwords : ∀ f ∈ frameWords x t a, disjoint f g := fun f hf =>
    List.Pairwise.forall_of_forall_of_flip (R := disjoint) (fun _ _ => .inl rfl)
      (frameWords_rising.imp fun h => .inr (.inl h)) (frameWords_rising.imp fun h => .inr (.inr h)) hf hg
  rw [he]
  refine ⟨List.mem_append_left _ hg, fun f hf => (List.mem_append.mp hf).elim (hwords f) fun hf => ?_⟩
  exact .inr (.inr ((frameWords_end g hg).trans (Nat.le_trans (by decide) (hrest f hf))))

end Words

/-- Settles O32: each word is a field that no other one meets, in one of the 32 lines that are written. -/
theorem trapFrameHolds : Obligations.TrapFrameHolds := by
  intro s core key x t a hkey hbus hlines m fl
  have hword {o v : Nat} (hg : (o, 8, v) ∈ frameWords x t a) : pocNat m (key + o) 8 = v % 2 ^ 64 := by
    have hfield := writeFrame_field (core := core) hkey hbus hlines (frameWords_apart hg)
      ((frameWords_end _ hg).trans (by decide))
    rwa [show (256 : Nat) ^ 8 = 2 ^ 64 by norm_num] at hfield
  have hwhole {o v : Nat} (hg : (o, 8, v) ∈ frameWords x t a) (hv : v < 2 ^ 64) : pocNat m (key + o) 8 = v :=
    (hword hg).trans (Nat.mod_eq_of_lt hv)
  have hpair (y z : Lanes) : y.toNat + z.toNat * 2 ^ 32 < 2 ^ 64 := by omega
  have hcause : pocNat m (key + 0) 8 = t.word % 2 ^ 64 := hword (by simp [frameWords])
  refine ⟨by rwa [Nat.add_zero] at hcause, hwhole ?_ a.pc.isLt, hwhole ?_ a.npc.isLt, hwhole ?_ a.word.isLt, hwhole ?_ a.extw.isLt,
    hwhole ?_ (hpair a.exec a.wmask), hwhole ?_ (hpair a.planes fl), hwhole ?_ t.faddr.isLt, hword ?_, hword ?_, hword ?_⟩ <;>
    simp [frameWords, fl]

end Sys2Proof.TrapFrame
end

section
/-!
What serving a request at the memory-side slices and the lamp units leaves as it was (07 R170, R180, 16 R379, R380).
-/

namespace Sys2Proof.SliceFrame
open Sys2Proof.Machine Sys2Proof.SliceMemory

/-! ### Everything but the slices, the lamp units and what is observed of requests -/

/-- A state without what serving requests may change: the bytes, the lines of the slices, the lamp units and their queue, the free
values, and what is observed of requests. -/
def beyond (s : State) : State :=
  { s with freeCtr := 0, mem := [], poison := [], hostLines := [], msc := [], hostLow := [], lamps := [], lampq := [], msix := []
           obs := { s.obs with trigs := [], hist := [], frozen := false, fcause := 0, entries := [], recptr := [] } }

/-- States that differ in those things alone. -/
def SameBeyond (s t : State) : Prop := beyond t = beyond s

section Steps
variable {s t u : State}

theorem SameBeyond.refl (s : State) : SameBeyond s s := rfl

theorem SameBeyond.trans (h : SameBeyond s t) (h' : SameBeyond t u) : SameBeyond s u := Eq.trans h' h

theorem sameBeyond_foldl {α : Type} (f : State → α → State) (hf : ∀ s a, SameBeyond s (f s a)) (l : List α) (s : State) :
    SameBeyond s (l.foldl f s) :=
  List.foldlRecOn (motive := SameBeyond s) l f (.refl s) fun _ h a _ => h.trans (hf _ a)

theorem sameBeyond_freeze (s : State) (n : Nat) : SameBeyond s (freeze s n) := by
  unfold freeze
  split <;> rfl

theorem sameBeyond_fireTrigger (s : State) (i : Nat) : SameBeyond s (fireTrigger s i) := by
  unfold fireTrigger
  simp only
  split
  · exact sameBeyond_freeze
      (fireMsix { s with obs := { s.obs with trigs := mset s.obs.trigs i (mgetD s.obs.trigs i 0 + 0x100000000) } } 3) 6
  · rfl

theorem sameBeyond_recordEntry (s : State) (cls addr r : Nat) : SameBeyond s (recordEntry s cls addr r) := by
  unfold recordEntry
  split <;> rfl

theorem sameBeyond_observe (s : State) (cls lat addr : Nat) : SameBeyond s (observe s cls lat addr) := by
  have hrecorded := sameBeyond_foldl (fun s r => recordEntry s cls addr r) (fun s r => sameBeyond_recordEntry s cls addr r) (List.range 4) s
  exact hrecorded.trans (sameBeyond_foldl fireTrigger sameBeyond_fireTrigger _ _)

theorem sameBeyond_writeBack (s : State) (l : Nat) : SameBeyond s (writeBack s l) := by
  unfold writeBack
  split <;> rfl

theorem sameBeyond_makeRoom {α : Type} {cap : Nat} {first : α → Bool} {l kept : List α} {gone : Option α}
    (h : makeRoom s cap first l = (kept, gone, t)) : SameBeyond s t := by
  unfold makeRoom at h
  split at h <;> cases h <;> rfl

theorem sameBeyond_sliceRoom (s : State) (die : Nat) : SameBeyond s (sliceRoom s die) := by
  unfold sliceRoom
  split
  · next e => exact (sameBeyond_makeRoom e).trans (sameBeyond_writeBack _ _)
  · next e => have hroom := sameBeyond_makeRoom e; exact hroom
  · next e => exact sameBeyond_makeRoom e

theorem sameBeyond_useLine (s : State) (str : Bool) (k : Nat) : SameBeyond s (useLine s str k) := by
  unfold useLine
  split
  · split
    · rfl
    · exact sameBeyond_sliceRoom s _
  · unfold hostFill
    split
    · split
      · rfl
      · exact sameBeyond_sliceRoom s _
    · rfl

theorem sameBeyond_askLine (s : State) (since : Nat) (str : Bool) (k : Nat) : SameBeyond s (askLine s since str k) := by
  refine SameBeyond.trans ?_ (sameBeyond_useLine (countAsk s since k) str k)
  unfold countAsk
  split
  · exact sameBeyond_observe s _ _ _
  · rfl

theorem sameBeyond_askRange (s : State) (k n : Nat) : SameBeyond s (askRange s k n) :=
  sameBeyond_foldl _ (fun s i => sameBeyond_askLine s s.clock false (k / 128 * 128 + 128 * i)) _ s

theorem sameBeyond_writeLine (since : Nat) (str : Bool) (cs : List Host.Cell) (s : State) (k : Nat) :
    SameBeyond s (writeLine since str cs s k) := by
  refine (sameBeyond_askLine s since str k).trans ?_
  unfold writeLine hostDirty
  split <;> rfl

theorem sameBeyond_pocWrite (s : State) (cs : List Host.Cell) : SameBeyond s (pocWrite s cs) :=
  sameBeyond_foldl _ (sameBeyond_writeLine s.clock false cs) _ s

theorem sameBeyond_touch (s : State) (u : Nat) : SameBeyond s (touch s u) := by
  unfold touch
  split
  · rfl
  · rfl
  · split
    · rfl
    · split <;> rfl
  · rfl

theorem sameBeyond_touchAll (s : State) (us : List Nat) : SameBeyond s (touchAll s us) :=
  sameBeyond_foldl touch sameBeyond_touch us s

theorem sameBeyond_lampJoin (s : State) (who : Nat) (us : List Nat) : SameBeyond s (lampJoin s who us) := by
  refine (sameBeyond_touchAll s (us.filter (fun u => !isLit s u))).trans ?_
  unfold lampJoin
  simp only
  split <;> rfl

/-! ### What stays, register by register -/

theorem SameBeyond.dedup (h : SameBeyond s t) : t.dedup = s.dedup := congrArg (·.dedup) h
theorem SameBeyond.dom (h : SameBeyond s t) : t.dom = s.dom := congrArg (·.dom) h
theorem SameBeyond.fw (h : SameBeyond s t) : t.fw = s.fw := congrArg (·.fw) h
theorem SameBeyond.sampPtr (h : SameBeyond s t) : t.obs.sampPtr = s.obs.sampPtr := congrArg (·.obs.sampPtr) h
theorem SameBeyond.sampAt (h : SameBeyond s t) : t.obs.sampAt = s.obs.sampAt := congrArg (·.obs.sampAt) h
theorem SameBeyond.samples (h : SameBeyond s t) : t.obs.samples = s.obs.samples := congrArg (·.obs.samples) h

end Steps

/-! ### The bytes of device memory -/

section Bytes
variable {s : State} {k l : Nat}

/-- A line of host memory that leaves its slice moves no byte of the device. -/
theorem readByte_dropHostLine_writeBack (hk : k < 2 ^ 65) : readByte (dropHostLine (writeBack s l) l).mem k = readByte s.mem k :=
  readByte_evicted_elsewhere (by omega) (by omega)

theorem readByte_sliceRoom (hk : k < 2 ^ 65) (die : Nat) : readByte (sliceRoom s die).mem k = readByte s.mem k := by
  rcases sliceRoom_cases s die with ⟨hmem, -⟩ | ⟨u, l, -, ⟨hmem, -⟩, -, he⟩
  · rw [hmem]
  · rw [he, readByte_dropHostLine_writeBack hk, hmem]

/-- A line that is asked for, of whatever memory, moves no byte of the device. -/
theorem readByte_askLine (hk : k < 2 ^ 65) (since : Nat) (str : Bool) (q : Nat) :
    readByte (askLine s since str q).mem k = readByte s.mem k := by
  have hcount : readByte (countAsk s since q).mem k = readByte s.mem k := by rw [(sameView_countAsk s since q).1]
  unfold askLine useLine
  split
  · split
    · exact hcount
    · exact (readByte_sliceRoom hk _).trans hcount
  · unfold hostFill
    split
    · split
      · exact hcount
      · refine (readByte_copyRange_outside (.inl ?_)).trans ((readByte_sliceRoom hk _).trans hcount)
        unfold hostDevKey; omega
    · exact hcount

theorem mem_linesOf {cs : List Host.Cell} {c : Host.Cell} (h : c ∈ cs) : c.1 / 128 * 128 ∈ linesOf cs := by
  induction cs with
  | nil => cases h
  | cons d rest ih =>
    change _ ∈ if (linesOf rest).head? = some (d.1 / 128 * 128) then linesOf rest else d.1 / 128 * 128 :: linesOf rest
    rcases List.mem_cons.mp h with rfl | hrest
    · split
      · next hhead => exact List.mem_of_head? hhead
      · exact List.mem_cons_self
    · split
      · exact ih hrest
      · exact List.mem_cons_of_mem _ (ih hrest)

/-- A line that is written holds the last of its cells, and the bytes of the other lines stay. -/
theorem readByte_writeLine (hk : k < 2 ^ 65) (since : Nat) (str : Bool) (cs : List Host.Cell) (q : Nat) :
    readByte (writeLine since str cs s q).mem k =
      (cs.filter (fun c => c.1 / 128 * 128 = q)).foldl (fun b c => if c.1 = k then c.2 else b) (readByte s.mem k) := by
  refine (readByte_writeCells _ _ _).trans ?_
  rw [hostDirty_mem, readByte_askLine hk]

/-- Cells that give a key one value leave it that value, where one is there or it had it before. -/
theorem lastCell_eq_of_mem {cs : List Host.Cell} {x b : Byte} (hall : ∀ c ∈ cs, c.1 = k → c.2 = b)
    (hmem : (∃ c ∈ cs, c.1 = k) ∨ x = b) : cs.foldl (fun b c => if c.1 = k then c.2 else b) x = b := by
  induction cs generalizing x with
  | nil => simpa using hmem
  | cons c cs ih =>
    obtain ⟨hc, hcs⟩ := List.forall_mem_cons.mp hall
    rw [List.foldl_cons]
    refine ih hcs ?_
    split
    · next hk => exact .inr (hc hk)
    · next hk => exact hmem.imp_left fun ⟨d, hd, hdk⟩ => ⟨d, (List.mem_cons.mp hd).resolve_left (fun e => hk (e ▸ hdk)), hdk⟩

/-- The bytes of device memory that are written are what is read there, where they give each key one value. -/
theorem readByte_pocWrite {cs : List Host.Cell} {b : Byte} (hk : k < 2 ^ 65) (hcell : (k, b) ∈ cs)
    (hall : ∀ c ∈ cs, c.1 = k → c.2 = b) : readByte (pocWrite s cs).mem k = b := by
  have hlines (ls : List Nat) (u : State) (h : k / 128 * 128 ∈ ls ∨ readByte u.mem k = b) :
      readByte (ls.foldl (writeLine s.clock false cs) u).mem k = b := by
    induction ls generalizing u with
    | nil => exact h.resolve_left List.not_mem_nil
    | cons q ls ih =>
      refine ih _ ((em (k / 128 * 128 ∈ ls)).imp_right fun hls => ?_)
      rw [readByte_writeLine hk]
      refine lastCell_eq_of_mem (fun c hc => hall c (List.mem_filter.mp hc).1) (h.imp_left fun hq => ?_)
      have hq := (List.mem_cons.mp hq).resolve_right hls
      exact ⟨_, List.mem_filter.mpr ⟨hcell, by simpa using hq⟩, rfl⟩
  have hline := mem_linesOf hcell
  exact hlines (linesOf cs) s (.inl hline)

end Bytes

end Sys2Proof.SliceFrame
end

section
/-!
The host's and the harts' way into the device (08 R219, R220, 15 R353 to R360, R366 to R368, R371, 16 R383): what a request of the
port or of a hart answers.
-/

namespace Sys2Proof.HostAccess
open Sys2Proof.Machine Sys2Proof.Doorbells

/-! ### Requests that are performed, and requests that wait (08 R219, R220, 07 R180) -/

section Posting
variable {s : State} {who : Requester} {as : List Nat} {data : List Byte} {off : Nat} {v : Word64}

/-- Nothing that the requester has asked before waits. -/
def clear (s : State) (who : Requester) : Prop := hasPosted s who = false ∧ ∀ q ∈ s.lampq, q.who ≠ reqWho who

/-- A write of a register touches no pseudo-channel, so that nothing delays it. -/
theorem post_register (hclear : clear s who) (harr : arrives s who = true) :
    post s who (.register off v) = writeReg who off v s := by
  obtain ⟨hposted, hqueue⟩ := hclear
  have hready : postReady s who (.register off v) = true := by
    simp [postReady, Posted.units, Posted.addrs, nub, lampHeld_nil]
  simp only [post, hposted, hready, doPosted, lampLeave_eq_self hqueue, harr, Bool.not_true, Bool.not_false, Bool.and_self,
    Bool.false_eq_true, if_false, if_true]

theorem post_read_lit (hclear : clear s who) (harr : arrives s who = true)
    (hlit : lampHeld s (reqWho who) (nub (as.map hbmUnit)) = false) : post s who (.read as) = physRead s as := by
  obtain ⟨hposted, hqueue⟩ := hclear
  have hready : postReady s who (.read as) = true := by
    simp only [postReady, Posted.units, Posted.addrs, hlit, Bool.not_false, Bool.and_self]
  simp only [post, hposted, hready, doPosted, lampLeave_eq_self hqueue, harr, Bool.not_true, Bool.not_false, Bool.and_self,
    Bool.false_eq_true, if_false, if_true]

theorem post_memory_lit (hclear : clear s who) (harr : arrives s who = true)
    (hlit : lampHeld s (reqWho who) (nub (as.map hbmUnit)) = false) : post s who (.memory as data) = physWrite s as data := by
  obtain ⟨hposted, hqueue⟩ := hclear
  have hready : postReady s who (.memory as data) = true := by
    simp only [postReady, Posted.units, Posted.addrs, hlit, Bool.not_false, Bool.and_self]
  simp only [post, hposted, hready, doPosted, lampLeave_eq_self hqueue, harr, Bool.not_true, Bool.not_false, Bool.and_self,
    Bool.false_eq_true, if_false, if_true]

/-- The first request of a requester that its pseudo-channels hold up joins their queue. -/
theorem post_held {p : Posted} (hposted : hasPosted s who = false) (hheld : lampHeld s (reqWho who) p.units = true) :
    post s who p = let t := lampJoin s (reqWho who) p.units
      { t with posted := t.posted ++ [(who, p)] } := by
  simp only [post, postReady, await, hposted, hheld, Bool.not_true, Bool.false_and, Bool.and_false, Bool.false_eq_true, if_false]

end Posting

/-! ### The port (15 R353 to R355, R358, R360) -/

section Port
variable {s : State} {who : Requester} {as : List Nat} {data : List Byte} {off n : Nat} {v : Word64} {ide : Bool}

/-- A function of the port may ask once the link has trained. -/
theorem mayAsk_of_function (hfn : isFunction who = true) (hlink : linked s = true) : mayAsk s who = true := by
  cases who with
  | pf => exact hlink
  | tdi t => simp only [mayAsk, hfn, hlink, Bool.and_self]
  | hart h => exact absurd hfn Bool.false_ne_true

/-- What a function asks that arrives, under the protection that it needs, behind nothing that waits. -/
def asks (s : State) (who : Requester) (ide : Bool) : Prop :=
  isFunction who = true ∧ linked s = true ∧ arrives s who = true ∧ unprotected s who ide = false ∧ hasPosted s who = false

/-- What a function reads of its BAR0. -/
def bar0Read (s : State) (who : Requester) (off : Nat) : Nat :=
  match who with
  | .tdi t => vfRead s t off
  | w => regRead s w off

/-- An aligned read of 8 bytes of BAR0. -/
theorem execHostBarRead_bar0 (h : asks s who ide) (hal : off % 8 = 0) (hsize : off + 8 ≤ bar0Size who) :
    execHostBarRead who 0 off 8 ide s = .next (answer s (.data (bar0Read s who off))) := by
  obtain ⟨hfn, hlink, harr, hprot, hposted⟩ := h
  unfold execHostBarRead
  simp only [hfn, hlink, harr, hprot, hposted, hal, Nat.not_lt.mpr hsize, ne_eq, not_true, decide_false, Bool.not_true, Bool.or_self,
    Bool.false_eq_true, if_false]
  rfl

/-- A read beyond BAR0 answers all ones. -/
theorem execHostBarRead_beyond (h : asks s who ide) (hsize : bar0Size who < off + 8) :
    execHostBarRead who 0 off n ide s = .next (answer s (.data (ones n))) := by
  obtain ⟨hfn, hlink, harr, hprot, hposted⟩ := h
  simp only [execHostBarRead, hfn, hlink, harr, hprot, hposted, hsize, decide_true, Bool.not_true, Bool.or_self, Bool.or_true,
    Bool.false_eq_true, if_false, if_true]

/-- A read of the device memory that BAR2 maps. -/
theorem execHostBarRead_bar2 (h : asks s who ide) (haddrs : barAddrs s who off n = some as) :
    execHostBarRead who 2 off n ide s = .next (post s who (.read as)) := by
  obtain ⟨hfn, hlink, harr, hprot, hposted⟩ := h
  simp only [execHostBarRead, hfn, hlink, harr, hprot, hposted, haddrs, Bool.not_true, Bool.or_self, Bool.false_eq_true, if_false]

/-- A read of BAR2 that reaches beyond what is mapped answers all ones. -/
theorem execHostBarRead_unmapped (h : asks s who ide) (haddrs : barAddrs s who off n = none) :
    execHostBarRead who 2 off n ide s = .next (answer s (.data (ones n))) := by
  obtain ⟨hfn, hlink, harr, hprot, hposted⟩ := h
  simp only [execHostBarRead, hfn, hlink, harr, hprot, hposted, haddrs, Bool.not_true, Bool.or_self, Bool.false_eq_true, if_false]

/-- A write of a requester that arrives is posted. -/
theorem hostWrite_posted {p : Posted} (hask : mayAsk s who = true) (harr : arrives s who = true)
    (hprot : unprotected s who ide = false) : hostWrite who ide p s = post s who p := by
  simp only [hostWrite, hask, harr, hprot, Bool.not_true, Bool.or_self, Bool.false_eq_true, if_false]

/-- An aligned write of 8 bytes to BAR0. -/
theorem execHostBarWrite_bar0 (hfn : isFunction who = true) (hlen : data.length = 8) (hal : off % 8 = 0)
    (hsize : off + 8 ≤ bar0Size who) :
    execHostBarWrite who 0 off data ide s = .next (hostWrite who ide (.register off (wordOf data)) s) := by
  simp only [execHostBarWrite, hfn, hlen, hal, Nat.not_lt.mpr hsize, maxPayload, Nat.reduceLT, Bool.not_true, ne_eq, not_true,
    decide_false, Bool.or_self, Bool.false_eq_true, if_false]

/-- A write beyond BAR0 is discarded. -/
theorem execHostBarWrite_beyond (hprot : unprotected s who ide = false) (hsize : bar0Size who < off + 8) :
    execHostBarWrite who 0 off data ide s = .next s := by
  simp only [execHostBarWrite, hprot, hsize, decide_true, Bool.or_true, Bool.false_and, Bool.false_eq_true, if_false, if_true, ite_self]

/-- A write to device memory that BAR2 maps. -/
theorem execHostBarWrite_bar2 (hfn : isFunction who = true) (hlen : data.length ≤ 512)
    (haddrs : barAddrs s who off data.length = some as) :
    execHostBarWrite who 2 off data ide s = .next (hostWrite who ide (.memory as data) s) := by
  simp only [execHostBarWrite, hfn, haddrs, maxPayload, Nat.not_lt.mpr hlen, Bool.not_true, decide_false, Bool.or_self,
    Bool.false_eq_true, if_false]

/-- A write to BAR0 that its stream does not protect is an Unsupported Request, whatever it is. -/
theorem execHostBarWrite_unprotected (hfn : isFunction who = true) (hlink : linked s = true) (harr : arrives s who = true)
    (hprot : unprotected s who ide = true) (hlen : data.length ≤ 512) :
    execHostBarWrite who 0 off data ide s = .next (answer s .unsupported) := by
  simp only [execHostBarWrite, hostWrite, mayAsk_of_function hfn hlink, hfn, hlink, harr, hprot, maxPayload, Nat.not_lt.mpr hlen,
    Bool.not_true, decide_false, Bool.or_self, Bool.and_self, Bool.false_eq_true, if_false, if_true, ite_self]

theorem execHostBarRead_unprotected (hfn : isFunction who = true) (hlink : linked s = true) (harr : arrives s who = true)
    (hprot : unprotected s who ide = true) : execHostBarRead who 0 off n ide s =
      if hasPosted s who then .next s else .next (answer s .unsupported) := by
  simp only [execHostBarRead, hfn, hlink, harr, hprot, Bool.not_true, Bool.false_or, Bool.false_eq_true, if_false, if_true]

/-- The PF's write of an aligned control register. -/
theorem execRegisterWrite_aligned (hal : off % 8 = 0) (hin : off < 2 ^ 26) (hlink : linked s = true) (hclear : clear s .pf) :
    execRegisterWrite off v s = .next (regWrite .pf off v s) := by
  have hwrite : hostWrite .pf false (.register off v) s = regWrite .pf off v s :=
    (hostWrite_posted (mayAsk_of_function rfl hlink) rfl rfl).trans (post_register hclear rfl)
  simp only [execRegisterWrite, hal, hin, hwrite, decide_true, Bool.and_self, if_true]

theorem execPcieLinkTrain_legal {rate : Nat} (hboot : s.fw.boot = 3) (hwidth : n = 16 ∨ n = 8 ∨ n = 4) (hrate : rate ∈ pcieRates) :
    execPcieLinkTrain n rate s = .next { s with host := { s.host with width := n, rate := rate, flit := decide (320 < rate) } } := by
  have hwidth : (decide (n = 16) || decide (n = 8) || decide (n = 4)) = true := by
    simpa only [Bool.or_eq_true, decide_eq_true_eq, or_assoc] using hwidth
  simp only [execPcieLinkTrain, hboot, hwidth, List.contains_iff_mem.mpr hrate, decide_true, Bool.and_self, if_true]

end Port

/-! ### The notify windows (15 R371) -/

section Notify
variable {s : State} {who : Requester} {j : Nat} {v : Word64} {add ide : Bool}

/-- The distance of the add addresses of a notify page from the set addresses. -/
def addOffset (add : Bool) : Nat := if add then 0x800 else 0

theorem addOffset_le (add : Bool) : addOffset add ≤ 0x800 := by cases add <;> decide

/-- The set and the add address of a register of a notify page name it. -/
theorem notifySlot_offset (hj : j < 256) : notifySlot (8 * j + addOffset add) = some (j, add) := by
  unfold notifySlot
  cases add with
  | false => rw [addOffset, if_neg Bool.false_ne_true, if_neg (by simp; omega)]; simp; omega
  | true => rw [addOffset, if_pos rfl, if_neg (by simp; omega)]; simp; omega

/-- The notify page of the PF's and the harts' registers. -/
theorem regWrite_notifyPage (hj : j < 256) : regWrite who (0xA000 + 8 * j + addOffset add) v s = notifyWrite who j v add s := by
  have hadd := addOffset_le add
  have hpage : (0xA000 + 8 * j + addOffset add) / 0x1000 = 10 := by omega
  have hoff : (0xA000 + 8 * j + addOffset add) % 0x1000 = 8 * j + addOffset add := by omega
  have hlow : ¬ 0x1000000 ≤ 0xA000 + 8 * j + addOffset add := by omega
  have htdi : ¬ 0xD100 ≤ 0xA000 + 8 * j + addOffset add := by omega
  simp only [regWrite, hpage, hoff, hlow, htdi, notifySlot_offset hj, decide_false, Bool.false_and, Bool.false_eq_true, if_false]

/-- The notify page of a VF. -/
theorem vfWrite_notifyPage {t : Nat} (hj : j < 256) :
    vfWrite t (0x1000 + 8 * j + addOffset add) v s = notifyWrite (.tdi t) j v add s := by
  have hadd := addOffset_le add
  have hoff : 0x1000 + 8 * j + addOffset add - 0x1000 = 8 * j + addOffset add := by omega
  have hpast : ¬ 0x1000 + 8 * j + addOffset add < 0x1000 := by omega
  have hin : 0x1000 + 8 * j + addOffset add < 0x2000 := by omega
  simp only [vfWrite, hoff, hpast, hin, notifySlot_offset hj, if_false, if_true]

/-- Every requester's notify page is where the model writes it. -/
theorem writeReg_notifyOffset (hj : j < 256) : writeReg who (notifyOffset who j add) v s = notifyWrite who j v add s := by
  cases who with
  | tdi t => have hpage := vfWrite_notifyPage (v := v) (s := s) (add := add) (t := t) hj; exact hpage
  | pf => exact regWrite_notifyPage hj
  | hart h => exact regWrite_notifyPage hj

/-- A write to the notify window that arrives reaches a register that the requester may reach. -/
theorem notifyPost_allowed (hj : j < 256) (hask : mayAsk s who = true) (harr : arrives s who = true)
    (hprot : unprotected s who ide = false) (hclear : clear s who) (hallow : ∀ h, who = .hart h → notifyAllowed s who j = true) :
    notifyPost who j v add ide s = notifyWrite who j v add s := by
  have hwrite : hostWrite who ide (.register (notifyOffset who j add) v) s = notifyWrite who j v add s :=
    (hostWrite_posted hask harr hprot).trans ((post_register hclear harr).trans (writeReg_notifyOffset hj))
  cases who with
  | pf => simp only [notifyPost, Nat.not_le.mpr hj, hwrite, Bool.and_false, Bool.false_eq_true, if_false]
  | tdi t => simp only [notifyPost, Nat.not_le.mpr hj, hwrite, Bool.and_false, Bool.false_eq_true, if_false]
  | hart h => simp only [notifyPost, Nat.not_le.mpr hj, hwrite, hallow h rfl, Bool.not_true, Bool.and_false, Bool.false_eq_true, if_false]

/-- A hart's write to a register that its domain does not reach is an access fault. -/
theorem notifyPost_barred {hart : Nat} (hj : j < 256) (hask : mayAsk s (.hart hart) = true)
    (hbar : notifyAllowed s (.hart hart) j = false) :
    notifyPost (.hart hart) j v add ide s = answer s (.accessFault .store) := by
  simp only [notifyPost, Nat.not_le.mpr hj, hask, hbar, Bool.not_false, Bool.and_self, if_false, if_true]

end Notify

/-! ### The harts (15 R366 to R368, 08 R220) -/

section Harts
variable {s : State} {hart off n : Nat} {op : HartOp} {data : List Byte}

/-- An access of a hart that runs, behind nothing of its own that waits, goes by where it lies. -/
theorem execHartAccess_open (hh : hart < 16) (hhouse : s.fw.house = true) (hposted : hasPosted s (.hart hart) = false)
    (hgives : hartGives op = true → data.length = n) (hfence : op ≠ .fence) (hreset : op ≠ .reset) :
    execHartAccess hart op off n data s =
      if off + n ≤ 2 ^ 39 then .next (hartMemory s hart op off n data)
      else if 0xF000000000 ≤ off && off + n ≤ 0xF000000000 + 2 ^ 26 then .next (hartControl s hart op (off - 0xF000000000) n data)
      else .next (answer s (.accessFault (faultKind op))) := by
  have hask : mayAsk s (.hart hart) = true := by simp only [mayAsk, hh, hhouse, decide_true, Bool.and_self]
  have hlen : (hartGives op && decide (data.length ≠ n)) = false := by
    cases hg : hartGives op with
    | false => rfl
    | true => simp [hgives hg]
  unfold execHartAccess
  simp only [hask, hlen, hposted, Bool.not_true, Bool.and_false, Bool.or_self, Bool.false_eq_true, if_false]
  cases op with
  | fence => exact absurd rfl hfence
  | reset => exact absurd rfl hreset
  | _ => rfl

theorem execHartAccess_fence : execHartAccess hart .fence off n data s = .next s := by
  simp only [execHartAccess, ite_self]

/-- A hart's operation other than a store waits for its earlier ones. -/
theorem execHartAccess_behind (hposted : hasPosted s (.hart hart) = true) (hwaits : hartWaits op = true) :
    execHartAccess hart op off n data s = .next s := by
  simp only [execHartAccess, hposted, hwaits, Bool.and_self, Bool.or_true, if_true]

end Harts

/-- Settles O44: a request of the port arrives and is posted, or answered; an access of a hart goes by where it lies. -/
theorem hostAccessResults : Obligations.HostAccessResults := by
  intro s who bar off n j hart v data ide asks clear waiting
  have hposts {p : Posted} : asks → HostAccess.clear s who → hostWrite who ide p s = post s who p :=
    fun ⟨hfn, hlink, harr, hprot, _⟩ _ => hostWrite_posted (mayAsk_of_function hfn hlink) harr hprot
  refine ⟨fun hfn hlink => ?atomic, fun h hn hal hsize => ?readReg, fun h hsize => execHostBarRead_beyond h hsize,
    fun as h haddrs hclear => ⟨fun hlit => ?readLit, fun hheld => ?readHeld⟩, fun h haddrs => execHostBarRead_unmapped h haddrs,
    fun h hclear hlen hal hsize => ?writeReg, fun ⟨_, _, _, hprot, _⟩ hsize => execHostBarWrite_beyond hprot hsize,
    fun as h hclear hlen haddrs => ⟨fun hlit => ?writeLit, fun hheld => ?writeHeld⟩,
    fun hfn hlink harr hprot hlen =>
      ⟨execHostBarRead_unprotected hfn hlink harr hprot, execHostBarWrite_unprotected hfn hlink harr hprot hlen⟩,
    fun hal hin hlink hclear => execRegisterWrite_aligned hal hin hlink hclear,
    fun hj hask harr hprot hclear hallow => ⟨congrArg _ (notifyPost_allowed hj hask harr hprot hclear hallow),
      congrArg _ (notifyPost_allowed hj hask harr hprot hclear hallow)⟩,
    fun hj hask hbar => ⟨congrArg _ (notifyPost_barred hj hask hbar), congrArg _ (notifyPost_barred hj hask hbar)⟩,
    fun rate hboot hwidth hrate => execPcieLinkTrain_legal hboot hwidth hrate,
    fun op hh hhouse hposted hgives hfence hreset =>
      ⟨fun hmem => ?hartMemory, fun hlo hhi => ?hartControl, fun hbeyond hout => ?hartFault⟩,
    fun _ _ _ => ?hartFence, fun op _ hposted hwaits => execHartAccess_behind hposted hwaits⟩
  case atomic =>
    change execHostAtomicop who bar off s = _
    simp only [execHostAtomicop, hfn, hlink, Bool.and_self, if_true]
    rfl
  case readReg => subst hn; exact execHostBarRead_bar0 h hal hsize
  case readLit => exact (execHostBarRead_bar2 h haddrs).trans (congrArg _ (post_read_lit hclear h.2.2.1 hlit))
  case readHeld => exact (execHostBarRead_bar2 h haddrs).trans (congrArg _ (post_held hclear.1 hheld))
  case writeReg =>
    exact (execHostBarWrite_bar0 h.1 hlen hal hsize).trans (congrArg _ ((hposts h hclear).trans (post_register hclear h.2.2.1)))
  case writeLit =>
    exact (execHostBarWrite_bar2 h.1 hlen haddrs).trans (congrArg _ ((hposts h hclear).trans (post_memory_lit hclear h.2.2.1 hlit)))
  case writeHeld =>
    exact (execHostBarWrite_bar2 h.1 hlen haddrs).trans (congrArg _ ((hposts h hclear).trans (post_held hclear.1 hheld)))
  case hartFence => exact execHartAccess_fence (off := off) (n := n)
  case hartMemory => exact (execHartAccess_open hh hhouse hposted hgives hfence hreset).trans (if_pos hmem)
  case hartControl =>
    refine (execHartAccess_open hh hhouse hposted hgives hfence hreset).trans ((if_neg (by omega)).trans (if_pos ?_))
    simp only [hlo, hhi, decide_true, Bool.and_self]
  case hartFault =>
    refine (execHartAccess_open hh hhouse hposted hgives hfence hreset).trans ((if_neg (by omega)).trans (if_neg ?_))
    simpa using hout

end Sys2Proof.HostAccess
end

section
/-!
The trusted device interfaces (15 R358 to R360, 16 R382): what a message of the session and a reset of the function answer.
-/

namespace Sys2Proof.DeviceInterfaces
open Sys2Proof.Machine

section Messages
variable {s : State} {t : Nat}

/-- A TDI reads what was last made of it. -/
theorem getTdi_modTdi (f : Tdi → Tdi) : getTdi (modTdi s t f) t = f (getTdi s t) := by simp only [getTdi, modTdi, mgetD_mset_same]

theorem execIdeKm_keyed (ht : isTdi t = true) (hspdm : s.spdm = true) (hstate : (getTdi s t).state ≠ .error) :
    execIdeKm t s = .next (modTdi s t (fun d => { d with keyed := true, ideUp := true })) := by
  simp only [execIdeKm, hspdm, ht, hstate, Bool.not_true, decide_false, Bool.or_self, Bool.false_eq_true, if_false]

theorem execLockInterface_locks (ht : isTdi t = true) (hspdm : s.spdm = true) (hstate : (getTdi s t).state = .unlocked)
    (hgood : lockRefused s t = false) :
    execLockInterface t s = .next (tdispAnswer (modTdi s t (fun d => { d with state := .locked })) true) := by
  simp only [execLockInterface, hspdm, ht, hstate, hgood, Bool.not_true, ne_eq, not_true, decide_false, Bool.or_self,
    Bool.false_eq_true, if_false]

theorem execLockInterface_refuses (ht : isTdi t = true) (hspdm : s.spdm = true)
    (hbad : (getTdi s t).state ≠ .unlocked ∨ lockRefused s t = true) : execLockInterface t s = .next (tdispAnswer s false) := by
  have hbad : (decide ((getTdi s t).state ≠ .unlocked) || lockRefused s t) = true := by simpa using hbad
  simp only [execLockInterface, hspdm, ht, hbad, Bool.not_true, Bool.or_self, Bool.false_eq_true, if_false, if_true]

theorem execStartInterface_runs (ht : isTdi t = true) (hspdm : s.spdm = true) (hstate : (getTdi s t).state = .locked) :
    execStartInterface t s = .next (tdispAnswer (modTdi s t (fun d => { d with state := .run })) true) := by
  simp only [execStartInterface, hspdm, ht, hstate, Bool.not_true, ne_eq, not_true, Bool.or_self, Bool.false_eq_true, if_false]

theorem execStartInterface_refuses (ht : isTdi t = true) (hspdm : s.spdm = true) (hstate : (getTdi s t).state ≠ .locked) :
    execStartInterface t s = .next (tdispAnswer s false) := by
  simp only [execStartInterface, hspdm, ht, hstate, Bool.not_true, ne_eq, not_false_eq_true, Bool.or_self, Bool.false_eq_true,
    if_false, if_true]

theorem execStopInterface_stops (ht : isTdi t = true) (hspdm : s.spdm = true) :
    execStopInterface t s = .next (tdispAnswer (tdiError s t) true) := by
  simp only [execStopInterface, hspdm, ht, Bool.not_true, Bool.or_self, Bool.false_eq_true, if_false]

theorem execIdeIntegrityFailure_fails (ht : isTdi t = true) (hup : (getTdi s t).ideUp = true) :
    execIdeIntegrityFailure t s = .next (tdiError s t) := by
  simp only [execIdeIntegrityFailure, ht, hup, Bool.and_self, if_true]

/-- A TDI in ERROR, or one being reset, of whose contexts nothing is left on the engines, has its memory zeroed and is unlocked. -/
theorem execTdiUnlockComplete_unlocks (ht : isTdi t = true) (hstate : (getTdi s t).state = .error ∨ (getTdi s t).unlocking = true)
    (hleft : boundLeft s (tdiAsids (getTdi s t)) = false) : execTdiUnlockComplete t s = .next (modTdi
      (renewWindows (dropTlb ((tdiRuns (getTdi s t)).foldl (fun s r => zeroRange s (hbmKey r.1) r.2) s)
        (fun e => (tdiAsids (getTdi s t)).contains e.asid))) t
      (fun d => { d with state := .unlocked, unlocking := false, keyed := false, ideUp := false
                         entry := if d.unlocking then 0 else d.entry })) := by
  have hstate : (decide ((getTdi s t).state = .error) || (getTdi s t).unlocking) = true := by simpa using hstate
  simp only [execTdiUnlockComplete, ht, hstate, hleft, Bool.not_true, Bool.or_self, Bool.false_eq_true, if_false]

end Messages

/-! ### The reset of a function (15 R360, 16 R382) -/

section Reset
variable {s : State} {t : Nat}

/-- A doorbell that leaves takes those of its ticket along, and no other one comes. -/
theorem dropRing_rings (s : State) (q : Ring) : (dropRing s q).rings = s.rings.filter (fun r => r.ticket ≠ q.ticket) := rfl

/-- Once doorbells have left, what is pending was so before, and has none of their tickets. -/
theorem mem_foldl_dropRing {l : List Ring} {q : Ring} (h : q ∈ (l.foldl dropRing s).rings) :
    q ∈ s.rings ∧ ∀ r ∈ l, q.ticket ≠ r.ticket := by
  induction l generalizing s with
  | nil => exact ⟨h, fun _ hr => absurd hr List.not_mem_nil⟩
  | cons r l ih =>
    obtain ⟨hq, hl⟩ := ih h
    obtain ⟨hq, hr⟩ := List.mem_filter.mp (dropRing_rings s r ▸ hq)
    exact ⟨hq, List.forall_mem_cons.mpr ⟨by simpa using hr, hl⟩⟩

/-- The state in which the doorbells of a function that is reset have left, and its doorbell page with them. -/
def functionReset (s : State) (t : Nat) : State :=
  let r := (s.rings.filter (fun q => q.who = .tdi t)).foldl dropRing s
  modTdi { r with bells := mdel r.bells (bellOf (.tdi t)) } t (fun d => { d with unlocking := true })

theorem functionReset_rings : ∀ q ∈ (functionReset s t).rings, q.who ≠ .tdi t := by
  intro q hq hwho
  obtain ⟨hmem, hnone⟩ := mem_foldl_dropRing hq
  exact hnone q (List.mem_filter.mpr ⟨hmem, by simpa using hwho⟩) rfl

theorem execVfFlr_resets (ht : isTdi t = true) : execVfFlr t s = .next (functionReset (tdiError s t) t) := by
  simp only [execVfFlr, ht, Bool.not_true, Bool.false_eq_true, if_false]
  rfl

end Reset

/-- Settles O45: each message meets the session and the TDI's state; a reset drops the function's doorbells by their tickets. -/
theorem tdiEvents : Obligations.TdiEvents := by
  intro s t ht d
  exact ⟨rfl, rfl, fun hspdm hstate => execIdeKm_keyed ht hspdm hstate,
    fun hspdm hstate hgood => execLockInterface_locks ht hspdm hstate hgood,
    fun hspdm hbad => execLockInterface_refuses ht hspdm hbad, fun hspdm hstate => execStartInterface_runs ht hspdm hstate,
    fun hspdm hstate => execStartInterface_refuses ht hspdm hstate, fun hspdm => execStopInterface_stops ht hspdm,
    fun hup => execIdeIntegrityFailure_fails ht hup, rfl, rfl, rfl, rfl,
    fun hstate hleft => execTdiUnlockComplete_unlocks ht hstate hleft, execVfFlr_resets ht,
    congrArg Tdi.unlocking (getTdi_modTdi _), functionReset_rings, mget_mdel_same _ _⟩

end Sys2Proof.DeviceInterfaces
end

section
/-!
The links (15 R361 to R365, 08 R224, R225): flits and their replay, admission, and the requests of peers.
-/

namespace Sys2Proof.Links
open Sys2Proof.Machine Sys2Proof.SliceFrame

/-! ### What a transmitter leaves of its link (15 R361) -/

section Transmitter
variable {l : Link}

/-- The receiving side of a link: whether it is up, the sequence expected next, the answers given. -/
def receiver (l : Link) : Bool × BitVec 16 × List (Bool × BitVec 16) := (l.up, l.rxSeq, l.sent)

theorem receiver_pump (rs : List Nat) (l : Link) : receiver (Link.pump rs l) = receiver l := by
  induction rs generalizing l with
  | nil => rfl
  | cons r rest ih =>
    rw [Link.pump]
    refine iteInduction (motive := fun k => receiver k = receiver l) (fun _ => ?_) (fun _ => rfl)
    exact ih (l.send r)

theorem receiver_enqueue (rs : List Nat) (l : Link) : receiver (l.enqueue rs) = receiver l := receiver_pump _ l

theorem receiver_acked (a : BitVec 16) : receiver (l.acked a) = receiver l := by
  unfold Link.acked
  split
  · exact receiver_pump _ _
  · rfl

/-- A link reads what was last made of it. -/
theorem getLink_modLink_same (s : State) (i : Nat) (f : Link → Link) : getLink (modLink s i f) i = f (getLink s i) := by
  simp only [getLink, modLink, mgetD_mset_same]

theorem getLink_modLink_ne {i j : Nat} (h : j ≠ i) (s : State) (f : Link → Link) : getLink (modLink s i f) j = getLink s j := by
  simp only [getLink, modLink, mgetD_mset_ne _ _ _ h]

/-- A change of a link that leaves the receiving side leaves it on every link. -/
theorem receiver_modLink {f : Link → Link} (hf : ∀ l, receiver (f l) = receiver l) (s : State) (i j : Nat) :
    receiver (getLink (modLink s i f) j) = receiver (getLink s j) := by
  by_cases h : j = i
  · rw [h, getLink_modLink_same, hf]
  · rw [getLink_modLink_ne h]

theorem receiver_grantAll (n : Nat) (s : State) (j : Nat) : receiver (getLink (grantAll n s) j) = receiver (getLink s j) := by
  induction n generalizing s with
  | zero => rfl
  | succ n ih =>
    rw [grantAll]
    split
    · rfl
    · next i _ =>
      refine (ih (grantOne s i)).trans (receiver_modLink (f := fun l => { l.enqueue [0] with
        admitted := l.admitted.drop 1, grants := l.grants ++ l.admitted.take 1, served := s.nextId }) (fun l => ?_) s i j)
      exact receiver_enqueue [0] l

end Transmitter

/-! ### Flits (15 R361, R362) -/

section Flits
variable {s : State} {link : Nat} {fl : Flit}

/-- The state in which the flit expected next has been taken and acknowledged. -/
def flitTaken (s : State) (link : Nat) (fl : Flit) : State :=
  modLink (modLink s link (fun l => l.acked fl.ack)) link
    (fun l => { l with rxSeq := l.rxSeq + 1, sent := (true, fl.seq) :: l.sent })

theorem execFlitReceive_corrupt (hup : (getLink s link).up = true) (hcrc : fl.crcOk = false) :
    execFlitReceive link fl s = .next (modLink s link (fun l => { l with sent := (false, fl.seq) :: l.sent })) := by
  simp only [execFlitReceive, hup, hcrc, Bool.not_true, Bool.not_false, Bool.false_eq_true, if_false, if_true]

theorem execFlitReceive_ignored (hup : (getLink s link).up = true) (hcrc : fl.crcOk = true) (hseq : fl.seq ≠ (getLink s link).rxSeq) :
    execFlitReceive link fl s = .next (modLink s link (fun l => l.acked fl.ack)) := by
  simp only [execFlitReceive, hup, hcrc, hseq, Bool.not_true, Bool.false_eq_true, ne_eq, not_false_eq_true, if_false, if_true]

/-- What the flit that is taken does, by its kind. -/
def flitActs (s : State) (link : Nat) (fl : Flit) : State :=
  match fl.kind with
  | .data => let s := modLink s link (fun l => l.payload fl.tag); grantAll (waitingGrants s) s
  | .admission => admitReq s link fl.tag fl.bytes
  | .grant => granted s link fl.tag
  | .ack => s
  | .idle => s

theorem execFlitReceive_taken (hup : (getLink s link).up = true) (hcrc : fl.crcOk = true) (hseq : fl.seq = (getLink s link).rxSeq) :
    execFlitReceive link fl s = .next (flitActs (flitTaken s link fl) link fl) := by
  unfold execFlitReceive
  simp only [hup, hcrc, hseq, Bool.not_true, Bool.false_eq_true, ne_eq, not_true, if_false]
  rw [← hseq]
  rfl

/-- A flit that is taken moves the sequence on by one, and is answered. -/
theorem receiver_flitTaken : receiver (getLink (flitTaken s link fl) link) =
    ((getLink s link).up, (getLink s link).rxSeq + 1, (true, fl.seq) :: (getLink s link).sent) := by
  obtain ⟨hup, hseq, hsent⟩ := by simpa only [receiver, Prod.mk.injEq] using receiver_acked (l := getLink s link) fl.ack
  simp only [flitTaken, getLink_modLink_same, receiver, hup, hseq, hsent]

/-- A data flit changes no more of the receiving side. -/
theorem receiver_dataFlit (hkind : fl.kind = .data) : receiver (getLink (flitActs s link fl) link) = receiver (getLink s link) := by
  simp only [flitActs, hkind]
  exact (receiver_grantAll _ _ link).trans (receiver_modLink (f := fun l => l.payload fl.tag) (fun _ => rfl) s link link)

end Flits

/-! ### Replay (15 R361) -/

section Replay
variable {s : State} {link seq : Nat}

/-- A list is what stands before the elements that are dropped, and these. -/
theorem take_append_dropWhile {α : Type} (p : α → Bool) (l : List α) :
    l.take (l.length - (l.dropWhile p).length) ++ l.dropWhile p = l := by
  have hlen : l.length - (l.dropWhile p).length = (l.takeWhile p).length := by
    have := congrArg List.length (List.takeWhile_append_dropWhile (p := p) (l := l))
    rw [List.length_append] at this
    omega
  have htake : l.take (l.takeWhile p).length = l.takeWhile p := by
    conv_lhs => rw [← List.takeWhile_append_dropWhile (p := p) (l := l)]
    exact List.take_left' (by rw [List.takeWhile_append_dropWhile])
  rw [hlen, htake, List.takeWhile_append_dropWhile]

theorem getLink_freeze (s : State) (n i : Nat) : getLink (freeze s n) i = getLink s i := by
  unfold freeze
  split <;> rfl

/-- The flits of a replay buffer that a negative acknowledgement replays: from the one that it names on. -/
def replayed (l : Link) (seq : Nat) : List Sent := l.replay.dropWhile (fun q => q.seq.toNat ≠ seq)

/-- The replay buffer in which they have been replayed in a cycle, for the first time. -/
def replayedOnce (l : Link) (seq clock : Nat) : List Sent :=
  l.replay.take (l.replay.length - (replayed l seq).length) ++ (replayed l seq).map (fun q => { q with times := [clock] })

theorem replayedOnce_seqs (l : Link) (seq clock : Nat) : (replayedOnce l seq clock).map (·.seq) = l.replay.map (·.seq) := by
  conv_rhs => rw [← take_append_dropWhile (fun q => q.seq.toNat ≠ seq) l.replay]
  simp only [replayedOnce, replayed, List.map_append, List.map_map, Function.comp_def]

/-- A negative acknowledgement of a flit of the replay buffer replays it and those after it. -/
theorem execNegativeAcknowledgement_replays (hup : (getLink s link).up = true) (hmem : ∃ q ∈ (getLink s link).replay, q.seq.toNat = seq)
    (hfresh : ∀ q ∈ (getLink s link).replay, q.times = []) : ∃ t, execNegativeAcknowledgement link seq s = .next t ∧
      (getLink t link).up = true ∧ (getLink t link).replay = replayedOnce (getLink s link) seq s.clock := by
  have hsome : (replayed (getLink s link) seq).isEmpty = false := by
    obtain ⟨q, hq, hseq⟩ := hmem
    rw [List.isEmpty_eq_false_iff, replayed, ne_eq, List.dropWhile_eq_nil_iff]
    exact fun hall => by simpa [hseq] using hall q hq
  have hrecent : (replayed (getLink s link) seq).map
      (fun q => { q with times := (s.clock :: q.times).filter (fun t => s.clock < t + msCycles) }) =
        (replayed (getLink s link) seq).map (fun q => { q with times := [s.clock] }) := by
    refine List.map_congr_left fun q hq => ?_
    have hnow : s.clock < s.clock + msCycles := Nat.lt_add_of_pos_right (by decide)
    simp only [hfresh q (List.dropWhile_subset _ hq), List.filter_cons, hnow, decide_true, if_true, List.filter_nil]
  have hfew : ((replayed (getLink s link) seq).map (fun q => { q with times := [s.clock] })).any
      (fun q => decide (8 ≤ q.times.length)) = false := by
    simp [List.any_eq_false]
  unfold replayed at hsome hrecent hfew
  unfold execNegativeAcknowledgement
  simp only [hup, hsome, hrecent, hfew, Bool.not_true, Bool.or_self, Bool.false_eq_true, if_false]
  have hlink (storms : List Nat) := getLink_modLink_same s link
    (fun l => { l with replay := replayedOnce (getLink s link) seq s.clock, storms := storms })
  refine ⟨_, rfl, ?_⟩
  rw [apply_ite (getLink · link), getLink_freeze, ite_self]
  exact ⟨(congrArg Link.up (hlink _)).trans hup, congrArg Link.replay (hlink _)⟩

end Replay

/-! ### Admission (15 R362) -/

section Admission
variable {s : State} {link bytes tag : Nat}

theorem grantAll_none {n : Nat} (h : nextGrant s = none) : grantAll n s = s := by
  cases n with
  | zero => rfl
  | succ n => simp only [grantAll, h]

/-- While a request waits that can be granted, it is granted first. -/
theorem grantAll_some {n i : Nat} (hn : 0 < n) (h : nextGrant s = some i) : grantAll n s = grantAll (n - 1) (grantOne s i) := by
  obtain ⟨m, rfl⟩ := Nat.exists_eq_add_one.mpr hn
  simp only [grantAll, h, Nat.add_sub_cancel]

/-- The state in which a request has joined those that wait on its link. -/
def admissionWaits (s : State) (link tag bytes : Nat) : State :=
  modLink s link (fun l => { l with admitted := l.admitted ++ [(tag, bytes)] })

theorem waitingGrants_admissionWaits : 0 < waitingGrants (admissionWaits s link tag bytes) := by
  have hmem := WarpControl.mem_of_mget_eq_some (mget_mset_same s.links link
    { getLink s link with admitted := (getLink s link).admitted ++ [(tag, bytes)] })
  rw [waitingGrants, ← List.sum_eq_foldl]
  refine Nat.lt_of_lt_of_le ?_ (List.le_sum_of_mem (List.mem_map_of_mem hmem))
  simp

theorem execAdmissionRequest_up (hup : (getLink s link).up = true) (hsize : bytes ≤ 65536) : execAdmissionRequest link bytes tag s =
    .next (grantAll (waitingGrants (admissionWaits s link tag bytes)) (admissionWaits s link tag bytes)) := by
  simp only [execAdmissionRequest, admitReq, hup, hsize, decide_true, Bool.and_self, if_true]
  rfl

/-- A grant that names a transfer of the link that waits for it has the transfer sent, and gives its answer. -/
theorem execAdmissionGrant_waits {r : PeerReq} (hup : (getLink s link).up = true)
    (hout : s.outs.find? (fun r => r.id = tag && r.link = link && !r.granted) = some r) :
    ∃ t, execAdmissionGrant link tag s = .next t ∧ (∃ q ∈ t.outs, q.id = tag ∧ q.granted = true) ∧
      (∀ c, r.answer = some c → t.completion = some c) ∧
      getLink t link = (getLink s link).enqueue (List.replicate (flitsOf r.bytes) tag) := by
  have hid : r.id = tag := by
    have := List.find?_some hout
    simp only [Bool.and_eq_true, decide_eq_true_eq] at this
    exact this.1.1
  simp only [execAdmissionGrant, granted, hup, hout, if_true]
  refine ⟨_, rfl, ⟨{ r with granted := true }, ?_, hid, rfl⟩, fun c hc => ?_, getLink_modLink_same _ link _⟩
  · exact List.mem_map.mpr ⟨r, List.mem_of_find?_eq_some hout, if_pos hid⟩
  · simp only [modLink, hc, Option.isSome_some, if_true]

end Admission

/-! ### The requests of peers (15 R363, 08 R224) -/

section Peers
variable {s : State} {p : PeerTag} {pa : Nat} {op : PeerOp}

/-- A peer's request that may be performed is. -/
theorem execPeerRequest_served (hlinks : linksTo s p.device p.epoch ≠ []) (hnew : ∀ q ∈ s.peerq, q.2.1 ≠ p)
    (hin : inHbm pa (peerBytes op) = true) (hready : peerReady s s.nextId p pa op = true) :
    execPeerRequest p pa op s = .next (servePeer s p pa op) := by
  have hany : s.peerq.any (fun q => q.2.1 = p) = false := List.any_eq_false.mpr (by simpa using hnew)
  simp only [execPeerRequest, List.isEmpty_eq_false_iff.mpr hlinks, hany, hin, hready, Bool.or_self, Bool.not_true,
    Bool.false_eq_true, if_false, if_true]

/-- The state in which a peer's request waits. -/
def peerQueued (s : State) (p : PeerTag) (pa : Nat) (op : PeerOp) : State :=
  lampJoin { s with peerq := s.peerq ++ [(s.nextId, p, pa, op)], nextId := s.nextId + 1 } (peerWho s.nextId) (peerUnits pa op)

theorem execPeerRequest_queued (hlinks : linksTo s p.device p.epoch ≠ []) (hnew : ∀ q ∈ s.peerq, q.2.1 ≠ p)
    (hin : inHbm pa (peerBytes op) = true) (hready : peerReady s s.nextId p pa op = false) :
    execPeerRequest p pa op s = .next (peerQueued s p pa op) := by
  have hany : s.peerq.any (fun q => q.2.1 = p) = false := List.any_eq_false.mpr (by simpa using hnew)
  simp only [execPeerRequest, List.isEmpty_eq_false_iff.mpr hlinks, hany, hin, hready, Bool.or_self, Bool.not_true,
    Bool.false_eq_true, if_false, peerQueued]

/-- A request whose tag waits already is the one that waits. -/
theorem execPeerRequest_again (hold : ∃ q ∈ s.peerq, q.2.1 = p) : execPeerRequest p pa op s = .next s := by
  have hany : s.peerq.any (fun q => q.2.1 = p) = true := List.any_eq_true.mpr (by simpa using hold)
  simp only [execPeerRequest, hany, Bool.or_true, if_true]

/-- One whose pseudo-channels are not all LIT, or have earlier accesses, is not ready. -/
theorem peerReady_held {id : Nat} (hheld : lampHeld s (peerWho id) (peerUnits pa op) = true) : peerReady s id p pa op = false := by
  simp only [peerReady, hheld, Bool.not_true, Bool.false_and]

/-- A load of a peer on LIT pseudo-channels. -/
theorem execPeerRequest_load {n : Nat} (hlinks : linksTo s p.device p.epoch ≠ []) (hnew : ∀ q ∈ s.peerq, q.2.1 ≠ p)
    (hin : inHbm pa n = true) (hlit : lampHeld s (peerWho s.nextId) (peerUnits pa (.load n)) = false) :
    execPeerRequest p pa (.load n) s = .next (
      let v := askAll (touchAll s (peerUnits pa (.load n))) ((List.range n).map (fun i => hbmKey (pa + i)))
      respond v (linksTo s p.device p.epoch) pa n
        (if (List.range n).any (fun i => poisonedAt v (hbmKey (pa + i)) 1) then .poisoned else .data (pocNat v (hbmKey pa) n))) := by
  have hready : peerReady s s.nextId p pa (.load n) = true := by simp only [peerReady, hlit, Bool.not_false, Bool.and_self]
  rw [execPeerRequest_served hlinks hnew hin hready]
  simp only [servePeer, List.isEmpty_eq_false_iff.mpr hlinks, Bool.false_eq_true, if_false]

/-- A store of a peer on LIT pseudo-channels. -/
theorem execPeerRequest_store {data : List Byte} (hlinks : linksTo s p.device p.epoch ≠ []) (hnew : ∀ q ∈ s.peerq, q.2.1 ≠ p)
    (hin : inHbm pa data.length = true) (hlit : lampHeld s (peerWho s.nextId) (peerUnits pa (.store data)) = false) :
    execPeerRequest p pa (.store data) s = .next (respond (pocWrite (touchAll s (peerUnits pa (.store data)))
      ((List.range data.length).map (fun i => (hbmKey (pa + i), data.getD i 0)))) (linksTo s p.device p.epoch) pa 0 (.data 0)) := by
  have hready : peerReady s s.nextId p pa (.store data) = true := by simp only [peerReady, hlit, Bool.not_false, Bool.and_self]
  rw [execPeerRequest_served hlinks hnew hin hready]
  simp only [servePeer, peerBytes, List.isEmpty_eq_false_iff.mpr hlinks, Bool.false_eq_true, if_false]

section Atomic
variable {o type : Nat} {data swap : Word64}

/-- The pseudo-channels of an atomic on n bytes. -/
def atomUnits (pa type : Nat) : List Nat := nub ((List.range (atomBytes type)).map (fun i => hbmUnit (pa + i)))

theorem servePeer_atomic (hlinks : linksTo s p.device p.epoch ≠ []) : servePeer s p pa (.atomic o type data swap) =
    peerAtomic (touchAll s (atomUnits pa type)) p (linksTo s p.device p.epoch) pa o type data swap := by
  simp only [servePeer, List.isEmpty_eq_false_iff.mpr hlinks, Bool.false_eq_true, if_false]
  rfl

/-- An atomic is ready on LIT pseudo-channels when its hub die has recorded it or has room to. -/
theorem peerReady_atomic {id : Nat} (hlit : lampHeld s (peerWho id) (atomUnits pa type) = false) :
    peerReady s id p pa (.atomic o type data swap) =
      ((s.dedup.find? (fun d => d.source = peerSource p)).isSome || decide (1 ≤ dedupFree s (hubOf (hbmKey pa)))) := by
  change (!lampHeld s (peerWho id) (atomUnits pa type) && _) = _
  rw [hlit, Bool.not_false, Bool.true_and, List.isSome_find?]

/-- Whatever its pseudo-channels, an atomic finds the table of its hub die as it is. -/
theorem find?_dedup_touchAll (us : List Nat) : (touchAll s us).dedup.find? (fun d => d.source = peerSource p) =
    s.dedup.find? (fun d => d.source = peerSource p) := by rw [(sameBeyond_touchAll s us).dedup]

/-- An atomic that its hub die has recorded is answered with the value recorded, and not applied again. -/
theorem execPeerRequest_recorded {d : Dedup} (hlinks : linksTo s p.device p.epoch ≠ []) (hnew : ∀ q ∈ s.peerq, q.2.1 ≠ p)
    (hin : inHbm pa (atomBytes type) = true) (hlit : lampHeld s (peerWho s.nextId) (atomUnits pa type) = false)
    (hd : s.dedup.find? (fun d => d.source = peerSource p) = some d) :
    execPeerRequest p pa (.atomic o type data swap) s = .next (respond (touchAll s (atomUnits pa type)) (linksTo s p.device p.epoch) pa
      (atomBytes type) (.data ((d.olds.head?.map (fun o => o.2.toNat)).getD 0))) := by
  have hready := (peerReady_atomic (o := o) (data := data) (swap := swap) hlit).trans (by rw [hd]; rfl : _ = true)
  rw [execPeerRequest_served hlinks hnew hin hready, servePeer_atomic hlinks]
  simp only [peerAtomic, find?_dedup_touchAll, hd]

/-- A new atomic waits for room in the table of its hub die. -/
theorem execPeerRequest_noRoom (hlinks : linksTo s p.device p.epoch ≠ []) (hnew : ∀ q ∈ s.peerq, q.2.1 ≠ p)
    (hin : inHbm pa (atomBytes type) = true) (hlit : lampHeld s (peerWho s.nextId) (atomUnits pa type) = false)
    (hd : s.dedup.find? (fun d => d.source = peerSource p) = none) (hfull : dedupFree s (hubOf (hbmKey pa)) = 0) :
    execPeerRequest p pa (.atomic o type data swap) s = .next (peerQueued s p pa (.atomic o type data swap)) :=
  execPeerRequest_queued hlinks hnew hin ((peerReady_atomic hlit).trans (by rw [hd, hfull]; rfl))

/-- A new atomic with room for its entry is performed. -/
theorem execPeerRequest_applied (hlinks : linksTo s p.device p.epoch ≠ []) (hnew : ∀ q ∈ s.peerq, q.2.1 ≠ p)
    (hin : inHbm pa (atomBytes type) = true) (hlit : lampHeld s (peerWho s.nextId) (atomUnits pa type) = false)
    (hd : s.dedup.find? (fun d => d.source = peerSource p) = none) (hroom : 1 ≤ dedupFree s (hubOf (hbmKey pa))) :
    execPeerRequest p pa (.atomic o type data swap) s = .next (
      let t := askAll (touchAll s (atomUnits pa type)) [hbmKey pa]
      if poisonedAt t (hbmKey pa) (atomBytes type) then respond t (linksTo s p.device p.epoch) pa (atomBytes type) .poisoned
      else
        let old : Word64 := BitVec.ofNat 64 (pocNat t (hbmKey pa) (atomBytes type))
        let done := putCells t (cellsOf (hbmKey pa) (atomBytes type) (atomNew o type old data swap).toNat)
        respond { done with dedup := done.dedup ++ [⟨done.nextId, hubOf (hbmKey pa), peerSource p, [(0, old)]⟩]
                            nextId := done.nextId + 1 }
          (linksTo s p.device p.epoch) pa (atomBytes type) (.data old.toNat)) := by
  have hready := (peerReady_atomic (p := p) (o := o) (data := data) (swap := swap) hlit).trans
    (by rw [decide_eq_true hroom, Bool.or_true] : _ = true)
  rw [execPeerRequest_served hlinks hnew hin hready, servePeer_atomic hlinks]
  simp only [peerAtomic, find?_dedup_touchAll, hd]

end Atomic
end Peers

theorem execLinkTrain_trains {s : State} {link peer epoch : Nat} (hlink : link < 12) : execLinkTrain link peer epoch s =
    .next (retirePeer (modLink (if (getLink s link).up then failLink s link else s) link (fun l =>
      { Link.reset with up := true, peer := peer, epoch := epoch % 65536, served := l.served
                        announced := (if (getLink s link).up then failLink s link else s).epoch }))
      (fun dev e => dev = peer && e ≠ epoch % 65536)) := by
  simp only [execLinkTrain, Nat.not_le.mpr hlink, if_false]

/-- Settles O46: a flit by its CRC and its sequence; a request of a peer is served or queued, an atomic by the table of its hub
die. -/
theorem linkEvents : Obligations.LinkEvents := by
  intro s link tag bytes seq peer epoch fl l unitsOf queued
  refine ⟨fun hup hcrc => execFlitReceive_corrupt hup hcrc, fun hup hcrc hseq => ?taken,
    fun hup hcrc hseq => execFlitReceive_ignored hup hcrc hseq, fun hup => ?nackDown, fun hup hmem hfresh => ?nack,
    fun hup => ?failed, fun hup hsize => ?admission, fun r hup hout => execAdmissionGrant_waits hup hout,
    fun p pa n hlinks hnew hin hlit => execPeerRequest_load hlinks hnew hin hlit,
    fun p pa data hlinks hnew hin hlit => execPeerRequest_store hlinks hnew hin hlit,
    fun p pa op type data swap hlinks hnew hin hlit =>
      ⟨fun d hd => execPeerRequest_recorded hlinks hnew hin hlit hd, fun hd hfull => execPeerRequest_noRoom hlinks hnew hin hlit hd hfull,
        fun hd hroom hpoison => ?poisoned, fun hd hroom hclean => ?clean⟩,
    fun p pa op hlinks hnew hin hheld => execPeerRequest_queued hlinks hnew hin (peerReady_held hheld),
    fun p pa op hold => execPeerRequest_again hold, fun hlink => execLinkTrain_trains hlink⟩
  case taken =>
    have htaken := execFlitReceive_taken hup hcrc hseq
    refine ⟨fun hkind => ?_, fun hkind => ?_, fun hkind => ?_, fun hkind => ?_⟩
    · rcases hkind with hkind | hkind <;> exact htaken.trans (by simp only [flitActs, hkind]; rfl)
    · exact htaken.trans (by simp only [flitActs, hkind]; rfl)
    · exact htaken.trans (by simp only [flitActs, hkind]; rfl)
    · have hreceiver := (receiver_dataFlit (s := flitTaken s link fl) (link := link) hkind).trans receiver_flitTaken
      simp only [receiver, Prod.mk.injEq] at hreceiver
      exact ⟨_, htaken, hreceiver.2⟩
  case nackDown =>
    change execNegativeAcknowledgement link seq s = _
    simp only [execNegativeAcknowledgement, show (getLink s link).up = false from hup, Bool.not_false, Bool.true_or, if_true]
  case nack =>
    obtain ⟨t, ht, hup, hreplay⟩ := execNegativeAcknowledgement_replays hup hmem hfresh
    refine ⟨t, ht, hup, by rw [hreplay, replayedOnce_seqs], fun q hq => ?_⟩
    rw [hreplay]
    exact List.mem_append_right _ (List.mem_map_of_mem hq)
  case failed => exact congrArg _ (if_pos hup)
  case admission =>
    have hasks := execAdmissionRequest_up (tag := tag) hup hsize
    exact ⟨fun hnone => hasks.trans (congrArg _ (grantAll_none hnone)),
      fun i hsome => hasks.trans (congrArg _ (grantAll_some waitingGrants_admissionWaits hsome))⟩
  case poisoned =>
    exact (execPeerRequest_applied hlinks hnew hin hlit hd hroom).trans (congrArg _ (if_pos hpoison))
  case clean =>
    exact (execPeerRequest_applied hlinks hnew hin hlit hd hroom).trans (congrArg _ (if_neg (ne_true_of_eq_false hclean)))

end Sys2Proof.Links
end

section
/-!
The counting house's domain commands (15 R369, R370): what each command does while none is under way.
-/

namespace Sys2Proof.Domains
open Sys2Proof.Machine Sys2Proof.SliceFrame

section Commands
variable {s : State} {v : Word64}

/-! ### The write to DOMCMD (15 R370) -/

/-- The state in which a command's fields stand in DOMCMD. -/
def cmdWritten (s : State) (v : Word64) : State := { s with dom := { s.dom with cmd := v &&& 0xFFF00 } }

/-- While a command is under way a write to DOMCMD is discarded. -/
theorem writeDomcmd_busy (hbusy : s.dom.busy = true) : writeDomcmd v s = s := if_pos hbusy

section Idle
variable (hidle : s.dom.busy = false)
include hidle

theorem execRetag_idle (hop : v.toNat % 8 = 1) :
    execRetag v s = .next (retagPage (cmdWritten s v) (bits v.toNat 8 8)) := by
  simp only [execRetag, writeDomcmd, hop, hidle, Bool.false_eq_true, if_false, if_true, cmdWritten]

theorem execSethart_idle (hop : v.toNat % 8 = 2) :
    execSethart v s = .next (setHart (cmdWritten s v) (bits v.toNat 16 4) (bits v.toNat 8 8)) := by
  simp only [execSethart, writeDomcmd, hop, hidle, Bool.false_eq_true, if_false, if_true, cmdWritten]

theorem execDomReload_idle (hop : v.toNat % 8 = 3) :
    execDomReload v s = .next (reloadDomain (cmdWritten s v) (bits v.toNat 8 8)) := by
  simp only [execDomReload, writeDomcmd, hop, hidle, Bool.false_eq_true, if_false, if_true, cmdWritten]

theorem execReadtag_idle (hop : v.toNat % 8 = 4) : execReadtag v s = .next (readTag (cmdWritten s v)) := by
  simp only [execReadtag, writeDomcmd, hop, hidle, Bool.false_eq_true, if_false, if_true, cmdWritten]

end Idle

/-! ### RETAG (15 R369) -/

theorem flushPage_dom (s : State) (pg : Nat) : (flushPage s pg).dom = s.dom := by
  unfold flushPage
  refine List.foldlRecOn (motive := fun t : State => t.dom = s.dom) _ _ rfl fun t ht q _ => ?_
  split
  · exact (sameBeyond_pocWrite t _).dom.trans ht
  · exact ht

theorem pageTag_page (s : State) (pg : Nat) : pageTag s (65536 * pg) = mgetD s.dom.tags pg 0 := by
  rw [pageTag, Nat.mul_div_cancel_left _ (by decide)]

/-- The page that DOMADDR names is flushed, and zeroed when it leaves tag 1. -/
theorem retagPage_inHbm {tag : Nat} (hin : inHbm (65536 * domPage s) 65536 = true) : retagPage s tag =
    let f := flushPage s (domPage s)
    let w := if pageTag s (65536 * domPage s) = 1 ∧ tag ≠ 1 then zeroRange f (hbmKey (65536 * domPage s)) 65536 else f
    domStart { w with dom := { w.dom with tags := mput w.dom.tags (domPage s) tag 0 } } 0 := by
  have hok : domPageOk s = true := hin
  simp only [retagPage, hok, Bool.not_true, Bool.false_eq_true, if_false, flushPage_dom, pageTag_page, Bool.and_eq_true,
    decide_eq_true_eq]

theorem retagPage_beyond {tag : Nat} (hout : inHbm (65536 * domPage s) 65536 = false) : retagPage s tag = domStart s 1 := by
  have hok : domPageOk s = false := hout
  simp only [retagPage, hok, Bool.not_false, if_true]

/-! ### READTAG and RELOAD (15 R370) -/

theorem readTag_inHbm (hin : inHbm (65536 * domPage s) 65536 = true) : readTag s =
    domStart { s with dom := { s.dom with tag := BitVec.ofNat 8 (pageTag s (65536 * domPage s)) } } 0 := by
  have hok : domPageOk s = true := hin
  simp only [readTag, hok, Bool.not_true, Bool.false_eq_true, if_false, pageTag_page]

theorem readTag_beyond (hout : inHbm (65536 * domPage s) 65536 = false) : readTag s = domStart s 1 := by
  have hok : domPageOk s = false := hout
  simp only [readTag, hok, Bool.not_false, if_true]

section Reload
variable {d : Nat}

/-- The address of a domain's entry in the table. -/
def entryAddr (s : State) (d : Nat) : Nat := s.dom.base.toNat / 16384 * 16384 + 64 * d

theorem reloadDomain_beyond (hout : inHbm (entryAddr s d) 64 = false) : reloadDomain s d = domStart s 1 := by
  unfold entryAddr at hout
  simp only [reloadDomain, hout, Bool.not_false, if_true]

theorem reloadDomain_reserved (hin : inHbm (entryAddr s d) 64 = true) (hres : bits (physNat s (entryAddr s d) 64) 257 255 ≠ 0) :
    reloadDomain s d = domStart s 2 := by
  unfold entryAddr at hin hres
  simp only [reloadDomain, hin, hres, Bool.not_true, Bool.false_eq_true, ne_eq, not_false_eq_true, if_false, if_true]

/-- The grants of a domain are those of its entry, a sandbox's without bits 0 and 1 (15 R368). -/
theorem reloadDomain_grants (hin : inHbm (entryAddr s d) 64 = true) (hres : bits (physNat s (entryAddr s d) 64) 257 255 = 0) :
    (reloadDomain s d).dom.status = 0 ∧ (reloadDomain s d).dom.busy = true ∧
      grantMask (reloadDomain s d) d = BitVec.ofNat 256 (if (physNat s (entryAddr s d) 64).testBit 256
        then bits (physNat s (entryAddr s d) 64) 0 256 / 4 * 4 else bits (physNat s (entryAddr s d) 64) 0 256) := by
  unfold entryAddr at *
  simp only [reloadDomain, hin, hres, Bool.not_true, Bool.false_eq_true, ne_eq, not_true, if_false]
  exact ⟨rfl, rfl, mgetD_mput_same _ _ _ _⟩

end Reload
end Commands

/-- Settles O47: each command, while none is under way, is its own function in the state in which its fields stand in DOMCMD. -/
theorem domainCommands : Obligations.DomainCommands := by
  intro s v arg u pg a
  refine ⟨rfl, fun hbusy => ?busy,
    fun hidle hop => ⟨fun hout => (execRetag_idle hidle hop).trans (congrArg _ (retagPage_beyond hout)),
      fun hin => (execRetag_idle hidle hop).trans (congrArg _ (retagPage_inHbm hin))⟩,
    fun hidle hop => execSethart_idle hidle hop,
    fun hidle hop => ⟨fun hout => (execDomReload_idle hidle hop).trans (congrArg _ (reloadDomain_beyond hout)),
      fun hin hres => (execDomReload_idle hidle hop).trans (congrArg _ (reloadDomain_reserved hin hres)),
      fun hin hclean => ⟨_, execDomReload_idle hidle hop, reloadDomain_grants hin hclean⟩⟩,
    fun hidle hop => ⟨fun hin => (execReadtag_idle hidle hop).trans (congrArg _ (readTag_inHbm hin)),
      fun hout => (execReadtag_idle hidle hop).trans (congrArg _ (readTag_beyond hout))⟩⟩
  have hsame {c : Prop} [Decidable c] : Host.Outcome.next (if c then writeDomcmd v s else s) = (.next s : Out) := by
    rw [writeDomcmd_busy hbusy, ite_self]
  exact ⟨hsame, hsame, hsame, hsame⟩

end Sys2Proof.Domains
end

section
/-!
The Bellows (16 R373 to R376, 07 R186): the cap, the power levels, droops, trips and the watchdog.
-/

namespace Sys2Proof.Power
open Sys2Proof.Machine

/-! ### A change of many lane groups -/

section LaneGroups
variable {s : State} {core lg : Nat}

/-- A table that gives each key of a list what a function says answers so. -/
theorem mget_filterMap {α : Type} (f : Nat → Option α) (ks : List Nat) (k : Nat) :
    mget (ks.filterMap (fun j => (f j).map (fun v => (j, v)))) k = if k ∈ ks then f k else none := by
  induction ks with
  | nil => rfl
  | cons j ks ih =>
    rw [List.filterMap_cons]
    by_cases hk : k = j
    · subst hk
      cases hf : f k with
      | none => simp [ih, hf]
      | some v => simp [mget]
    · cases f j with
      | none => simp [ih, hk]
      | some v => simp [mget, ih, hk]

/-- What modLgs lists of a lane group. -/
def changedLg (s : State) (p : Nat → Bool) (f : Lg → Lg) (k : Nat) : Option Lg :=
  if p (k / 4) then (if f (mgetD s.lgs k Lg.empty) = Lg.empty then none else some (f (mgetD s.lgs k Lg.empty))) else mget s.lgs k

theorem modLgs_lgs (s : State) (p : Nat → Bool) (f : Lg → Lg) :
    (modLgs s p f).lgs = (List.range numLgs).filterMap (fun k => (changedLg s p f k).map (fun l => (k, l))) := by
  unfold modLgs
  dsimp only
  refine List.filterMap_congr fun k _ => ?_
  unfold changedLg
  split
  · split <;> rfl
  · rfl

/-- Each lane group of the device is changed, or left, as its core says. -/
theorem getLg_modLgs (p : Nat → Bool) (f : Lg → Lg) (hcore : core < 480) (hlg : lg < 4) :
    getLg (modLgs s p f) core lg = if p core then f (getLg s core lg) else getLg s core lg := by
  have hin : 4 * core + lg ∈ List.range numLgs := List.mem_range.mpr (by simp only [numLgs, Config.numCores]; omega)
  have hof : (4 * core + lg) / 4 = core := by omega
  rw [getLg, mgetD, modLgs_lgs, mget_filterMap, if_pos hin, changedLg, hof]
  split
  · split
    · next he => exact he.symm
    · rfl
  · rfl

/-- A table whose entries are changed and keep their keys answers what was made of its entry. -/
theorem mget_map {α : Type} {f : Nat × α → Nat × α} (hf : ∀ p, (f p).1 = p.1) (m : SMap α) (k : Nat) :
    mget (m.map f) k = (mget m k).map (fun v => (f (k, v)).2) := by
  induction m with
  | nil => rfl
  | cons p m ih =>
    obtain ⟨j, v⟩ := p
    have hj : f (j, v) = (j, (f (j, v)).2) := Prod.ext (hf (j, v)) rfl
    rw [List.map_cons, hj, mget, mget]
    split
    · next hk => rw [hk, Option.map_some]
    · exact ih

end LaneGroups

/-! ### The cap and the levels (16 R373, R374, R376) -/

section Levels
variable {s : State} {v : BitVec 16} {core lg level die : Nat}

theorem execCapw_firmware (hfw : s.bellows.firmware = true) :
    execCapw v s = .next { s with bellows := { s.bellows with capw := clampCap v, cap := clampCap v } } := by
  simp only [execCapw, hfw, if_true]

/-- Without firmware the hardware holds every lane group at level 3. -/
theorem execCapw_hardware (hfw : s.bellows.firmware = false) : ∃ t, execCapw v s = .next t ∧
    t.bellows = { s.bellows with capw := clampCap v, hwCap := true } ∧ ∀ c l, c < 480 → l < 4 → (getLg t c l).plevel = 3 := by
  refine ⟨_, if_neg (ne_true_of_eq_false hfw), rfl, fun c l hc hl => ?_⟩
  rw [getLg_modLgs _ _ hc hl, if_pos rfl]

theorem execPlevelChange_granted (hcore : core < 480) (hlg : lg < 4) (hlevel : level < 4) (hfree : levelHeld s core = false ∨ level = 3) :
    execPlevelChange core lg level s = .next (modLg s core lg (fun l => { l with plevel := level })) := by
  have hheld : (levelHeld s core && decide (level ≠ 3)) = false := by
    rcases hfree with hfree | rfl
    · rw [hfree, Bool.false_and]
    · simp
  simp only [execPlevelChange, Config.numCores, Nat.not_le.mpr hcore, Nat.not_le.mpr hlg, Nat.not_le.mpr hlevel, hheld, decide_false,
    Bool.or_self, Bool.false_eq_true, if_false]

theorem execPlevelChange_held (hheld : levelHeld s core = true) (hlevel : level ≠ 3) : execPlevelChange core lg level s = .next s := by
  simp only [execPlevelChange, hheld, hlevel, ne_eq, not_false_eq_true, decide_true, Bool.and_self, Bool.or_true, if_true]

theorem execSupplyDroop_halts {island : Nat} (hnew : s.bellows.droops.contains island = false) :
    execSupplyDroop island s = .next { s with bellows := { s.bellows with droops := s.bellows.droops ++ [island] } } := by
  simp only [execSupplyDroop, hnew, Bool.false_eq_true, if_false]

/-! ### Trips (16 R376, 07 R186) -/

/-- The lane groups of a die that trips, and no others, are at level 3 in near-threshold operation. -/
theorem getLg_clampDie (hcore : core < 480) (hlg : lg < 4) : getLg (clampDie s die) core lg =
    if dieOf core = die then { getLg s core lg with plevel := 3, near := true } else getLg s core lg := by
  rw [clampDie, getLg_modLgs _ _ hcore hlg]
  simp only [decide_eq_true_eq]

theorem execThermalTrip_trips (hdie : die < 4) (hnew : tripped s die = false) : ∃ t, execThermalTrip die s = .next t ∧
    tripped t die = true ∧ ∀ c l, c < 480 → l < 4 → (dieOf c = die → (getLg t c l).plevel = 3 ∧ (getLg t c l).near = true) ∧
      (dieOf c ≠ die → getLg t c l = getLg s c l) := by
  have hstarts : (decide (4 ≤ die) || tripped s die) = false := by
    rw [hnew, decide_eq_false (Nat.not_le.mpr hdie), Bool.or_self]
  refine ⟨_, if_neg (ne_true_of_eq_false hstarts), ?_, fun c l hc hl => ⟨fun hof => ?_, fun hof => ?_⟩⟩
  · exact List.contains_iff_mem.mpr (List.mem_append_right _ (List.mem_singleton_self die))
  · rw [getLg_clampDie hc hl, if_pos hof]; exact ⟨rfl, rfl⟩
  · rw [getLg_clampDie hc hl, if_neg hof]; rfl

/-- The end of a trip changes no level. -/
theorem execThermalTripEnd_ends (htrip : tripped s die = true) : ∃ t, execThermalTripEnd die s = .next t ∧ tripped t die = false ∧
    ∀ c l, (getLg t c l).plevel = (getLg s c l).plevel := by
  refine ⟨_, if_pos htrip, by simp [tripped], fun c l => ?_⟩
  rw [getLg, mgetD, mget_map (fun p => by split <;> rfl), getLg, mgetD]
  cases mget s.lgs (4 * c + l) with
  | none => rfl
  | some x => rw [Option.map_some, Option.getD_some, Option.getD_some]; split <;> rfl

end Levels

/-! ### The watchdog (16 R376, R384) -/

section Watchdog
variable {s : State}

theorem execBellowsWatchdogRestart_stops (hfw : s.bellows.firmware = true) : execBellowsWatchdogRestart s =
    .next (freeze { s with bellows := { s.bellows with firmware := false } } 4) := by
  simp only [execBellowsWatchdogRestart, hfw, if_true]

/-- Firmware that has stopped runs again from the newer image. -/
theorem execBellowsWatchdogRestart_picks (hfw : s.bellows.firmware = false) (hboot : s.fw.boot ≠ 0) :
    execBellowsWatchdogRestart s = .next (runBellows { s with fw := pickNewer s.fw }) := by
  simp only [execBellowsWatchdogRestart, hfw, hboot, Bool.false_eq_true, if_false]

theorem runBellows_valid (hvalid : slotValid s.fw (activeSlot s.fw 0) = true) : runBellows s =
    { s with bellows := { s.bellows with firmware := true, cap := s.bellows.capw, hwCap := false }, fw := startImage s.fw 0 } :=
  if_pos hvalid

theorem runBellows_invalid (hbad : slotValid s.fw (activeSlot s.fw 0) = false) : runBellows s = s :=
  if_neg (ne_true_of_eq_false hbad)

end Watchdog

/-- Settles O48: the cap by the firmware, a trip by what it makes of each lane group, a restart by the image that it finds. -/
theorem powerEvents : Obligations.PowerEvents := by
  intro s v core lg level island die cap
  refine ⟨fun hfw => execCapw_firmware hfw, fun hfw => execCapw_hardware hfw,
    fun hcore hlg hlevel hfree => execPlevelChange_granted hcore hlg hlevel hfree, fun hheld hlevel => execPlevelChange_held hheld hlevel,
    fun hnew => execSupplyDroop_halts hnew, rfl, fun hdie hnew => execThermalTrip_trips hdie hnew,
    fun htrip => execThermalTripEnd_ends htrip, fun hfw => execBellowsWatchdogRestart_stops hfw,
    fun hfw hboot => ⟨fun hvalid => ?_, fun hbad => ?_⟩⟩
  · refine ⟨_, (execBellowsWatchdogRestart_picks hfw hboot).trans (congrArg _ (runBellows_valid hvalid)), rfl, rfl, rfl, rfl⟩
  · exact (execBellowsWatchdogRestart_picks hfw hboot).trans (congrArg _ (runBellows_invalid hbad))

end Sys2Proof.Power
end

section
/-!
Sampling, the observation registers and the firmware images (16 R377, R378, R384 to R391).
-/

namespace Sys2Proof.Observation
open Sys2Proof.Machine Sys2Proof.SliceMemory Sys2Proof.SliceFrame

/-! ### What taking a sample leaves of the machine (16 R377) -/

/-- State t is state s with free values drawn. -/
def Draws (s t : State) : Prop := ∃ n, t = { s with freeCtr := n }

section Sampling
variable {s t u : State}

theorem Draws.refl (s : State) : Draws s s := ⟨s.freeCtr, rfl⟩

theorem Draws.trans (h : Draws s t) (h' : Draws t u) : Draws s u := by
  obtain ⟨n, rfl⟩ := h
  obtain ⟨m, rfl⟩ := h'
  exact ⟨m, rfl⟩

theorem draws_nextFrag (p : Warp) (s : State) : Draws s (nextFrag p s).2 := by
  unfold nextFrag
  simp only
  split
  · exact .refl s
  · split
    · exact .refl s
    · exact ⟨_, rfl⟩

theorem draws_codeOr (c : Option Nat) (s : State) : Draws s (codeOr c s).2 := by
  unfold codeOr
  split
  · exact .refl s
  · exact ⟨_, rfl⟩

theorem draws_ordinal (s : State) (x : Wg) (l : Lw) : Draws s (ordinal s x l).2 := by
  unfold ordinal
  simp only
  split
  · exact .refl s
  · exact ⟨_, rfl⟩

theorem draws_sampleOf (s : State) (core lg k : Nat) (p : Warp) : Draws s (sampleOf s core lg k p).2 := by
  unfold sampleOf
  simp only
  split
  · next l x _ _ =>
    refine (draws_ordinal s x l).trans ?_
    split
    · exact .refl _
    · exact draws_codeOr _ _
  · exact (draws_nextFrag p s).trans (draws_codeOr _ _)

/-- A lane group's next sample is of no warp where none is resident, and else of one that its scheduler then passes. -/
def sampled (s : State) (core lg : Nat) : Nat × State :=
  match nextSampled s core lg with
  | none => (22 * 2 ^ 64, s)
  | some (k, p) => sampleOf (modLg s core lg (fun l => { l with sample := (p.slot + 1) % 16 })) core lg k p

theorem sampled_keeps (s : State) (core lg : Nat) : ∃ lgs n, (sampled s core lg).2 = { s with lgs := lgs, freeCtr := n } := by
  unfold sampled
  split
  · exact ⟨s.lgs, s.freeCtr, rfl⟩
  · next k p _ =>
    obtain ⟨n, hn⟩ := draws_sampleOf (modLg s core lg (fun l => { l with sample := (p.slot + 1) % 16 })) core lg k p
    exact ⟨_, n, hn⟩

/-- The state in which lane group k has taken the sample v, the only one to be written. -/
def taken (s : State) (k v : Nat) (lgs : SMap Lg) (n : Nat) : State :=
  { s with lgs := lgs, freeCtr := n
           obs := { s.obs with sampAt := mset s.obs.sampAt k (s.clock + s.obs.sampN)
                               samples := [⟨k, v, s.obs.sampBase, s.obs.sampLog⟩] } }

theorem takeSample_taken (core lg : Nat) (hnone : s.obs.samples = []) :
    ∃ lgs n, takeSample core lg s = taken s (4 * core + lg) (sampled s core lg).1 lgs n := by
  obtain ⟨lgs, n, hkeep⟩ := sampled_keeps s core lg
  refine ⟨lgs, n, ?_⟩
  have htake : takeSample core lg s = { (sampled s core lg).2 with obs := { (sampled s core lg).2.obs with
      sampAt := mset (sampled s core lg).2.obs.sampAt (4 * core + lg) (s.clock + s.obs.sampN)
      samples := (sampled s core lg).2.obs.samples ++ [⟨4 * core + lg, (sampled s core lg).1, s.obs.sampBase, s.obs.sampLog⟩] } } := rfl
  rw [htake, hkeep]
  simp only [hnone, List.nil_append]
  rfl

/-- The sample that a lane group takes goes by the queues of lamp units as they stood: none of those before it is the recorder's. -/
theorem lampHeld_taken {k v n : Nat} {lgs : SMap Lg} (hnone : s.obs.samples = []) (us : List Nat) :
    lampHeld (taken s k v lgs n) (sampleWho k) us = lampHeld s (sampleWho k) us := by
  have hlive : ∀ q ∈ s.lampq.takeWhile (fun q => q.who ≠ sampleWho k), q.live (taken s k v lgs n) = q.live s := by
    intro q hq
    have hwho : q.who ≠ sampleWho k := by simpa using List.mem_takeWhile_imp hq
    unfold LampWait.live
    split
    · rfl
    · split
      · simp [taken, hnone, hwho.symm]
      · rfl
  have hany (ls : List LampWait) (h : ∀ q ∈ ls, q.live (taken s k v lgs n) = q.live s) :
      ls.any (fun q => q.units.any us.contains && q.live (taken s k v lgs n)) = ls.any (fun q => q.units.any us.contains && q.live s) := by
    rw [Bool.eq_iff_iff, List.any_eq_true, List.any_eq_true]
    exact exists_congr fun q => and_congr_right fun hq => by rw [h q hq]
  exact congrArg₂ (· || ·) rfl (hany _ hlive)

/-! ### The sample's way to the ring (16 R387) -/

/-- The bytes of device memory that are written are read at the point of coherence. -/
theorem pocNat_pocWrite {k n v : Nat} (hin : k + n ≤ 2 ^ 39) : pocNat (pocWrite s (cellsOf k n v)) k n = v % 256 ^ n := by
  refine TrapFrame.pocNat_of_bytes fun j hj => ?_
  have hdev : isHostDev (k + j) = false := by simp only [isHostDev]; rw [decide_eq_false (by omega), Bool.false_and]
  rw [pocByte, hdev, Bool.false_and, if_neg Bool.false_ne_true]
  refine readByte_pocWrite (by omega) (TrapFrame.mem_cellsOf.mpr ⟨j, hj, rfl⟩) fun c hc hk => ?_
  obtain ⟨i, -, rfl⟩ := TrapFrame.mem_cellsOf.mp hc
  rw [show i = j by simpa using hk]

theorem pocNat_of_sameView (h : SameView s t) (k n : Nat) : pocNat t k n = pocNat s k n := by
  obtain ⟨hmem, hlines⟩ := h
  induction n generalizing k with
  | zero => rfl
  | succ n ih => rw [pocNat, pocNat, ih, pocByte, pocByte, hostHeld, hostHeld, hmem, hlines]

/-- The place in its ring of a sample that is the only one to be written. -/
def place (s : State) (p : Sample) : Nat := ringAt p.base p.log s.obs.sampPtr

/-- A sample whose pseudo-channel holds it up waits. -/
theorem writeSamples_held {p : Sample} (hone : s.obs.samples = [p]) (hin : inHbm (place s p) 16 = true)
    (hheld : lampHeld s (sampleWho p.lg) [hbmUnit (place s p)] = true) :
    writeSamples 1 s = lampJoin s (sampleWho p.lg) [hbmUnit (place s p)] := by
  unfold place at *
  simp only [writeSamples, hone, hin, hheld, Bool.and_self, if_true]

/-- The state in which the only sample to be written has been, and the pointer has moved on. -/
def recorded (t : State) : State := { t with obs := { t.obs with sampPtr := t.obs.sampPtr + 16, samples := [] } }

theorem pocNat_recorded (k n : Nat) : pocNat (recorded t) k n = pocNat t k n :=
  pocNat_of_sameView (s := t) (t := recorded t) ⟨rfl, rfl⟩ k n

/-- One whose pseudo-channel lets it is written whole, and the pointer moves past it. -/
theorem writeSamples_lit {p : Sample} (hone : s.obs.samples = [p]) (hin : inHbm (place s p) 16 = true)
    (hlit : lampHeld s (sampleWho p.lg) [hbmUnit (place s p)] = false) : ∃ u, SameBeyond s u ∧
      writeSamples 1 s = recorded (pocWrite u (cellsOf (hbmKey (place s p)) 16 p.val)) := by
  unfold place at *
  refine ⟨touch (lampLeave s (sampleWho p.lg)) (hbmUnit (ringAt p.base p.log s.obs.sampPtr)), ?_, ?_⟩
  · have hleave : SameBeyond s (lampLeave s (sampleWho p.lg)) := rfl
    exact hleave.trans (sameBeyond_touch _ _)
  · simp only [writeSamples, hone, hin, hlit, Bool.and_false, Bool.false_eq_true, if_false, if_true, recorded]

/-- A sample that is due is taken, and the samples taken are written. -/
theorem execSampleWrite_due {core lg : Nat} (hen : s.obs.sampEn = true) (hcore : core < 480) (hlg : lg < 4)
    (hdue : sampleDue s (4 * core + lg) = true) (hin : inHbm (sampleAddr s) 16 = true) : execSampleWrite core lg s =
      .next (writeSamples (takeSample core lg s).obs.samples.length (takeSample core lg s)) := by
  simp only [execSampleWrite, hen, Config.numCores, Nat.not_le.mpr hcore, Nat.not_le.mpr hlg, hdue, hin, Bool.not_true, decide_false,
    Bool.or_self, Bool.false_eq_true, if_false]

theorem execSampleWrite_notDue {core lg : Nat} (hnot : s.obs.sampEn = false ∨ sampleDue s (4 * core + lg) = false) :
    execSampleWrite core lg s = .next s := by
  rcases hnot with hen | hdue
  · simp only [execSampleWrite, hen, Bool.not_false, Bool.true_or, if_true]
  · simp only [execSampleWrite, hdue, Bool.not_false, Bool.or_true, if_true]

/-- What a due sample is and where it goes, none before it waiting. -/
theorem execSampleWrite_taken {core lg : Nat} (hen : s.obs.sampEn = true) (hcore : core < 480) (hlg : lg < 4)
    (hdue : sampleDue s (4 * core + lg) = true) (hin : inHbm (sampleAddr s) 16 = true) (hnone : s.obs.samples = []) :
    ∃ t, execSampleWrite core lg s = .next t ∧ mget t.obs.sampAt (4 * core + lg) = some (s.clock + s.obs.sampN) ∧
      (lampHeld s (sampleWho (4 * core + lg)) [hbmUnit (sampleAddr s)] = false → t.obs.sampPtr = s.obs.sampPtr + 16 ∧
        t.obs.samples = [] ∧ (nextSampled s core lg = none → pocNat t (hbmKey (sampleAddr s)) 16 = 22 * 2 ^ 64)) ∧
      (lampHeld s (sampleWho (4 * core + lg)) [hbmUnit (sampleAddr s)] = true → t.obs.sampPtr = s.obs.sampPtr ∧
        ∃ v, t.obs.samples = [⟨4 * core + lg, v, s.obs.sampBase, s.obs.sampLog⟩]) := by
  obtain ⟨lgs, n, htake⟩ := takeSample_taken core lg hnone
  have hexec := execSampleWrite_due hen hcore hlg hdue hin
  rw [htake] at hexec
  have hplace : place (taken s (4 * core + lg) (sampled s core lg).1 lgs n)
      ⟨4 * core + lg, (sampled s core lg).1, s.obs.sampBase, s.obs.sampLog⟩ = sampleAddr s := by
    simp only [place, sampleAddr, hnone, List.length_nil, Nat.mul_zero, Nat.add_zero]
    rfl
  have hin' := hplace ▸ hin
  have hheld := lampHeld_taken (v := (sampled s core lg).1) (n := n) (lgs := lgs) (k := 4 * core + lg) hnone [hbmUnit (sampleAddr s)]
  have hdue' : mget (taken s (4 * core + lg) (sampled s core lg).1 lgs n).obs.sampAt (4 * core + lg) = some (s.clock + s.obs.sampN) :=
    mget_mset_same _ _ _
  cases hl : lampHeld s (sampleWho (4 * core + lg)) [hbmUnit (sampleAddr s)] with
  | true =>
    have hjoin := sameBeyond_lampJoin (taken s (4 * core + lg) (sampled s core lg).1 lgs n)
      (sampleWho (4 * core + lg)) [hbmUnit (sampleAddr s)]
    have hwaits := writeSamples_held rfl hin' (by rw [hplace]; exact hheld.trans hl)
    rw [hplace] at hwaits
    exact ⟨_, hexec.trans (congrArg _ hwaits), hjoin.sampAt ▸ hdue', fun h => absurd h Bool.noConfusion,
      fun _ => ⟨hjoin.sampPtr, _, hjoin.samples⟩⟩
  | false =>
    obtain ⟨u, hu, hwritten⟩ := writeSamples_lit rfl hin' (by rw [hplace]; exact hheld.trans hl)
    rw [hplace] at hwritten
    have hkeep := hu.trans (sameBeyond_pocWrite u (cellsOf (hbmKey (sampleAddr s)) 16 (sampled s core lg).1))
    refine ⟨_, hexec.trans (congrArg _ hwritten), hkeep.sampAt ▸ hdue',
      fun _ => ⟨congrArg (· + 16) hkeep.sampPtr, rfl, fun hidle => ?_⟩,
      fun h => absurd h Bool.noConfusion⟩
    have hvalue : (sampled s core lg).1 = 22 * 2 ^ 64 := by rw [sampled, hidle]
    have hspace : hbmKey (sampleAddr s) + 16 ≤ 2 ^ 39 := of_decide_eq_true hin
    rw [pocNat_recorded, hvalue, pocNat_pocWrite hspace]
    norm_num

end Sampling

/-! ### The registers (16 R378, R387) -/

section Registers
variable {s : State} {v : Word64}

/-- Sampling that starts clears its pointer and has its first samples N cycles later. -/
theorem writeSampctl_eq : writeSampctl v s = { s with obs := { s.obs with
    sampN := max 256 (bits v.toNat 8 24), sampEn := v.getLsbD 0
    sampPtr := if v.getLsbD 0 = true ∧ s.obs.sampEn = false then 0 else s.obs.sampPtr
    sampAt := if v.getLsbD 0 = true ∧ s.obs.sampEn = false then [] else s.obs.sampAt
    sampFrom := if v.getLsbD 0 = true ∧ s.obs.sampEn = false then s.clock + max 256 (bits v.toNat 8 24) else s.obs.sampFrom } } := by
  unfold writeSampctl
  simp only
  cases hen : v.getLsbD 0 <;> cases hold : s.obs.sampEn <;> simp

theorem dropAllI_icache (s : State) (k : Nat) : (getCore (dropAllI s) k).icache = [] := by
  have hget := Power.mget_map (f := fun p : Nat × Core => (p.1, { p.2 with icache := [] })) (fun _ => rfl) s.cores k
  have hcores : (dropAllI s).cores = s.cores.map (fun p => (p.1, { p.2 with icache := [] })) := rfl
  rw [getCore, mgetD, hcores, hget]
  cases mget s.cores k <;> rfl

theorem readByte_dropAllI {k : Nat} (hk : k < 481 * 2 ^ 100) : readByte (dropAllI s).mem k = readByte s.mem k :=
  readByte_filter_kept fun c hc => by
    have hlow : c.1 / 2 ^ 100 < 481 := by omega
    exact decide_eq_true (.inl hlow)

end Registers

/-! ### The firmware images (16 R384, R391) -/

section Firmware
variable {s : State} {v : Word64} {status version : Nat}

theorem execUpdate_accepted (hop : v.toNat % 4 = 1) (hidle : s.fw.busy = false) (himage : bits v.toNat 2 2 < 2) (hlen : s.fw.len ≤ 2 ^ 26)
    (hsrc : s.fw.src.toNat + s.fw.len ≤ 2 ^ 39) :
    execUpdate v s = .next { s with fw := { s.fw with image := bits v.toNat 2 2, busy := true } } := by
  simp only [execUpdate, writeFwcmd, hop, hidle, Config.hbmBytes, Nat.not_le.mpr himage, Nat.not_lt.mpr hlen, Nat.not_lt.mpr hsrc,
    decide_false, Bool.or_self, Bool.false_eq_true, ne_eq, not_true, if_false, if_true]

theorem execUpdate_refused (hop : v.toNat % 4 = 1) (hidle : s.fw.busy = false)
    (hbad : 2 ≤ bits v.toNat 2 2 ∨ 2 ^ 26 < s.fw.len ∨ 2 ^ 39 < s.fw.src.toNat + s.fw.len) :
    execUpdate v s = .next { s with fw := { s.fw with image := bits v.toNat 2 2, status := 1 } } := by
  simp only [execUpdate, writeFwcmd, hop, hidle, Bool.false_eq_true, ne_eq, not_true, if_false, if_true]
  refine congrArg _ (if_pos ?_)
  rcases hbad with himage | hlen | hsrc
  · exact Bool.or_eq_true_iff.mpr (.inl (Bool.or_eq_true_iff.mpr (.inl (decide_eq_true himage))))
  · exact Bool.or_eq_true_iff.mpr (.inl (Bool.or_eq_true_iff.mpr (.inr (decide_eq_true hlen))))
  · exact Bool.or_eq_true_iff.mpr (.inr (decide_eq_true hsrc))

/-- The write of a slot changes the length of its image, and no other register of the firmware. -/
theorem writeSlot_fw (s : State) (fails : Bool) : (writeSlot s fails).fw =
    { s.fw with lens := mput s.fw.lens (otherSlot s.fw s.fw.image) s.fw.len 0 } := by
  have hfw := (sameBeyond_askRange s (hbmKey s.fw.src.toNat) s.fw.len).fw
  unfold writeSlot replaceCells
  simp only [hfw]

/-- An image that its check has passed becomes the active one, unless its version is below the rollback counter. -/
theorem execFirmwareUpdateDone_checked (hbusy : s.fw.busy = true) (hsig : status ≠ 2) (hwrite : status ≠ 4) :
    execFirmwareUpdateDone status version s = .next { writeSlot s false with
      fw := finishUpdate (writeSlot s false).fw (if stagedVersion s < s.fw.rollback then 3 else 0) (stagedVersion s) } := by
  have hrollback : (writeSlot s false).fw.rollback = s.fw.rollback := by rw [writeSlot_fw]
  simp only [execFirmwareUpdateDone, hbusy, hsig, hwrite, hrollback, Bool.not_true, decide_false, Bool.or_self, Bool.false_eq_true,
    if_false]

/-- An update that failed is over, with its code, and its slot holds no image that may run. -/
theorem finishUpdate_failed (f : Fw) (hfail : status = 2 ∨ status = 4) : (finishUpdate f status version).busy = false ∧
    (finishUpdate f status version).status = BitVec.ofNat 4 status ∧ otherSlot f f.image ∈ (finishUpdate f status version).bad := by
  have hzero : status ≠ 0 := by omega
  have hthree : status ≠ 3 := by omega
  simp only [finishUpdate, hzero, hthree, if_false, List.mem_append, List.mem_singleton, or_true, and_self]

theorem execFirmwareUpdateDone_failed (hbusy : s.fw.busy = true) (hfail : status = 2 ∨ status = 4) :
    ∃ t, execFirmwareUpdateDone status version s = .next t ∧ t.fw.busy = false ∧ t.fw.status = BitVec.ofNat 4 status ∧
      otherSlot s.fw s.fw.image ∈ t.fw.bad := by
  have hcode : (decide (status = 2) || decide (status = 4)) = true := by simpa using hfail
  have hslot : otherSlot (writeSlot s (decide (status = 4))).fw (writeSlot s (decide (status = 4))).fw.image =
      otherSlot s.fw s.fw.image := by rw [writeSlot_fw]; rfl
  simp only [execFirmwareUpdateDone, hbusy, hcode, Bool.not_true, Bool.false_eq_true, if_false, if_true]
  exact ⟨_, rfl, hslot ▸ finishUpdate_failed _ hfail⟩

end Firmware

/-- Settles O49: a due sample goes the way of its pseudo-channel; an update meets its limits and its end the check's code. -/
theorem observationEvents : Obligations.ObservationEvents := by
  intro s core lg status version v
  exact ⟨fun hen hcore hlg hdue hin hnone => execSampleWrite_taken hen hcore hlg hdue hin hnone, fun hnot => execSampleWrite_notDue hnot,
    congrArg _ writeSampctl_eq, rfl, ⟨_, rfl, dropAllI_icache s, fun _ hk => readByte_dropAllI hk⟩, rfl,
    fun hop hidle himage hlen hsrc => execUpdate_accepted hop hidle himage hlen hsrc,
    fun hop hidle hbad => execUpdate_refused hop hidle hbad,
    fun hbusy hsig hwrite => execFirmwareUpdateDone_checked (version := version) hbusy hsig hwrite,
    fun hbusy hfail => execFirmwareUpdateDone_failed (version := version) hbusy hfail, rfl⟩

end Sys2Proof.Observation
end

section
/-!
Checkpoint, restore and the resets (16 R381, R382, R390), and the machine right after power-on reset.
-/

namespace Sys2Proof.CheckpointReset
open Sys2Proof.Machine Sys2Proof.SliceMemory

/-! ### What stopping leaves of the checkpoint's registers (16 R381) -/

section Stopping
variable {s : State} {g j : Nat} {x : Wg}

theorem foldl_ckpt {α : Type} {f : State → α → State} (hf : ∀ s a, (f s a).ckpt = s.ckpt) (as : List α) (s : State) :
    (as.foldl f s).ckpt = s.ckpt := by
  induction as generalizing s with
  | nil => rfl
  | cons a as ih => exact (ih _).trans (hf s a)

theorem withdrawReq_ckpt (s : State) (g : Nat) : (withdrawReq s g).ckpt = s.ckpt := by
  unfold withdrawReq
  simp only [modPair_ckpt]
  split <;> rfl

theorem stopRequests_ckpt (s : State) (g : Nat) : (stopRequests s g).ckpt = s.ckpt := by
  unfold stopRequests
  split
  · rfl
  · split
    · rfl
    · exact withdrawReq_ckpt s g

theorem cancelWaits_ckpt (s : State) (g : Nat) : (cancelWaits s g).ckpt = s.ckpt :=
  foldl_ckpt (fun s w => modWarp_ckpt s g w _) _ _

theorem stopWg_ckpt (s : State) (park : Bool) (g : Nat) : (stopWg s park g).ckpt = s.ckpt := by
  unfold stopWg
  split
  · rfl
  · exact (cancelWaits_ckpt _ g).trans (stopRequests_ckpt _ g)

theorem ckptStopOne_ckpt {t : State} (h : ckptStopOne s g = some t) : t.ckpt = s.ckpt := by
  unfold ckptStopOne at h
  split at h
  · cases h; rfl
  · split at h
    · cases h; rfl
    · split at h
      · cases h
        exact stopWg_ckpt s false g
      · obtain ⟨j, -, rfl⟩ := Option.map_eq_some_iff.mp h
        exact (modWg_ckpt _ g _).trans (stopWg_ckpt s false g)

theorem foldlM_ckptStopOne_ckpt {gs : List Nat} {t : State} (h : gs.foldlM ckptStopOne s = some t) : t.ckpt = s.ckpt := by
  induction gs generalizing s with
  | nil => cases h; rfl
  | cons g gs ih =>
    rw [List.foldlM_cons] at h
    obtain ⟨u, hu, ht⟩ := Option.bind_eq_some_iff.mp h
    exact (ih ht).trans (ckptStopOne_ckpt hu)

theorem ckptStop_ckpt (q : State × Bool) (g : Nat) : (ckptStop q g).1.ckpt = q.1.ckpt := by
  unfold ckptStop
  split
  · rfl
  · split
    · next h => exact foldlM_ckptStopOne_ckpt h
    · rfl

theorem foldl_ckptStop_ckpt (ps : List (Nat × Wg)) (q : State × Bool) :
    (ps.foldl (fun q p => ckptStop q p.1) q).1.ckpt = q.1.ckpt := by
  induction ps generalizing q with
  | nil => rfl
  | cons p ps ih => exact (ih _).trans (ckptStop_ckpt q p.1)

/-- Stopping every workgroup leaves the command under way, or ends it for want of room. -/
theorem ckptStopAll_busy (s : State) : (ckptStopAll s).ckpt.busy = s.ckpt.busy ∨ (ckptStopAll s).ckpt.busy = 0 := by
  unfold ckptStopAll
  simp only
  split
  · exact .inl (congrArg _ (foldl_ckptStop_ckpt s.wgs (s, true)))
  · exact .inr rfl

/-- A START that copies after its stops is still under way. -/
theorem ckptStopAll_busy_of_copying (hbusy : s.ckpt.busy = 1) (hcopy : copying (ckptStopAll s) = true) : (ckptStopAll s).ckpt.busy = 1 := by
  rcases ckptStopAll_busy s with h | h
  · exact h.trans hbusy
  · simp [copying, h] at hcopy

/-! ### The stops of a START -/

theorem ckptStopAll_none (h : s.wgs = []) : ckptStopAll s = s := by simp only [ckptStopAll, h, List.foldl_nil, if_true]

theorem getWg_only (h : s.wgs = [(g, x)]) : getWg s g = some x := by simp [getWg, h, mget]

/-- The stops of the only workgroup are those of it, or end the command. -/
theorem ckptStopAll_only (h : s.wgs = [(g, x)]) (halone : wgSet s g = [g]) :
    ckptStopAll s = (ckptStopOne s g).getD (ckptEnd s 2 0) := by
  cases hone : ckptStopOne s g <;> simp [ckptStopAll, h, ckptStop, halone, hone]

theorem ckptStopAll_image (h : s.wgs = [(g, x)]) (halone : wgSet s g = [g]) (hres : x.status = .resident)
    (hroom : freeImageBlocks s x.asid 1 ≠ []) : ckptStopAll s = stopWg s false g := by
  have hempty : (freeImageBlocks s x.asid 1).isEmpty = false := List.isEmpty_eq_false_iff.mpr hroom
  simp [ckptStopAll_only h halone, ckptStopOne, getWg_only h, Wg.running, hres, hempty]

/-- One whose context has no image room takes a block of the checkpoint's. -/
theorem ckptStopAll_noImage (h : s.wgs = [(g, x)]) (halone : wgSet s g = [g]) (hres : x.status = .resident)
    (hroom : freeImageBlocks s x.asid 1 = []) : ckptStopAll s = ((freeCkptBlock s).map
      (fun j => modWg (stopWg s false g) g (fun y => { y with ckptBlock := some j }))).getD (ckptEnd s 2 0) := by
  simp [ckptStopAll_only h halone, ckptStopOne, getWg_only h, Wg.running, hres, hroom]

theorem ckptStopAll_block (h : s.wgs = [(g, x)]) (halone : wgSet s g = [g]) (hres : x.status = .resident)
    (hroom : freeImageBlocks s x.asid 1 = []) (hblock : freeCkptBlock s = some j) :
    ckptStopAll s = modWg (stopWg s false g) g (fun y => { y with ckptBlock := some j }) := by
  rw [ckptStopAll_noImage h halone hres hroom, hblock]; rfl

theorem ckptStopAll_noRoom (h : s.wgs = [(g, x)]) (halone : wgSet s g = [g]) (hres : x.status = .resident)
    (hroom : freeImageBlocks s x.asid 1 = []) (hblock : freeCkptBlock s = none) : ckptStopAll s = ckptEnd s 2 0 := by
  rw [ckptStopAll_noImage h halone hres hroom, hblock]; rfl

end Stopping

/-! ### The commands (16 R381, R390) -/

/-- A command of this kind under way: placement has stopped. -/
def begun (s : State) (cmd : Nat) : State :=
  { s with ckpt := { s.ckpt with busy := cmd, stopped := true, err := 0, mib := 0, blocks := 0 } }

section Commands
variable {s : State} {cmd : Nat}

theorem ckptBegin_busy (hbusy : s.ckpt.busy ≠ 0) : ckptBegin cmd s = s := if_pos hbusy

theorem ckptBegin_bad (hidle : s.ckpt.busy = 0) (hbad : ckptBad s = true) : ckptBegin cmd s = ckptEnd s 1 0 := by
  simp [ckptBegin, hidle, hbad]

theorem ckptBegin_restore (hidle : s.ckpt.busy = 0) (hgood : ckptBad s = false) : ckptBegin 2 s = begun s 2 := by
  simp [ckptBegin, hidle, hgood, begun]

theorem ckptBegin_start (hidle : s.ckpt.busy = 0) (hgood : ckptBad s = false) : ckptBegin 1 s = ckptStopAll (begun s 1) := by
  simp [ckptBegin, hidle, hgood, begun]

theorem ckptGoOn_moves (hleft : blocksLeft s = true) : ckptGoOn s = moveBlock s := if_pos hleft

theorem ckptGoOn_copies (hbusy : s.ckpt.busy = 1) (hleft : blocksLeft s = false) : ckptGoOn s = ckptCopy s := by
  simp [ckptGoOn, hleft, hbusy]

theorem ckptGoOn_returns (hbusy : s.ckpt.busy = 2) (hleft : blocksLeft s = false) : ckptGoOn s = ckptReturn s := by
  simp [ckptGoOn, hleft, hbusy]

theorem execCheckpointDone_copying (hbusy : s.ckpt.busy = 1) (hcopy : copying (ckptStopAll s) = true) :
    execCheckpointDone s = .next (ckptGoOn (ckptStopAll s)) := by
  simp [execCheckpointDone, hbusy, hcopy]

theorem execCheckpointDone_waits (hbusy : s.ckpt.busy = 1) (hcopy : copying (ckptStopAll s) = false) :
    execCheckpointDone s = .next (ckptStopAll s) := by
  simp [execCheckpointDone, hbusy, hcopy]

theorem execCheckpointDone_restore (hbusy : s.ckpt.busy = 2) : execCheckpointDone s = .next (ckptGoOn s) := by
  simp [execCheckpointDone, hbusy]

theorem copying_start_none (hbusy : s.ckpt.busy = 1) (hnone : s.wgs = []) : copying s = true := by
  simp [copying, hbusy, hnone]

end Commands

/-! ### The resets (16 R382) -/

/-- State t is state s with other lane groups. -/
def OtherLgs (s t : State) : Prop := ∃ lgs, t = { s with lgs := lgs }

theorem OtherLgs.trans {s t u : State} (h : OtherLgs s t) (h' : OtherLgs t u) : OtherLgs s u := by
  obtain ⟨lgs, rfl⟩ := h
  obtain ⟨lgs', rfl⟩ := h'
  exact ⟨lgs', rfl⟩

theorem otherLgs_clampDie (s : State) (die : Nat) : OtherLgs s (clampDie s die) := ⟨_, rfl⟩

theorem otherLgs_foldl_clampDie (dies : List Nat) (s : State) : OtherLgs s (dies.foldl clampDie s) := by
  induction dies generalizing s with
  | nil => exact ⟨s.lgs, rfl⟩
  | cons d dies ih =>
    rw [List.foldl_cons]
    exact (otherLgs_clampDie s d).trans (ih (clampDie s d))

/-- The machine of a reset before the dies that have tripped are clamped again. -/
def cleared (s : State) : State :=
  { State.reset with
    sched := s.sched, freeCtr := s.freeCtr, nextId := s.nextId
    mem := s.mem.filter (fun c => outside c.1)
    poison := s.poison.filter (fun gr => 2 ^ 200 ≤ gr && outside (64 * (gr - 2 ^ 200)))
    bellows := { Bellows.reset with trips := s.bellows.trips, droops := s.bellows.droops }
    ckpt := { Ckpt.reset with sets := s.ckpt.sets }, epoch := s.epoch + 1, fw := s.fw.restart }

theorem otherLgs_resetAll (s : State) : OtherLgs (cleared s) (resetAll s) := otherLgs_foldl_clampDie s.bellows.trips (cleared s)

/-- A byte of the device is none of those that a reset leaves. -/
theorem outside_device {k : Nat} (hk : k < 2 ^ 65) : outside k = false := by
  simp only [outside, Bool.or_eq_false_iff, Bool.and_eq_false_iff, decide_eq_false_iff_not]
  omega

theorem readByte_outside {m : List Host.Cell} {k : Nat} (hk : k < 2 ^ 65) : readByte (m.filter (fun c => outside c.1)) k = 0 :=
  readByte_absent (filter_absent fun c hc => by rw [hc, outside_device hk])

/-- Settles O50: a START stops what runs and a copy goes on or ends; a reset is `State.reset` but for what it does not reach. -/
theorem checkpointAndResetEvents : Obligations.CheckpointAndResetEvents := by
  intro s
  refine ⟨fun hbusy => ⟨congrArg _ (ckptBegin_busy hbusy), congrArg _ (ckptBegin_busy hbusy)⟩,
    fun hidle hbad => ⟨congrArg _ (ckptBegin_bad hidle hbad), congrArg _ (ckptBegin_bad hidle hbad)⟩,
    fun hidle hgood => congrArg _ (ckptBegin_restore hidle hgood), fun hidle hgood => ?start,
    fun hbusy hnone hleft => ?copied, fun hbusy hcopy => ?copies, fun hbusy hcopy => execCheckpointDone_waits hbusy hcopy,
    fun hbusy => ⟨fun hleft => ?returned, fun hleft => ?moved⟩, ?power, ?pcie⟩
  case start =>
    have hstart : exec .start s = .next (ckptStopAll (begun s 1)) := congrArg _ (ckptBegin_start hidle hgood)
    exact ⟨hstart, fun hnone => hstart.trans (congrArg _ (ckptStopAll_none hnone)), fun g x hone halone hres =>
      ⟨fun hroom => hstart.trans (congrArg _ (ckptStopAll_image hone halone hres hroom)),
        fun j hroom hblock => hstart.trans (congrArg _ (ckptStopAll_block hone halone hres hroom hblock)),
        fun hroom hblock => hstart.trans (congrArg _ (ckptStopAll_noRoom hone halone hres hroom hblock))⟩⟩
  case copied =>
    have hstop := ckptStopAll_none hnone
    have hdone := execCheckpointDone_copying hbusy (hstop.symm ▸ copying_start_none hbusy hnone)
    rw [hstop, ckptGoOn_copies hbusy hleft] at hdone
    exact hdone
  case copies =>
    have hdone := execCheckpointDone_copying hbusy hcopy
    exact ⟨fun hleft => hdone.trans (congrArg _ (ckptGoOn_copies (ckptStopAll_busy_of_copying hbusy hcopy) hleft)),
      fun hleft => hdone.trans (congrArg _ (ckptGoOn_moves hleft))⟩
  case returned => exact (execCheckpointDone_restore hbusy).trans (congrArg _ (ckptGoOn_returns hbusy hleft))
  case moved => exact (execCheckpointDone_restore hbusy).trans (congrArg _ (ckptGoOn_moves hleft))
  case power =>
    refine ⟨resetAll s, rfl, ?_⟩
    obtain ⟨lgs, hreset⟩ := otherLgs_resetAll s
    rw [hreset]
    exact ⟨rfl, rfl, rfl, rfl, rfl, rfl, rfl, rfl, rfl, rfl, rfl, rfl, rfl, rfl, rfl, rfl, rfl, rfl, rfl, rfl, rfl,
      fun k hk => readByte_outside hk⟩
  case pcie =>
    obtain ⟨lgs, hreset⟩ := otherLgs_resetAll s
    refine ⟨_, rfl, ?_⟩
    rw [hreset]
    exact ⟨rfl, rfl, rfl, rfl, fun k hk => readByte_outside hk⟩

/-- Settles O57: nothing is listed after a power-on reset, and what is not listed has its reset value. -/
theorem resetState : Obligations.ResetState :=
  ⟨fun _ => rfl, fun _ => rfl, fun _ => rfl, fun _ => rfl, fun _ _ => rfl, fun _ => rfl, fun _ _ => rfl, fun _ => rfl, rfl, rfl, rfl, rfl,
    rfl, rfl, rfl, rfl, fun _ => rfl⟩

end Sys2Proof.CheckpointReset
end

section
/-!
The encoding of warp words and bundles (02 R24, R31 to R43): bytes and numbers, fields and words, and the decoder against
the encoder.
-/

namespace Sys2Proof.Encoding

/-! ### Numbers and their bytes -/

@[simp] theorem length_natBytes (n v : Nat) : (natBytes n v).length = n := by
  induction n generalizing v with
  | zero => rfl
  | succ n ih => simp [natBytes, ih]

theorem bytesNat_natBytes (n v : Nat) : bytesNat (natBytes n v) = v % 256 ^ n := by
  induction n generalizing v with
  | zero => simp [natBytes, bytesNat, Nat.mod_one]
  | succ n ih =>
    have hcons : bytesNat (natBytes (n + 1) v) = v % 256 + 256 * bytesNat (natBytes n (v / 256)) := by
      simp [natBytes, bytesNat]
    rw [hcons, ih, Nat.pow_succ', ← Nat.mod_mul]

/-- The eight bytes of a word hold it. -/
theorem ofNat_bytesNat_natBytes (w : Word64) : BitVec.ofNat 64 (bytesNat (natBytes 8 w.toNat)) = w := by
  rw [bytesNat_natBytes, Nat.mod_eq_of_lt (show w.toNat < 256 ^ 8 from w.isLt), BitVec.ofNat_toNat, BitVec.setWidth_eq]

/-! ### Operations -/

theorem opOfCode_code (op : Op) : opOfCode op.code = some op := by cases op <;> rfl

theorem opOfCode_eq_none {c : Nat} (h : ∀ op : Op, op.code ≠ c) : opOfCode c = none :=
  List.find?_eq_none.mpr fun op _ => by simpa using h op

theorem word?_instr (op : Op) (f : WarpWord) : (op.instr f).word? = some (op, f) := by cases op <;> rfl

theorem code_lt (op : Op) : op.code < 2 ^ 10 := by cases op <;> decide

/-! ### Warp words -/

/-- An encoded warp word with its width as the sum of its fields', so that the library's lemmas about `++` see the fields. -/
def wordParts (op : Op) (f : WarpWord) : BitVec (1 + 1 + 10 + 8 + 8 + 8 + 8 + 4 + 16) :=
  BitVec.ofBool f.d ++ BitVec.ofBool f.l ++ BitVec.ofNat 10 op.code ++ f.dst ++ f.a ++ f.b ++ f.c ++ f.guard ++ f.mod

section Fields
variable (op : Op) (f : WarpWord)

theorem getLsbD_encodeWord (i : Nat) : (encodeWord op f).getLsbD i = (wordParts op f).getLsbD i := rfl

theorem extractLsb'_encodeWord (i n : Nat) : (encodeWord op f).extractLsb' i n = (wordParts op f).extractLsb' i n := rfl

theorem wordOp_encodeWord : wordOp (encodeWord op f) = op.code := by
  have hop : (encodeWord op f).extractLsb' 52 10 = BitVec.ofNat 10 op.code := by
    simp [extractLsb'_encodeWord, wordParts, BitVec.extractLsb'_append_eq_of_le, BitVec.extractLsb'_append_eq_of_add_le, -Nat.reduceAdd]
  rw [wordOp, hop, BitVec.toNat_ofNat, Nat.mod_eq_of_lt (code_lt op)]

theorem encodeWord_l : (encodeWord op f).getLsbD 62 = f.l := by
  simp [getLsbD_encodeWord, wordParts, BitVec.getLsbD_append, -Nat.reduceAdd, -BitVec.getLsbD_eq_getElem]

theorem wordFields_encodeWord (hext : f.l = false → f.ext = 0) : wordFields (encodeWord op f) f.ext = f := by
  have hd : (encodeWord op f).getLsbD 63 = f.d := by simp [getLsbD_encodeWord, wordParts, BitVec.getLsbD_append, -Nat.reduceAdd, -BitVec.getLsbD_eq_getElem]
  have he : (if f.l then f.ext else 0) = f.ext := by
    cases h : f.l
    · exact (hext h).symm
    · rfl
  simp only [wordFields, encodeWord_l, hd, he, extractLsb'_encodeWord]
  simp [wordParts, BitVec.extractLsb'_append_eq_of_le, BitVec.extractLsb'_append_eq_of_add_le, -Nat.reduceAdd]

end Fields

theorem decodeWord_encodeWord (op : Op) (f : WarpWord) (hext : f.l = false → f.ext = 0) :
    decodeWord (encodeWord op f) f.ext = .instr (op.instr f) := by
  simp [decodeWord, wordOp_encodeWord, opOfCode_code, wordFields_encodeWord op f hext]

theorem ext_eq_zero_of_wellFormed {op : Op} {f : WarpWord} (h : f.wellFormed op = true) (hl : f.l = false) : f.ext = 0 := by
  simpa [hl] using (Bool.and_eq_true_iff.mp h).2

/-- Settles O51: the decoder is run on each of the words. -/
theorem decodeWorkedWords : Obligations.DecodeWorkedWords := by
  unfold Obligations.DecodeWorkedWords
  decide +kernel

/-- Settles O52: an opcode that no operation has is found for none. -/
theorem reservedWordsRefused : Obligations.ReservedWordsRefused := by
  intro w ext hop
  rw [decodeWord, opOfCode_eq_none hop]

/-! ### The bytes of a word -/

theorem decodeBytes_short {w : Word64} (h : w.getLsbD 62 = false) (rest : List Byte) :
    decodeBytes (natBytes 8 w.toNat ++ rest) = (decodeWord w 0, rest) := by
  simp [decodeBytes, List.take_left', List.drop_left', ofNat_bytesNat_natBytes, h, -BitVec.getLsbD_eq_getElem]

theorem decodeBytes_long {w : Word64} (h : w.getLsbD 62 = true) (ext : Word64) (rest : List Byte) :
    decodeBytes (natBytes 8 w.toNat ++ natBytes 8 ext.toNat ++ rest) = (decodeWord w ext, rest) := by
  have hlen : ¬ (natBytes 8 w.toNat ++ natBytes 8 ext.toNat ++ rest).length < 16 := by simp; omega
  have hshort : ¬ (natBytes 8 w.toNat ++ natBytes 8 ext.toNat ++ rest).length < 8 := fun h => hlen (Nat.lt_trans h (by decide))
  have hlow : (natBytes 8 w.toNat ++ natBytes 8 ext.toNat ++ rest).take 8 = natBytes 8 w.toNat := by
    rw [List.append_assoc, List.take_left' (length_natBytes ..)]
  have hhigh : ((natBytes 8 w.toNat ++ natBytes 8 ext.toNat ++ rest).drop 8).take 8 = natBytes 8 ext.toNat := by
    rw [List.append_assoc, List.drop_left' (length_natBytes ..), List.take_left' (length_natBytes ..)]
  have hrest : (natBytes 8 w.toNat ++ natBytes 8 ext.toNat ++ rest).drop 16 = rest := List.drop_left' (by simp)
  simp only [decodeBytes, hlow, hhigh, hrest, ofNat_bytesNat_natBytes, h, if_true, if_neg hlen, if_neg hshort]

theorem encode_instr (op : Op) (f : WarpWord) :
    encode (op.instr f) = some (natBytes 8 (encodeWord op f).toNat ++ (if f.l then natBytes 8 f.ext.toNat else [])) := by
  simp only [encode, word?_instr]

/-- Settles O53: the bytes hold the word and its extension word, and the word's fields are the instruction's. -/
theorem encodeDecodeWord : Obligations.EncodeDecodeWord := by
  intro op f rest hwf
  have hext := ext_eq_zero_of_wellFormed hwf
  have hword := decodeWord_encodeWord op f hext
  have hbit := encodeWord_l op f
  refine ⟨_, encode_instr op f, ?_⟩
  cases hl : f.l with
  | false =>
    rw [hext hl] at hword
    simp only [Bool.false_eq_true, if_false, List.append_nil, length_natBytes, decodeBytes_short (hbit.trans hl), hword, and_self]
  | true => simp only [if_true, List.length_append, length_natBytes, decodeBytes_long (hbit.trans hl), hword, and_self]

/-! ### The slots of a bundle -/

theorem extractLsb'_encodeLane (s : LaneSlot) (i n : Nat) :
    (encodeLane s).extractLsb' i n = (s.op ++ s.guard ++ s.d ++ s.a ++ s.b).extractLsb' i n := rfl

theorem decodeLane_encodeLane (s : LaneSlot) : decodeLane (encodeLane s) = s := by
  simp [decodeLane, extractLsb'_encodeLane, BitVec.extractLsb'_append_eq_of_le, BitVec.extractLsb'_append_eq_of_add_le,
    -Nat.reduceAdd]

/-- The scalar slot's bits with their width as the sum of the fields'. -/
def scalarParts (s : ScalarSlot) : BitVec (7 + 6 + 6 + 6 + 1 + 14) := s.op ++ s.d ++ s.a ++ s.b ++ BitVec.ofBool s.i ++ s.imm

theorem decodeScalar_encodeScalar (s : ScalarSlot) : decodeScalar (encodeScalar s) = s := by
  change decodeScalar (scalarParts s) = s
  simp [decodeScalar, scalarParts, BitVec.extractLsb'_append_eq_of_le, BitVec.extractLsb'_append_eq_of_add_le,
    BitVec.getLsbD_append, -Nat.reduceAdd, -BitVec.getLsbD_eq_getElem]

/-- The engine slot's bits with their width as the sum of the fields'. -/
def engineParts (s : EngineSlot) : BitVec (6 + 1 + 3 + 6 + 6 + 6 + 4) :=
  s.op ++ BitVec.ofBool s.te ++ s.tk ++ s.a ++ s.b ++ s.c ++ s.mod

theorem decodeEngine_encodeEngine (s : EngineSlot) : decodeEngine (encodeEngine s) = s := by
  change decodeEngine (engineParts s) = s
  simp [decodeEngine, engineParts, BitVec.extractLsb'_append_eq_of_le, BitVec.extractLsb'_append_eq_of_add_le,
    BitVec.getLsbD_append, -Nat.reduceAdd, -BitVec.getLsbD_eq_getElem]

theorem ofBool_getLsbD {w : Nat} (v : BitVec w) (i : Nat) : BitVec.ofBool (v.getLsbD i) = v.extractLsb' i 1 := by
  ext j hj
  obtain rfl : j = 0 := by omega
  simp

theorem encodeLane_decodeLane (v : BitVec 28) : encodeLane (decodeLane v) = v := by
  simp only [encodeLane, decodeLane]
  simp (disch := decide) only [BitVec.extractLsb'_append_extractLsb'_eq_extractLsb', -Nat.reduceAdd]
  exact BitVec.extractLsb'_eq_self

theorem encodeScalar_decodeScalar (v : BitVec 40) : encodeScalar (decodeScalar v) = v := by
  simp only [encodeScalar, decodeScalar, ofBool_getLsbD]
  simp (disch := decide) only [BitVec.extractLsb'_append_extractLsb'_eq_extractLsb', -Nat.reduceAdd]
  exact BitVec.extractLsb'_eq_self

theorem encodeEngine_decodeEngine (v : BitVec 32) : encodeEngine (decodeEngine v) = v := by
  simp only [encodeEngine, decodeEngine, ofBool_getLsbD]
  simp (disch := decide) only [BitVec.extractLsb'_append_extractLsb'_eq_extractLsb', -Nat.reduceAdd]
  exact BitVec.extractLsb'_eq_self

/-! ### The lane slots -/

theorem encodeLanes_cons (s : LaneSlot) (ls : List LaneSlot) :
    encodeLanes (s :: ls) = (encodeLane s).toNat + 2 ^ 28 * encodeLanes ls := rfl

theorem encodeLanes_lt (ls : List LaneSlot) : encodeLanes ls < 2 ^ (28 * ls.length) := by
  induction ls with
  | nil => simp [encodeLanes]
  | cons s ls ih =>
    have hs := (encodeLane s).isLt
    rw [encodeLanes_cons, List.length_cons, Nat.mul_succ, Nat.add_comm, Nat.pow_add, Nat.mul_comm _ (2 ^ 28)]
    calc 2 ^ 28 * encodeLanes ls + (encodeLane s).toNat < 2 ^ 28 * (encodeLanes ls + 1) := by omega
      _ ≤ 2 ^ 28 * 2 ^ (28 * ls.length) := Nat.mul_le_mul_left _ ih

/-- Slot i of the encoded lanes is the encoded slot. -/
theorem encodeLanes_slot {ls : List LaneSlot} {i : Nat} (h : i < ls.length) :
    encodeLanes ls / 2 ^ (28 * i) % 2 ^ 28 = (encodeLane ls[i]).toNat := by
  induction ls generalizing i with
  | nil => exact absurd h (Nat.not_lt_zero i)
  | cons s ls ih =>
    have hs := (encodeLane s).isLt
    cases i with
    | zero => rw [encodeLanes_cons]; simp; omega
    | succ i =>
      have hshift : encodeLanes (s :: ls) / 2 ^ 28 = encodeLanes ls := by rw [encodeLanes_cons]; omega
      rw [Nat.mul_succ, Nat.add_comm, Nat.pow_add, ← Nat.div_div_eq_div_mul, hshift]
      exact ih (by simpa using h)

/-- The slots read from n times 28 bits encode as those bits. -/
theorem encodeLanes_slots {w : Nat} (v : BitVec w) (k n : Nat) :
    encodeLanes ((List.range' k n).map fun i => decodeLane (v.extractLsb' (28 * i) 28)) = v.toNat / 2 ^ (28 * k) % 2 ^ (28 * n) := by
  induction n generalizing k with
  | zero => simp [encodeLanes, Nat.mod_one]
  | succ n ih =>
    have hslot : (v.extractLsb' (28 * k) 28).toNat = v.toNat / 2 ^ (28 * k) % 2 ^ 28 := by
      rw [BitVec.extractLsb'_toNat, Nat.shiftRight_eq_div_pow]
    rw [List.range'_succ, List.map_cons, encodeLanes_cons, encodeLane_decodeLane, hslot, ih, Nat.mul_succ, Nat.mul_succ,
      Nat.pow_add, ← Nat.div_div_eq_div_mul, Nat.add_comm (28 * n), Nat.pow_add, ← Nat.mod_mul]

/-! ### Bundles -/

/-- A bundle's bits with their width as the sum of the fields'. -/
def bundleParts (b : Bundle) : BitVec (30 + 1 + 1 + 8 + 4 + 12 + 32 + 40 + 896) :=
  b.reserved ++ BitVec.ofBool b.d ++ BitVec.ofBool b.s ++ b.wait ++ b.control.op ++ b.control.arg ++
    encodeEngine b.engine ++ encodeScalar b.scalar ++ BitVec.ofNat 896 (encodeLanes b.lanes)

/-- The 28 bits of lane slot i of an encoded bundle are the encoded slot. -/
theorem extractLsb'_bundle_lane {b : Bundle} (h : b.lanes.length = 32) {i : Nat} (hi : i < b.lanes.length) :
    (bundleParts b).extractLsb' (28 * i) 28 = encodeLane b.lanes[i] := by
  have hle : 28 * i + 28 ≤ 896 := by omega
  rw [bundleParts, BitVec.extractLsb'_append_eq_of_add_le hle]
  apply BitVec.eq_of_toNat_eq
  rw [BitVec.extractLsb'_toNat, BitVec.toNat_ofNat, Nat.shiftRight_eq_div_pow,
    Nat.mod_eq_of_lt (show encodeLanes b.lanes < 2 ^ 896 by simpa [h] using encodeLanes_lt b.lanes), encodeLanes_slot hi]

theorem decodeBundle_encodeBundle (b : Bundle) (h : b.lanes.length = 32) : decodeBundle (encodeBundle b) = b := by
  have hlanes : (List.range 32).map (fun i => decodeLane ((bundleParts b).extractLsb' (28 * i) 28)) = b.lanes := by
    refine List.ext_getElem (by simp [h]) fun i _ hi => ?_
    rw [List.getElem_map, List.getElem_range, extractLsb'_bundle_lane h hi, decodeLane_encodeLane]
  change decodeBundle (bundleParts b) = b
  rw [decodeBundle, hlanes]
  simp [bundleParts, BitVec.extractLsb'_append_eq_of_le, BitVec.extractLsb'_append_eq_of_add_le, decodeScalar_encodeScalar,
    decodeEngine_encodeEngine, BitVec.getLsbD_append, -Nat.reduceAdd, -BitVec.getLsbD_eq_getElem]

theorem encodeBundle_decodeBundle (v : BitVec 1024) : encodeBundle (decodeBundle v) = v := by
  have hlanes : BitVec.ofNat 896 (encodeLanes (decodeBundle v).lanes) = v.extractLsb' 0 896 := by
    apply BitVec.eq_of_toNat_eq
    rw [decodeBundle, List.range_eq_range', encodeLanes_slots, BitVec.extractLsb'_toNat, BitVec.toNat_ofNat]
    simp
  rw [encodeBundle, hlanes]
  simp only [decodeBundle, encodeScalar_decodeScalar, encodeEngine_decodeEngine, ofBool_getLsbD]
  simp (disch := decide) only [BitVec.extractLsb'_append_extractLsb'_eq_extractLsb', -Nat.reduceAdd]
  exact BitVec.extractLsb'_eq_self

/-- Settles O54: each slot's bits are read where they are put, and together they are all 1,024. -/
theorem encodeDecodeBundle : Obligations.EncodeDecodeBundle :=
  ⟨fun b hb => decodeBundle_encodeBundle b (of_decide_eq_true hb),
    fun v => ⟨encodeBundle_decodeBundle v, by simp [Bundle.wellFormed, decodeBundle]⟩⟩

end Sys2Proof.Encoding
end

section
/-!
The register files of a warp (02 R25 to R28, 14 R328): what is read after a write, at both trap levels.
-/

namespace Sys2Proof.RegisterFiles
open Sys2Proof.Machine

variable (x : Warp)

/-! ### Vector registers -/

theorem vreg_setVreg_same (n i : Nat) (v : Word32) : (x.setVreg n i v).vreg n i = v := by
  unfold Warp.setVreg
  cases hb : x.bank with
  | none => simp [Warp.vreg]
  | some b => by_cases hn : 232 ≤ n <;> simp [Warp.vreg, hn]

/-- Two registers of one lane, or one of two lanes, have two places in the file. -/
theorem vreg_setVreg_ne {n m i j : Nat} (v : Word32) (hi : i < 32) (hj : j < 32) (h : (n, i) ≠ (m, j)) :
    (x.setVreg n i v).vreg m j = x.vreg m j := by
  have hkey : 32 * m + j ≠ 32 * n + i := by rw [Ne, Prod.mk.injEq] at h; omega
  have hbanked (hn : 232 ≤ n) (hm : 232 ≤ m) : 32 * (m - 232) + j ≠ 32 * (n - 232) + i := by omega
  unfold Warp.setVreg
  cases hb : x.bank with
  | none => simp [Warp.vreg, hb, mgetD_mput_ne _ _ _ _ hkey]
  | some b =>
    by_cases hn : 232 ≤ n
    · by_cases hm : 232 ≤ m
      · simp [Warp.vreg, hb, hn, hm, mgetD_mput_ne _ _ _ _ (hbanked hn hm)]
      · simp [Warp.vreg, hb, hn, hm]
    · by_cases hm : 232 ≤ m
      · simp [Warp.vreg, hb, hn, hm]
      · simp [Warp.vreg, hb, hn, hm, mgetD_mput_ne _ _ _ _ hkey]

theorem setVreg_vregs_of_banked {b : Bank} (hb : x.bank = some b) {n : Nat} (hn : 232 ≤ n) (i : Nat) (v : Word32) :
    (x.setVreg n i v).vregs = x.vregs := by
  simp [Warp.setVreg, hb, hn]

/-! ### s-registers -/

theorem sreg_setSreg_same {n : Nat} (hn : n ≠ 0) (d : Word64) : (x.setSreg n d).sreg n = d := by
  unfold Warp.setSreg
  cases hb : x.bank with
  | none => simp [Warp.sreg, hn]
  | some b => by_cases h56 : 56 ≤ n <;> simp [Warp.sreg, hn, h56]

theorem sreg_setSreg_ne {n m : Nat} (d : Word64) (h : n ≠ m) : (x.setSreg n d).sreg m = x.sreg m := by
  unfold Warp.setSreg
  by_cases hn : n = 0
  · rw [if_pos hn]
  · cases hb : x.bank with
    | none => simp [Warp.sreg, hb, hn, mgetD_mput_ne _ _ _ _ (Ne.symm h)]
    | some b => by_cases h56 : 56 ≤ n <;> simp [Warp.sreg, hb, hn, h56, mgetD_mput_ne _ _ _ _ (Ne.symm h)]

theorem setSreg_sregs_of_banked {b : Bank} (hb : x.bank = some b) {n : Nat} (hn : 56 ≤ n) (d : Word64) :
    (x.setSreg n d).sregs = x.sregs := by
  have hn0 : n ≠ 0 := by omega
  simp [Warp.setSreg, hb, hn, hn0]

/-! ### Mask registers -/

theorem mreg_setMreg_same {n : Nat} (hn : n ≠ 0) (k : Lanes) : (x.setMreg n k).mreg n = k := by
  simp [Warp.setMreg, Warp.mreg, hn]

theorem mreg_setMreg_ne {n m : Nat} (k : Lanes) (h : n ≠ m) : (x.setMreg n k).mreg m = x.mreg m := by
  by_cases hn : n = 0 <;> simp [Warp.setMreg, Warp.mreg, hn, mgetD_mput_ne _ _ _ _ (Ne.symm h)]

/-- Settles O58: the reads of each register file after a write to it. -/
theorem registerReadsAndWrites : Obligations.RegisterReadsAndWrites := by
  intro x n m i j v d k hi hj
  exact ⟨vreg_setVreg_same x n i v, vreg_setVreg_ne x v hi hj, rfl, rfl, fun hn => sreg_setSreg_same x hn d, sreg_setSreg_ne x d,
    rfl, rfl, fun hn => mreg_setMreg_same x hn k, mreg_setMreg_ne x k, fun _ hb hn _ => setVreg_vregs_of_banked x hb hn i v,
    fun _ hb hn => setSreg_sregs_of_banked x hb hn d⟩

end Sys2Proof.RegisterFiles
end

section
/-!
The steps of the memory and of the Lamplighter (07 R166 to R187, 08 R211, R224) under their conditions.
-/

namespace Sys2Proof.MemoryAgents
open Sys2Proof.Machine

/-- Settles O16: each event finds the access or the waiting fragment that it names, and its condition. -/
theorem memoryEvents : Obligations.MemoryEvents := by
  intro s id g w e
  refine ⟨fun l hl hlit hgone => ?loadLands, fun st hst hready => ?storePerformed,
    fun x p all base len hx hp hwait hheld => ?hinvComplete, fun a ha hready => ?atomicRequest, rfl,
    fun x wake hx hwait hwake hheld => ?sleepExpiry⟩
  case loadLands =>
    change execLoadLands id s = _
    simp only [execLoadLands, hl, hlit, hgone, List.isEmpty_nil, Bool.and_self, if_true]
  case storePerformed =>
    change execStorePerformed id s = _
    simp only [execStorePerformed, hst, hready, if_true]
  case hinvComplete =>
    change execHinvComplete g w e s = _
    simp only [execHinvComplete, hx, hp, hwait, hheld, Bool.false_eq_true, if_false]
  case atomicRequest =>
    change execAtomicRequest id s = _
    simp only [execAtomicRequest, ha, hready, if_true]
  case sleepExpiry =>
    change execSleepExpiry g w e s = _
    simp only [execSleepExpiry, hx, hwait, hwake, hheld, Bool.not_false, and_self, if_true]

/-- A unit that is protected keeps its state at its cold threshold (07 R182). -/
theorem execLampColdThreshold_protected {s : State} {u : Nat} (h : isProtected s u = true) :
    execLampColdThreshold u s = .next s := by
  unfold execLampColdThreshold
  split
  · rw [if_neg (by simp [h])]
  · rfl

/-- Settles O39: the unit's state, its time and what holds it decide each event; a tripped die keeps its lane groups near the
threshold. -/
theorem lampEvents : Obligations.LampEvents := by
  intro s u core lg since th zero
  refine ⟨fun hlit hth htime hprot hbusy => ?cold, execLampColdThreshold_protected, fun hw htime => ?woken, fun hw htime => ?waking,
    fun hdark hrel => ?release, fun hallow => ?enter, fun hallow htrip => ?stay, fun htrip => ?leave, fun htrip => ?held⟩
  case cold =>
    change execLampColdThreshold u s = _
    simp only [execLampColdThreshold, hlit, hth, htime, hprot, hbusy, decide_true, Bool.not_false, Bool.and_self, if_true]
  case woken =>
    change execLampWakeComplete u s = _
    simp only [execLampWakeComplete, hw, if_pos htime]
  case waking =>
    change execLampWakeComplete u s = _
    simp only [execLampWakeComplete, hw, if_neg (Nat.not_le.mpr htime)]
  case release =>
    change execLampRelease u s = _
    simp only [execLampRelease, hdark, hrel, decide_false, Bool.not_true, Bool.or_self, Bool.false_eq_true, if_false]
  case enter =>
    change execNearThresholdEnter core lg s = _
    rw [execNearThresholdEnter, if_pos (Bool.or_eq_true_iff.mpr hallow)]
  case stay =>
    change execNearThresholdEnter core lg s = _
    simp only [execNearThresholdEnter, hallow, htrip, Bool.or_self, Bool.false_eq_true, if_false]
  case leave =>
    change execNearThresholdLeave core lg s = _
    simp only [execNearThresholdLeave, leaveNear, htrip, Bool.false_eq_true, if_false]
  case held =>
    change execNearThresholdLeave core lg s = _
    simp only [execNearThresholdLeave, leaveNear, htrip, if_true]

end Sys2Proof.MemoryAgents
end

section
/-!
What comes before an instruction's effect (02 R33, 14 R325, R328): every operation of the warp word runs under one runner.
-/

namespace Sys2Proof.OperandChecks
open Sys2Proof.Machine

/-- Every operation of the warp word is run by the runner, on an effect of its own. -/
theorem exec_instr_runWord (op : Op) (f : WarpWord) (s : State) : ∃ eff, exec (op.instr f) s = runWord op f s eff := by
  cases op <;> simp only [Op.instr, exec,
    execNop, execBra, execBrx, execJoin, execCall, execRet, execExit, execYield, execSleep, execBallot, execVote, execMskOp,
    execMskSave, execMskWset, execPopcM, execFirstM, execLeader, execShfl, execBcast, execLscan, execLred, execGetsr,
    execSetsr, execModeLw, execIadd, execIsub, execIaddc, execImul, execImulh, execImad, execImin, execImax, execIabsd,
    execIshl, execIshr, execIshra, execFshf, execBool3, execBfx, execBfi, execClz, execPopc, execBrev, execIcmp, execSel,
    execIdp4, execMov, execMovi, execBysel, execFadd, execFsub, execFmul, execFfma, execFmin, execFmax, execFcmp, execFrcp,
    execFrsq, execFsqrt, execFdiv, execFexp2, execFlog2, execFsinpi, execFcospi, execFtanh, execFclass, execFrnd, execFscale,
    execCvt, execPack, execUnpack, execQblk, execDqblk, execSadd, execSsub, execSmul, execSmulh, execSand, execSor, execSxor,
    execSshl, execSshr, execSshra, execSmin, execSmax, execScmp, execSsel, execSmov, execSli, execSld, execSst, execSbfx,
    execSclz, execSpopc, execV2s, execLd, execSt, execPref, execCctl, execHflush, execHinv, execPhase, execPadq, execAtom,
    execAtomCas, execRed, execFence, execBarInit, execBarArrive, execBarWait, execBarSync, execBarQuery, execBanklock,
    execTlwait, execTlread, execCopyT, execCopyL, execCopyG, execCopyFill, execCopyStat, execObRes, execObFree, execAnvMma,
    execAnvZero, execAnvDrain, execAnvLoadz, execGangSet, execLicAcq, execLicRel, execLicQuery, execTwSig, execTwWait,
    execRecAlloc, execRecCommit, execRecAbort, execRecInfo, execSpawn, execRegGive, execRegClaim, execNtfPost, execNtfWait,
    execTrap, execBrk, execTrapRet, execVary, runInt, runInt2, runFlt, runArith, runApprox, runSca, runAtomic, runBar,
    runCopy] <;> exact ⟨_, rfl⟩
/-- An issuing fragment is the runner's, whatever the operation. -/
theorem issuer_of_issuing {s : State} {f : WarpWord} {c : Ctx} (h : issuing s f = some c) :
    ∃ i, s.issuer = some i ∧ ctxOf s i f.guard = some c := by
  unfold issuing at h
  exact Option.bind_eq_some_iff.mp h

section Checks
variable {op : Op} {f : WarpWord} {s : State} {c : Ctx} (eff : Ctx → State → State → Res)
  (hissue : issuing s f = some c) (hfree : interlocked s c op f = false)
include hissue hfree

theorem runWord_breakpoint (hd : f.d = true) (hdbg : s.obs.dbgen = true) (hbank : c.warp.bank = none) :
    runWord op f s eff = takeTrap s { cause := 8, sub := 1 } (siteOf s c (encodeWord op f) (some op) f true) := by
  obtain ⟨i, hi, hc⟩ := issuer_of_issuing hissue
  simp [runWord, hi, hc, hfree, hd, hdbg, hbank]

variable (hbrk : (f.d && s.obs.dbgen && c.warp.bank.isNone) = false)
include hbrk

theorem runWord_illegal (hill : legal c.regCtx op f = false) :
    runWord op f s eff = takeTrap s trapOperand (siteOf s c (encodeWord op f) (some op) f true) := by
  obtain ⟨i, hi, hc⟩ := issuer_of_issuing hissue
  simp only [runWord, hi, hc, hfree, hbrk, hill, Bool.false_eq_true, if_false, Bool.not_false, if_true]

theorem runWord_barred (hleg : legal c.regCtx op f = true) (hbank : c.warp.bank.isSome = true) (hbar : barredAtTrap op f = true) :
    runWord op f s eff = .next (clearIssuer (doubleFault s c.g c.w 3 trapOperand.word c.pc 0)) := by
  obtain ⟨i, hi, hc⟩ := issuer_of_issuing hissue
  simp only [runWord, hi, hc, hfree, hbrk, hleg, hbank, hbar, Bool.false_eq_true, if_false, Bool.not_true, Bool.and_self, if_true]

end Checks

/-- Settles O34: the runner's three tests before any effect. -/
theorem operandChecksTrap : Obligations.OperandChecksTrap := by
  intro op f s c hissue hfree
  obtain ⟨eff, heff⟩ := exec_instr_runWord op f s
  simp only [heff]
  exact ⟨runWord_breakpoint eff hissue hfree,
    fun hbrk => ⟨runWord_illegal eff hissue hfree hbrk, runWord_barred eff hissue hfree hbrk⟩⟩

end Sys2Proof.OperandChecks
end

section
/-!
The step of the machine (02 R23, R33, 04 R97): an issue slot's first fragment, what it fetches, and what it then runs.
-/

namespace Sys2Proof.StepTurns
open Sys2Proof.Machine

/-! ### Issue slots -/

section Slot
variable {s : State} {core lg : Nat} {cd : Cand} {cs : List Cand}

/-- The lane group's state while its slot is tried: what yielded may issue again (04 R107). -/
def trying (s : State) (core lg : Nat) : State := modLg s core lg (fun l => { l with yielded := none })

/-- The state after the first fragment of the order has issued (04 R96, R97). -/
def issuedFrom (s : State) (core lg : Nat) (cd : Cand) (cs : List Cand) (r : State) : State :=
  modLg ((cs.filter (eligible s)).foldl growOlder r) core lg
    (fun l => { l with last := some (cd.key, cd.i.e), lastAt := some ((cs.filter (eligible s)).foldl growOlder r).clock })

variable (hslot : hasSlot s core lg = true) (horder : tryOrder (trying s core lg) core lg (getLg s core lg).yielded = cd :: cs)
include hslot horder

theorem issueSlot_issued {r : State} (h : attempt (trying s core lg) cd.i = .next r) (hr : r.issuer = none) :
    issueSlot core lg s = .next (issuedFrom (trying s core lg) core lg cd cs r) := by
  unfold trying at horder h
  simp only [issueSlot, hslot, Bool.not_true, Bool.false_eq_true, if_false, horder, tryAll, h, hr, Option.isNone_none, if_true]
  rfl

theorem issueSlot_fault {e : Fault} (h : attempt (trying s core lg) cd.i = .fault e) : issueSlot core lg s = .fault e := by
  unfold trying at horder h
  simp only [issueSlot, hslot, Bool.not_true, Bool.false_eq_true, if_false, horder, tryAll, h]

theorem issueSlot_refused {e : Refusal} (h : attempt (trying s core lg) cd.i = .refused e) :
    issueSlot core lg s = .refused e := by
  unfold trying at horder h
  simp only [issueSlot, hslot, Bool.not_true, Bool.false_eq_true, if_false, horder, tryAll, h]

end Slot

/-! ### An attempt -/

section Attempt
variable {s : State} {i : Issuer} {x : Wg} {p : Warp}

/-- The state in which fragment i, of warp p of workgroup x, is selected. -/
def selected (s : State) (i : Issuer) (x : Wg) (p : Warp) : State :=
  { (if x.phase ≤ 4 then leaveNear s x.core p.lg else s) with issuer := some i }

variable (hx : getWg s i.g = some x) (hp : getWarp s i.g i.w = some p) (hdue : p.due = none)
include hx hp hdue

theorem attempt_issueWord (hmode : p.lw = none ∨ p.bank.isSome = true)
    (hbound : boundaryTrap (selected s i x p) i.g i.w i.e = none) (hstop : x.stopped = false)
    (halloc : p.bank.isSome = true ∨ ∀ fr, mget p.frags i.e = some fr → headsQueue (selected s i x p) i.g i.w x fr.state = false) :
    attempt s i = issueWord (selected s i x p) x i := by
  have hlw : (p.bank.isNone && p.lw.isSome) = false := by
    rcases hmode with h | h
    · simp [h]
    · simp [Option.isSome_iff_ne_none.mp h]
  have hserve : (p.bank.isNone && (mget p.frags i.e).any (fun f => headsQueue (selected s i x p) i.g i.w x f.state)) = false := by
    rcases halloc with h | h
    · simp [Option.isSome_iff_ne_none.mp h]
    · cases hf : mget p.frags i.e with
      | none => simp
      | some fr => simp [h fr hf]
  unfold selected at hbound hserve ⊢
  simp only [attempt, hx, hp, hdue, hlw, hbound, hstop, hserve, Bool.false_eq_true, if_false]

theorem attempt_issueThread (hlw : p.lw.isSome = true) (hbank : p.bank = none)
    (hstop : (x.stopped && atBoundary (selected s i x p) i.g i.w) = false) :
    attempt s i = issueThread (selected s i x p) x i := by
  unfold selected at hstop ⊢
  simp only [attempt, hx, hp, hdue, hlw, hbank, hstop, Option.isNone_none, Bool.and_self, Bool.false_eq_true, if_false, if_true]

end Attempt

/-! ### What is fetched runs -/

theorem xissue_issuer (t : State) (n : Nat) : (xissue t n).issuer = t.issuer := by
  unfold xissue
  split <;> rfl

theorem issueWord_instr {s t : State} {x : Wg} {i : Issuer} {k : Ctx} {w : Nat} {ins : Instr} (hk : ctxOf s i 0 = some k)
    (hfetch : fetchWord s x (warpKey i.g i.w) k.pc.toNat = .ok w t)
    (hdec : decodeWord (BitVec.ofNat 64 w) (BitVec.ofNat 64 (w / 2 ^ 64)) = .instr ins) :
    issueWord s x i = stamp t i ins (exec ins t) := by
  simp only [issueWord, hk, hfetch, runFetched, hdec]

theorem issueThread_bundle {s t : State} {x : Wg} {i : Issuer} {k : LwCtx} {w : Nat} (hk : lwCtxOf s i = some k)
    (hbound : lwBoundary s k = none) (hfetch : fetchBundle s x (warpKey i.g i.w) k.lw.pc.toNat = .ok w t) :
    issueThread s x i = exec (.bundleIssue (decodeBundle (BitVec.ofNat 1024 w))) t := by
  simp only [issueThread, hk, hbound, hfetch]

/-- Settles O55: the slot's first fragment is attempted, the attempt fetches and runs, and the slot ends as that does; the step of
another agent is its event by definition. -/
theorem stepRunsDecoded : Obligations.StepRunsDecoded := by
  refine ⟨?slot, fun s n i rest hs => by simp only [step, turn, hs, takeTurn]⟩
  intro s n core lg rest cd cs x p u0 u v after hs hslot horder hx hp hdue
  have hstep : step s = issueSlot core lg u0 := by simp only [step, turn, hs, takeTurn, u0]
  constructor
  · intro k w t i op f hmode hbound hstop halloc hk hfetch hdec hword lgOf cycles
    have hatt : attempt u cd.i = stamp t cd.i i (exec i t) :=
      (attempt_issueWord hx hp hdue hmode hbound hstop halloc).trans (issueWord_instr hk hfetch hdec)
    refine ⟨fun r hr hnone => ?_, fun e he => ?_, fun e he => ?_⟩
    · have hnext : attempt u cd.i = .next (xissue r cycles) := by rw [hatt, hr]; simp only [stamp, hword]; rfl
      exact hstep.trans (issueSlot_issued hslot horder hnext ((xissue_issuer r cycles).trans hnone))
    · exact hstep.trans (issueSlot_fault hslot horder (hatt.trans (by rw [he]; rfl)))
    · exact hstep.trans (issueSlot_refused hslot horder (hatt.trans (by rw [he]; rfl)))
  · intro k w t hlw hbank hstop hk hbound hfetch
    have hatt : attempt u cd.i = exec (.bundleIssue (decodeBundle (BitVec.ofNat 1024 w))) t :=
      (attempt_issueThread hx hp hdue hlw hbank hstop).trans (issueThread_bundle hk hbound hfetch)
    exact ⟨fun r hr hnone => hstep.trans (issueSlot_issued hslot horder (hatt.trans hr) hnone),
      fun e he => hstep.trans (issueSlot_fault hslot horder (hatt.trans he))⟩

end Sys2Proof.StepTurns
end

section
/-!
The issue of a bundle (06 R142 to R152): a thread whose results have landed and whose tokens are complete issues all its slots.
-/

namespace Sys2Proof.BundleIssue
open Sys2Proof.Machine

section Slots
variable {b : Bundle} {s t u v : State} {c : LwCtx} {k : CtlEffect}

/-- The scalar loads under way write none of the bundle's s-registers (06 R148). -/
theorem sldPending_eq_false (h : ∀ l ∈ s.loads, ∀ n x, l.scal = some (n, x) → l.g = c.g → l.w = c.w → (bundleSregs b).contains n = false) :
    sldPending s c b = false := by
  rw [sldPending, List.any_eq_false]
  intro l hl
  cases hscal : l.scal with
  | none => simp
  | some q =>
    obtain ⟨n, x⟩ := q
    simp only [Bool.and_eq_true, decide_eq_true_eq, not_and, Bool.not_eq_true]
    exact fun hgw => h l hl n x hscal hgw.1 hgw.2

/-- A bundle whose form and registers are legal and whose slots proceed has their effects, the engine slot's after the scalar
slot's. -/
theorem issueBundle_done (hdbg : (b.d && s.obs.dbgen) = false) (hform : bundleForm b = true) (hconf : bundleConflict s c b = false)
    (hregs : bundleRegs c.warp.alloc b = true) (hsld : sldPending s c b = false) (hwash : bundleWashing s c b = false)
    (htok : b.engine.te = true → mgetD c.lw.tokens b.engine.tk.toNat 0 < 255) (hclean : bundlePoison c b = 0)
    (hctl : controlDo s c b.control = .ok k) (hsca : scalarAccess s s c b.scalar = .done t)
    (heng : engineDo s s c b.engine = .done u) (heng' : engineDo s t c b.engine = .done v) :
    issueBundle s c b = .next (clearIssuer (afterBundle
      (loadFills (if b.lanes.any (fun x => x.op = 0x27 || (0x29 ≤ x.op.toNat && x.op.toNat ≤ 0x2B))
        then { v with freeCtr := v.freeCtr + 32 } else v) c.agent 3 {} k.fills)
      c b k (bundleFlights s c b))) := by
  have hfull : (b.engine.te && decide (255 ≤ mgetD c.lw.tokens b.engine.tk.toNat 0)) = false := by
    cases hte : b.engine.te with
    | false => rfl
    | true => simpa using htok hte
  simp only [issueBundle, hdbg, hform, hconf, hregs, hsld, hfull, hwash, hclean, hctl, hsca, heng, heng', Bool.not_true,
    Bool.false_eq_true, if_false, if_true]
  rfl

end Slots

/-- Settles O37: what comes before the slots does not hold the bundle, and then they issue. -/
theorem bundleIssueResult : Obligations.BundleIssueResult := by
  intro b s t u v i c0 c1 c k hi hc0
  dsimp only
  intro hc1 hpend1 htokens hc hpend2 hdbg hform hconf hregs hloads hwash htok hclean hctl hsca heng heng'
  have hready : (List.range 8).any (fun n => b.wait.getLsbD n && decide (mgetD c1.lw.tokens n 0 ≠ 0)) = false := by
    simp only [List.any_eq_false, List.mem_range, Bool.and_eq_true, decide_eq_true_eq, not_and, not_not]
    exact htokens
  have hslots := issueBundle_done hdbg hform hconf hregs (sldPending_eq_false hloads) hwash htok hclean hctl hsca heng heng'
  change execBundleIssue b s = _
  simp only [execBundleIssue, hi, hc0, hc1, hpend1, hready, hc, hpend2, hslots, Bool.false_eq_true, if_false]

end Sys2Proof.BundleIssue
end

section
/-!
LD, ST, SLD and SST at their issue (07 R190 to R194, 05 R138), and the cache and lamp hints (07 R185, R187, R195 to R200).
-/

namespace Sys2Proof.MemoryClass
open Sys2Proof.Machine

/-! ### The state past an instruction -/

theorem countSpan_eq (s : State) (c : Ctx) (op : Op) (f : WarpWord) : ∃ cs, countSpan s c op f = { s with cores := cs } := by
  by_cases hop : op = .banklock
  · exact ⟨_, by rw [countSpan, if_pos hop]⟩
  · by_cases hspan : (getCore s c.wg.core).spans.all (fun sp => sp.warp ≠ warpKey c.g c.w) = true
    · exact ⟨_, by rw [countSpan, if_neg hop, if_pos hspan]⟩
    · exact ⟨_, by rw [countSpan, if_neg hop, if_neg hspan]; rfl⟩

section Past
variable (op : Op) (f : WarpWord) (s : State) (c : Ctx)

/-- Being moved past its word changes the issuing warp and, in its bank-lock span, its core. -/
theorem past_eq : ∃ ws cs, past op f s c = { s with warps := ws, cores := cs } := by
  obtain ⟨cs, h⟩ := countSpan_eq (advance s c f) c op f
  exact ⟨_, cs, h⟩

@[simp] theorem past_wgs : (past op f s c).wgs = s.wgs := by
  obtain ⟨ws, cs, h⟩ := past_eq op f s c
  rw [h]

@[simp] theorem past_mem : (past op f s c).mem = s.mem := by
  obtain ⟨ws, cs, h⟩ := past_eq op f s c
  rw [h]

end Past

/-- Settles O14: with its checks held and its wait over, each access takes the path of its effect on which it issues. -/
theorem loadStoreResults : Obligations.LoadStoreResults := by
  intro f s c sp core n k
  refine ⟨fun h hp => ?ldIdle, fun h hp => ?stIdle, fun ps hps hp hacq h => ?ld, fun ps hps hp hrel h => ?st,
    fun p hps hatom h => ?sld, fun ps hps h => ?sst⟩
  case ldIdle =>
    change execLd f s = _
    exact runWord_done h (if_pos hp)
  case stIdle =>
    change execSt f s = _
    exact runWord_done h (if_pos hp)
  case ld =>
    have hwait : (decide (modBits f 6 2 = 1) && !acqReady s c c.p ps) = false := by
      by_cases hm : modBits f 6 2 = 1
      · simp [hacq hm]
      · simp [hm]
    change execLd f s = _
    refine runWord_done h ?_
    simp only [sp, core, n] at hps ⊢
    simp only [hps, if_neg hp, hwait, Bool.false_eq_true, if_false, List.flatMap_map]
  case st =>
    have hwait : ¬ (modBits f 6 2 = 2 ∧ (!laneRelease s c.g c.w (modBits f 8 3) c.p) = true) := by
      rintro ⟨hm, hr⟩
      simp [hrel hm] at hr
    change execSt f s = _
    refine runWord_done h ?_
    simp only [sp, core, n] at hps ⊢
    simp only [hps, if_neg hp, if_neg hwait]
  case sld =>
    have hwait : (p.key.any fun k => warpAtomMeets s c.g c.w k p.bytes) = false := by
      cases hkey : p.key with
      | none => rfl
      | some key => exact hatom key hkey
    change execSld f s = _
    refine runWord_done h ?_
    simp only [sp, core, k] at hps ⊢
    simp only [scaBytes, hps, List.any_cons, List.any_nil, hwait, Bool.or_self, Bool.false_eq_true, if_false, List.foldl_cons,
      List.foldl_nil]
  case sst =>
    change execSst f s = _
    refine runWord_done h ?_
    simp only [sp, core, k] at hps ⊢
    simp only [scaBytes, hps]

/-! ### PHASE and the lamp units -/

/-- A newly protected unit that is DIM wakes (07 R185). -/
def wakeDim (t : State) (u : Nat) : State := if lampOf t u = .dim then touch t u else t

/-- A unit that is no longer protected starts its idle count afresh where it is LIT (07 R185). -/
def restartIdle (t : State) (u : Nat) : State := if isLit t u then touch t u else t

theorem touch_eq (t : State) (u : Nat) : ∃ ls, touch t u = { t with lamps := ls } := by
  unfold touch
  split
  · exact ⟨_, rfl⟩
  · exact ⟨_, rfl⟩
  · split
    · exact ⟨_, rfl⟩
    · split <;> exact ⟨_, rfl⟩
  · exact ⟨_, rfl⟩

theorem lampOf_setLamp_same (t : State) (u : Nat) (l : Lamp) : lampOf (setLamp t u l) u = l := mgetD_mput_same ..

theorem lampOf_setLamp_ne (t : State) {u v : Nat} (l : Lamp) (h : v ≠ u) : lampOf (setLamp t u l) v = lampOf t v :=
  mgetD_mput_ne _ _ _ _ h

theorem dimsNow_setLamp (t : State) (u v : Nat) (l : Lamp) : dimsNow (setLamp t u l) v = dimsNow t v := rfl

/-- An access tells nothing of whether any unit is LIT: a unit that it makes LIT was so, having dimmed in this very cycle. -/
theorem isLit_touch (t : State) (u v : Nat) : isLit (touch t u) v = isLit t v := by
  by_cases h : v = u
  · subst h
    unfold touch
    split
    · next hl => simp [isLit, hl, lampOf_setLamp_same]
    · next hl =>
      cases hd : dimsNow t v <;> simp [isLit, hl, hd, lampOf_setLamp_same]
    · next hl =>
      cases hd : dimsNow t v
      · by_cases hv : 72960 ≤ v <;> simp [isLit, hl, hd, hv, lampOf_setLamp_same]
      · simp [isLit, hl, hd, lampOf_setLamp_same]
    · rfl
  · have hlamp : lampOf (touch t u) v = lampOf t v := by
      unfold touch
      split
      · exact lampOf_setLamp_ne t _ h
      · exact lampOf_setLamp_ne t _ h
      · split
        · exact lampOf_setLamp_ne t _ h
        · split
          · exact lampOf_setLamp_ne t _ h
          · rfl
      · rfl
    have hdims : dimsNow (touch t u) v = dimsNow t v := by
      obtain ⟨ls, hls⟩ := touch_eq t u
      rw [hls]
      rfl
    simp only [isLit, hlamp, hdims]

/-- State t differs from s in its lamp units alone, and of none of them in whether it is LIT. -/
def SameLight (s t : State) : Prop := (∃ ls, t = { s with lamps := ls }) ∧ ∀ u, isLit t u = isLit s u

theorem SameLight.touch {s t : State} (h : SameLight s t) (u : Nat) : SameLight s (touch t u) := by
  obtain ⟨⟨ls, rfl⟩, hlit⟩ := h
  obtain ⟨ms, hms⟩ := touch_eq { s with lamps := ls } u
  exact ⟨⟨ms, hms⟩, fun v => (isLit_touch _ u v).trans (hlit v)⟩

/-- Accesses to those of some units that meet a condition tell nothing of which units are LIT. -/
theorem SameLight.foldl_touch {s t : State} (h : SameLight s t) (p : State → Nat → Prop) [∀ t u, Decidable (p t u)] (us : List Nat) :
    SameLight s (us.foldl (fun t u => if p t u then Machine.touch t u else t) t) := by
  induction us generalizing t with
  | nil => exact h
  | cons u us ih =>
    rw [List.foldl_cons]
    refine ih ?_
    split
    · exact h.touch u
    · exact h

/-- The state in which PHASE has written the workgroup's registers and told the units that it protects and no longer protects. -/
def phased (s t : State) (c : Ctx) (x : Wg) : State :=
  let t := modWg t c.g (fun y => { y with phase := x.phase, nearMask := x.nearMask })
  let t := ((protects s x).filter (fun u => !(protects s c.wg).contains u)).foldl
    (fun t u => if lampOf t u = .dim then touch t u else t) t
  ((protects s c.wg).filter (fun u => !(protects s x).contains u)).foldl (fun t u => if isLit t u then touch t u else t) t

theorem sameLight_phased (s t : State) (c : Ctx) (x : Wg) :
    SameLight (modWg t c.g (fun y => { y with phase := x.phase, nearMask := x.nearMask })) (phased s t c x) :=
  ((SameLight.foldl_touch ⟨⟨_, rfl⟩, fun _ => rfl⟩ _ _).foldl_touch _ _)

theorem isLit_past (op : Op) (f : WarpWord) (s : State) (c : Ctx) (u : Nat) : isLit (past op f s c) u = isLit s u := by
  obtain ⟨ws, cs, h⟩ := past_eq op f s c
  rw [h]
  rfl

/-- What PHASE answers in its turn (07 R185): the fragment goes on where every newly protected unit is LIT, and else waits. -/
theorem execPhase_inTurn {f : WarpWord} {s : State} {c : Ctx} (h : Ready .phase f s c) (hturn : inOrder s (clsPhase c.g) c.w = true) :
    let x := { c.wg with phase := modBits f 0 3, nearMask := (sA c f).setWidth 48 }
    let fresh := (protects s x).filter (fun u => !(protects s c.wg).contains u)
    let t := takePlace (phased s (past .phase f s c) c x) (clsPhase c.g) c.w
    execPhase f s = .next (clearIssuer (if ∀ u ∈ fresh, isLit s u = true then t else blockFrag t c.g c.w c.e (.lit fresh c.pc))) := by
  intro x fresh t
  refine runWord_done h ?_
  have hlit : ∀ u, isLit (phased s (past .phase f s c) c x) u = isLit s u := fun u =>
    ((sameLight_phased s (past .phase f s c) c x).2 u).trans (isLit_past .phase f s c u)
  simp only [hturn, Bool.not_true, Bool.false_eq_true, if_false]
  change (if fresh.all (isLit (phased s (past .phase f s c) c x)) = true then Res.done t else .done (blockFrag t c.g c.w c.e (.lit fresh c.pc))) = _
  simp only [List.all_eq_true, hlit]
  split <;> rfl

/-- What the state after PHASE holds: the workgroup's registers written, memory as it was, and the warps as a NOP or a wait leaves
them. -/
theorem phase_fields {f : WarpWord} {s : State} {c : Ctx} {x : Wg} {fresh : List Nat} :
    let t := takePlace (phased s (past .phase f s c) c x) (clsPhase c.g) c.w
    let v := clearIssuer (if ∀ u ∈ fresh, isLit s u = true then t else blockFrag t c.g c.w c.e (.lit fresh c.pc))
    v.wgs = mmod s.wgs c.g (fun y => { y with phase := x.phase, nearMask := x.nearMask }) ∧
      v.warps = (if ∀ u ∈ fresh, isLit s u = true then past .phase f s c
        else blockFrag (past .phase f s c) c.g c.w c.e (.lit fresh c.pc)).warps ∧ v.mem = s.mem := by
  obtain ⟨⟨ls, hls⟩, -⟩ := sameLight_phased s (past .phase f s c) c x
  obtain ⟨ws, cs, hpast⟩ := past_eq .phase f s c
  rw [hls, hpast]
  intro t v
  by_cases hlit : ∀ u ∈ fresh, isLit s u = true
  · simp only [v, t, if_pos hlit]
    exact ⟨rfl, rfl, rfl⟩
  · simp only [v, t, if_neg hlit]
    exact ⟨rfl, rfl, rfl⟩

/-- A hint whose addresses all have their translations acts at each key (07 R195, R196; log 26). -/
theorem runHints_done {c : Ctx} {s t : State} {vas : List Word64} (act : State → Nat × Nat → State)
    (h : (hintKeys s c vas).1.isSome = true) :
    runHints c s t vas act =
      .done (dropFailed (((hintKeys t c vas).1.getD []).foldl act (hintKeys t c vas).2) (warpKey c.g c.w)) := by
  obtain ⟨ks, hks⟩ := Option.isSome_iff_exists.mp h
  unfold runHints
  rw [show hintKeys s c vas = (some ks, (hintKeys s c vas).2) from Prod.ext hks rfl]

/-- Settles O15: each hint takes the path of its effect that its field, its range or its turn selects; PHASE tells the units that
it comes to protect and no longer protects, which changes none that is LIT. -/
theorem memoryHintResults : Obligations.MemoryHintResults := by
  intro f s c core x' fresh vas hinted
  refine ⟨fun h hsp => ?prefVaults, fun h hsp hkeys => ?prefLines, fun h hm => ?cctlAll, fun h hm => ?cctlConst,
    fun h hm hkeys => ?cctlLines, fun b hr h => ?flushNone, fun b hr h => ?invNone, fun r hr hlen h => ?flush, fun hr h => ?invAll,
    fun b n hr hn h => ?inv, fun hturn h => ?phase, fun h => (runWord_done h rfl : execPadq f s = _)⟩
  case prefVaults =>
    change execPref f s = _
    exact runWord_done h (if_pos hsp)
  case prefLines =>
    change execPref f s = _
    refine runWord_done h ?_
    exact (if_neg hsp).trans (runHints_done _ hkeys)
  case cctlAll =>
    change execCctl f s = _
    refine runWord_done h ?_
    simp only [hm, core]
  case cctlConst =>
    change execCctl f s = _
    refine runWord_done h ?_
    simp only [hm, core]
  case cctlLines =>
    change execCctl f s = _
    refine runWord_done h ?_
    simp only [hm]
    exact runHints_done _ hkeys
  case flushNone =>
    change execHflush f s = _
    refine runWord_done h ?_
    simp [hr]
  case invNone =>
    change execHinv f s = _
    refine runWord_done h ?_
    simp [hr]
  case flush =>
    subst hr
    have hany : (hostRange c f).any (fun p => decide (p.2 = 0)) = false := by
      cases hr : hostRange c f with
      | none => rfl
      | some p => exact decide_eq_false (hlen p hr)
    change execHflush f s = _
    refine runWord_done h ?_
    simp only [hany, Bool.false_eq_true, if_false, core]
  case invAll =>
    change execHinv f s = _
    refine runWord_done h ?_
    simp only [hr]
  case inv =>
    change execHinv f s = _
    refine runWord_done h ?_
    simp only [hr, if_neg hn]
  case phase =>
    have hwg : mget s.wgs c.g = some c.wg := (CopyCommands.holds_of_ready h).1
    obtain ⟨hwgs, hwarps, hmem⟩ := phase_fields (f := f) (s := s) (c := c) (x := x') (fresh := fresh)
    refine ⟨_, execPhase_inTurn h hturn, ?_, fun g hg => ?_, fun k => congrArg (readByte · k) hmem, hwarps⟩
    · exact (congrArg (mget · c.g) hwgs).trans (by rw [mget_mmod_same, hwg]; rfl)
    · exact (congrArg (mget · g) hwgs).trans (mget_mmod_ne _ _ hg)

end Sys2Proof.MemoryClass
end

section
/-!
What the arithmetic, mask, cross-lane and reading classes leave unchanged (02 R28, 03 R75, R78, 05 R117, R137): the registers that
each kind of write reaches, and that every instruction of these classes writes its destination and nothing else.
-/

namespace Sys2Proof.RegisterFrame
open Sys2Proof.Machine Sys2Proof.RegisterFiles

/-! ### What an instruction may write -/

/-- What an instruction of a register class may write: vector registers by number and lane, s-registers, mask registers, SF, FPSTAT,
the SEED of a lane, and whether it takes its turn among the barrier operations. -/
structure Writable where
  vec : Nat → Nat → Prop
  sreg : Nat → Prop
  mreg : Nat → Prop
  sf : Prop
  flags : Prop
  seed : Nat → Prop
  turn : Prop

/-- Warp y is warp x but for what may be written. -/
structure Kept (A : Writable) (x y : Warp) : Prop where
  frame : warpFrame x y A.vec A.sreg A.mreg
  sf : ¬ A.sf → y.sf = x.sf
  gains : y.fpstat &&& x.fpstat = x.fpstat
  fpstat : ¬ A.flags → y.fpstat = x.fpstat
  seed : ∀ i, i < 32 → ¬ A.seed i → y.seed i = x.seed i

/-! ### Writes of one warp -/

section Warps
variable (A : Writable) (y : Warp)

theorem sameWarp_refl : sameWarp y y := ⟨rfl, rfl, rfl, rfl, rfl, rfl, rfl, rfl, rfl, rfl, rfl, rfl⟩

theorem Kept.refl : Kept A y y :=
  ⟨⟨fun _ _ _ _ => rfl, fun _ _ => rfl, fun _ _ => rfl, rfl, sameWarp_refl y⟩, fun _ => rfl, BitVec.and_self, fun _ => rfl,
    fun _ _ _ => rfl⟩

variable {A} {y}

theorem Kept.trans {x z : Warp} (h : Kept A x y) (h' : Kept A y z) : Kept A x z := by
  obtain ⟨⟨hv, hs, hm, hmask, hw⟩, hsf, hgain, hfp, hseed⟩ := h
  obtain ⟨⟨hv', hs', hm', hmask', hw'⟩, hsf', hgain', hfp', hseed'⟩ := h'
  have hsame : sameWarp x z := by
    obtain ⟨h1, h2, h3, h4, h5, h6, h7, h8, h9, h10, h11, h12⟩ := hw
    obtain ⟨k1, k2, k3, k4, k5, k6, k7, k8, k9, k10, k11, k12⟩ := hw'
    exact ⟨k1.trans h1, k2.trans h2, k3.trans h3, k4.trans h4, k5.trans h5, k6.trans h6, k7.trans h7, k8.trans h8, k9.trans h9,
      k10.trans h10, k11.trans h11, k12.trans h12⟩
  have hflags : z.fpstat &&& x.fpstat = x.fpstat := by rw [← hgain, ← BitVec.and_assoc, hgain']
  exact ⟨⟨fun n i hi hn => (hv' n i hi hn).trans (hv n i hi hn), fun n hn => (hs' n hn).trans (hs n hn),
    fun n hn => (hm' n hn).trans (hm n hn), hmask'.trans hmask, hsame⟩, fun hn => (hsf' hn).trans (hsf hn), hflags,
    fun hn => (hfp' hn).trans (hfp hn), fun i hi hn => (hseed' i hi hn).trans (hseed i hi hn)⟩

/-- A vector register is written in the file of the trap level. -/
theorem setVreg_eq (y : Warp) (n i : Nat) (v : Word32) :
    (∃ vs ps, y.setVreg n i v = { y with vregs := vs, poisoned := ps }) ∨
      ∃ b vs, y.bank = some b ∧ y.setVreg n i v = { y with bank := some { b with vregs := vs } } := by
  unfold Warp.setVreg
  cases hb : y.bank with
  | none => exact .inl ⟨_, _, rfl⟩
  | some b =>
    by_cases hn : 232 ≤ n
    · exact .inr ⟨b, _, rfl, by simp only [if_pos hn]; rfl⟩
    · exact .inl ⟨_, _, by simp only [if_neg hn]; rw [← hb]⟩

/-- An s-register is written in the file of the trap level, and s0 not at all. -/
theorem setSreg_eq (y : Warp) (n : Nat) (v : Word64) :
    (∃ ss, y.setSreg n v = { y with sregs := ss }) ∨
      ∃ b ss, y.bank = some b ∧ y.setSreg n v = { y with bank := some { b with sregs := ss } } := by
  unfold Warp.setSreg
  by_cases h0 : n = 0
  · exact .inl ⟨y.sregs, by rw [if_pos h0]⟩
  · rw [if_neg h0]
    cases hb : y.bank with
    | none => exact .inl ⟨_, rfl⟩
    | some b =>
      by_cases hn : 56 ≤ n
      · exact .inr ⟨b, _, rfl, by simp only [if_pos hn]; rfl⟩
      · exact .inl ⟨_, by simp only [if_neg hn]; rw [← hb]⟩

theorem Kept.setVreg {n i : Nat} (v : Word32) (hi : i < 32) (hn : A.vec n i) : Kept A y (y.setVreg n i v) := by
  have hv : ∀ m j, j < 32 → ¬ A.vec m j → (y.setVreg n i v).vreg m j = y.vreg m j := fun m j hj hnot =>
    vreg_setVreg_ne y v hi hj fun e => hnot (by cases e; exact hn)
  rcases setVreg_eq y n i v with ⟨vs, ps, h⟩ | ⟨b, vs, hb, h⟩
  · rw [h] at hv ⊢
    exact ⟨⟨hv, fun _ _ => rfl, fun _ _ => rfl, rfl, sameWarp_refl y⟩, fun _ => rfl, BitVec.and_self, fun _ => rfl, fun _ _ _ => rfl⟩
  · rw [h] at hv ⊢
    exact ⟨⟨hv, fun m _ => by simp [Warp.sreg, hb], fun _ _ => rfl, by simp [Warp.mask, hb], sameWarp_refl y⟩, fun _ => rfl,
      BitVec.and_self, fun _ => rfl, fun _ _ _ => rfl⟩

theorem Kept.setSreg {n : Nat} (v : Word64) (hn : A.sreg n) : Kept A y (y.setSreg n v) := by
  have hs : ∀ m, ¬ A.sreg m → (y.setSreg n v).sreg m = y.sreg m := fun m hnot =>
    sreg_setSreg_ne y v fun e => hnot (e ▸ hn)
  rcases setSreg_eq y n v with ⟨ss, h⟩ | ⟨b, ss, hb, h⟩
  · rw [h] at hs ⊢
    exact ⟨⟨fun _ _ _ _ => rfl, hs, fun _ _ => rfl, rfl, sameWarp_refl y⟩, fun _ => rfl, BitVec.and_self, fun _ => rfl, fun _ _ _ => rfl⟩
  · rw [h] at hs ⊢
    exact ⟨⟨fun _ _ _ _ => by simp [Warp.vreg, hb], hs, fun _ _ => rfl, by simp [Warp.mask, hb], sameWarp_refl y⟩, fun _ => rfl,
      BitVec.and_self, fun _ => rfl, fun _ _ _ => rfl⟩

theorem Kept.setMreg {n : Nat} (k : Lanes) (hn : A.mreg n) : Kept A y (y.setMreg n k) := by
  have hm : ∀ m, ¬ A.mreg m → (y.setMreg n k).mreg m = y.mreg m := fun m hnot => mreg_setMreg_ne y k fun e => hnot (e ▸ hn)
  unfold Warp.setMreg at hm ⊢
  split
  · exact Kept.refl A y
  · next h0 =>
    rw [if_neg h0] at hm
    exact ⟨⟨fun _ _ _ _ => rfl, fun _ _ => rfl, hm, rfl, sameWarp_refl y⟩, fun _ => rfl, BitVec.and_self, fun _ => rfl,
      fun _ _ _ => rfl⟩

theorem Kept.raise (fl : BitVec 5) (hf : A.flags) : Kept A y (y.raise fl) :=
  ⟨⟨fun _ _ _ _ => rfl, fun _ _ => rfl, fun _ _ => rfl, rfl, sameWarp_refl y⟩, fun _ => rfl,
    by ext i; simp [Warp.raise]; tauto, fun hnot => absurd hf hnot, fun _ _ _ => rfl⟩

theorem Kept.setSeed {i : Nat} (v : Word32) (hi : A.seed i) : Kept A y (y.setSeed i v) :=
  ⟨⟨fun _ _ _ _ => rfl, fun _ _ => rfl, fun _ _ => rfl, rfl, sameWarp_refl y⟩, fun _ => rfl, BitVec.and_self, fun _ => rfl,
    fun _ _ hnot => mgetD_mput_ne _ _ _ _ fun e => hnot (e ▸ hi)⟩

theorem Kept.setSf (v : Bool) (hsf : A.sf) : Kept A y { y with sf := v } :=
  ⟨⟨fun _ _ _ _ => rfl, fun _ _ => rfl, fun _ _ => rfl, rfl, sameWarp_refl y⟩, fun hnot => absurd hsf hnot, BitVec.and_self,
    fun _ => rfl, fun _ _ _ => rfl⟩

end Warps

/-! ### Writes of the state -/

/-- State t is state s with warp c.w of workgroup c.g written as A allows: its core's spans, the exchange results under way, the
counter of free values and the workgroup's turn apart. -/
structure Writes (A : Writable) (s : State) (c : Ctx) (t : State) : Prop where
  rest : ∃ ws cs xs n ms, t = { s with warps := ws, cores := cs, xpend := xs, freeCtr := n, marks := ms }
  others : ∀ k, k ≠ warpKey c.g c.w → mget t.warps k = mget s.warps k
  warp : ∃ y, getWarp t c.g c.w = some y ∧ Kept A c.warp y
  otherCores : ∀ k, k ≠ c.wg.core → getCore t k = getCore s k
  core : { getCore t c.wg.core with spans := (getCore s c.wg.core).spans } = getCore s c.wg.core
  exchange : ∃ l, t.xpend = s.xpend ++ l ∧ ∀ x ∈ l, x.g = c.g ∧ x.w = c.w
  otherMarks : ∀ k, k ≠ clsBar c.g → mget t.marks k = mget s.marks k
  marks : ¬ A.turn → t.marks = s.marks

namespace Writes
variable {A : Writable} {s t : State} {c : Ctx}

theorem modWarp (h : Writes A s c t) {F : Warp → Warp} (hF : ∀ y, Kept A y (F y)) : Writes A s c (modWarp t c.g c.w F) := by
  obtain ⟨⟨ws, cs, xs, n, ms, rfl⟩, hothers, ⟨y, hy, hkept⟩, hcores, hcore, hx, hmarks, hnot⟩ := h
  refine ⟨⟨_, _, _, _, _, rfl⟩, fun k hk => (mget_mmod_ne _ _ hk).trans (hothers k hk), ⟨F y, ?_, hkept.trans (hF y)⟩, hcores, hcore, hx,
    hmarks, hnot⟩
  simp only [getWarp] at hy
  simp only [getWarp, Machine.modWarp, mget_mmod_same, hy, Option.map_some]

theorem swrite (h : Writes A s c t) {n : Nat} (v : Word64) (hn : A.sreg n) : Writes A s c (swrite t c.g c.w n v) :=
  h.modWarp fun _ => Kept.setSreg v hn

theorem mwrite (h : Writes A s c t) {n : Nat} (v : Lanes) (hn : A.mreg n) : Writes A s c (mwrite t c.g c.w n v) :=
  h.modWarp fun _ => Kept.setMreg v hn

theorem raiseFlags (h : Writes A s c t) (fl : BitVec 5) (hf : A.flags) : Writes A s c (raiseFlags t c.g c.w fl) :=
  h.modWarp fun _ => Kept.raise fl hf

theorem vwrite (h : Writes A s c t) {n i : Nat} (v : Word32) (hi : i < 32) (hn : A.vec n i) : Writes A s c (vwrite t c.g c.w n i v) := by
  unfold Machine.vwrite
  split
  · exact h.modWarp fun _ => Kept.setVreg v hi hn
  · obtain ⟨⟨ws, cs, xs, m, ms, rfl⟩, hothers, ⟨y, hy, hkept⟩, hcores, hcore, ⟨l, hl, hmem⟩, hmarks, hnot⟩ := h
    rw [hy]
    refine ⟨⟨_, _, _, _, _, rfl⟩, hothers, ⟨y, hy, hkept⟩, hcores, hcore, ⟨_, (congrArg (· ++ _) hl).trans (List.append_assoc ..), ?_⟩,
      hmarks, hnot⟩
    intro x hx
    rcases List.mem_append.mp hx with hx | hx
    · exact hmem x hx
    · rw [List.mem_singleton.mp hx]
      exact ⟨rfl, rfl⟩

theorem vwrites (h : Writes A s c t) {rs : List (Nat × Nat × Word32)} (hrs : ∀ r ∈ rs, r.2.1 < 32 ∧ A.vec r.1 r.2.1) :
    Writes A s c (vwrites t c.g c.w rs) := by
  induction rs generalizing t with
  | nil => exact h
  | cons r rs ih =>
    obtain ⟨hi, hn⟩ := hrs r (List.mem_cons_self ..)
    exact ih (h.vwrite r.2.2 hi hn) fun q hq => hrs q (List.mem_cons_of_mem _ hq)

theorem applyLanes (h : Writes A s c t) {rs : List LaneRes} (hrs : ∀ r ∈ rs, ∀ q ∈ r.writes, q.2.1 < 32 ∧ A.vec q.1 q.2.1)
    (hf : A.flags) (hseed : ∀ r ∈ rs, A.seed r.lane) : Writes A s c (applyLanes t c rs) := by
  refine (h.vwrites fun q hq => ?_).modWarp fun y => ?_
  · obtain ⟨r, hr, hq⟩ := List.mem_flatMap.mp hq
    exact hrs r hr q hq
  · clear hrs
    induction rs generalizing y with
    | nil => exact Kept.refl A y
    | cons r rs ih =>
      rw [List.foldl_cons]
      exact ((Kept.setSeed r.st (hseed r (List.mem_cons_self ..))).trans (Kept.raise r.fl hf)).trans
        (ih (fun q hq => hseed q (List.mem_cons_of_mem _ hq)) _)

theorem drawFree (h : Writes A s c t) (n : Nat) : Writes A s c { t with freeCtr := n } := by
  obtain ⟨⟨ws, cs, xs, m, ms, rfl⟩, hothers, hwarp, hcores, hcore, hx, hmarks, hnot⟩ := h
  exact ⟨⟨_, _, _, _, _, rfl⟩, hothers, hwarp, hcores, hcore, hx, hmarks, hnot⟩

theorem barPlace (h : Writes A s c t) (ht : A.turn) (w : Nat) : Writes A s c (barPlace t c.g w) := by
  obtain ⟨⟨ws, cs, xs, m, ms, rfl⟩, hothers, hwarp, hcores, hcore, hx, hmarks, -⟩ := h
  exact ⟨⟨_, _, _, _, _, rfl⟩, hothers, hwarp, hcores, hcore, hx, fun k hk => (mget_mset_ne _ _ hk).trans (hmarks k hk), fun hnot => absurd ht hnot⟩

/-- A bank-lock span counts the instruction (08 R232). -/
theorem countSpan (h : Writes A s c t) (op : Op) (f : WarpWord) : Writes A s c (countSpan t c op f) := by
  have hspans (G : Core → List Span) : Writes A s c (modCore t c.wg.core (fun x => { x with spans := G x })) := by
    obtain ⟨⟨ws, cs, xs, m, ms, rfl⟩, hothers, hwarp, hcores, hcore, hx, hmarks, hnot⟩ := h
    refine ⟨⟨_, _, _, _, _, rfl⟩, hothers, hwarp, fun k hk => (mgetD_mput_ne _ _ _ _ hk).trans (hcores k hk), ?_, hx, hmarks, hnot⟩
    rw [getCore, modCore, mgetD_mput_same]
    exact hcore
  unfold Machine.countSpan
  by_cases hop : op = .banklock
  · rwa [if_pos hop]
  · rw [if_neg hop]
    by_cases hnone : (getCore t c.wg.core).spans.all (fun sp => sp.warp ≠ warpKey c.g c.w) = true
    · rwa [if_pos hnone]
    · rw [if_neg hnone]
      exact hspans fun _ => _

end Writes

/-- Moving past the word writes no register (04 R96, 08 R232). -/
theorem writes_past (A : Writable) {op : Op} {f : WarpWord} {s : State} {c : Ctx} (h : Ready op f s c) :
    Writes A s c (past op f s c) := by
  have hwarp : getWarp s c.g c.w = some c.warp := (CopyCommands.holds_of_ready h).2
  have hadv : Writes A s c (advance s c f) := by
    refine Writes.modWarp ⟨⟨_, _, _, _, _, rfl⟩, fun _ _ => rfl, ⟨_, hwarp, Kept.refl ..⟩, fun _ _ => rfl, rfl, ⟨[], by simp, by simp⟩,
      fun _ _ => rfl, fun _ => rfl⟩ fun y => ?_
    cases hb : y.bank with
    | none =>
      exact ⟨⟨fun _ _ _ _ => by simp [Warp.vreg, hb], fun _ _ => by simp [Warp.sreg, hb], fun _ _ => rfl, by simp [Warp.mask, hb],
        sameWarp_refl y⟩, fun _ => rfl, BitVec.and_self, fun _ => rfl, fun _ _ _ => rfl⟩
    | some b =>
      exact ⟨⟨fun _ _ _ _ => by simp [Warp.vreg, hb], fun _ _ => by simp [Warp.sreg, hb], fun _ _ => rfl, by simp [Warp.mask, hb],
        sameWarp_refl y⟩, fun _ => rfl, BitVec.and_self, fun _ => rfl, fun _ _ _ => rfl⟩
  exact hadv.countSpan op f

/-! ### Answers -/

/-- What an instruction of the register classes may write (02 R28, 03 R75, R78, 05 R117, R137, 08 R228). -/
def writable (op : Op) (f : WarpWord) (c : Ctx) : Writable where
  vec n i := n ∈ writeVecs op f ∧ c.p.getLsbD i = true
  sreg n := n ∈ fldSregs (shape op f).dst f.dst false
  mreg := masksWritten op f
  sf := op = .scmp
  flags := op ∈ fltOps
  seed i := op ∈ fltOps ∧ c.p.getLsbD i = true
  turn := op = .barQuery

/-- The instruction has its effect and writes no more than it may. -/
def Answers (op : Op) (f : WarpWord) (s : State) (c : Ctx) (o : Out) : Prop :=
  ∃ t, o = .next (clearIssuer t) ∧ Writes (writable op f c) s c t

section Runner
variable {op : Op} {f : WarpWord} {s : State} {c : Ctx} (h : Ready op f s c)
include h

theorem answers_runWord {eff : Ctx → State → State → Res} {t : State} (he : eff c s (past op f s c) = .done t)
    (hw : Writes (writable op f c) s c (past op f s c) → Writes (writable op f c) s c t) : Answers op f s c (runWord op f s eff) :=
  ⟨t, runWord_done h he, hw (writes_past _ h)⟩

end Runner

theorem mem_lanesOf {m : Lanes} {i : Nat} : i ∈ lanesOf m ↔ i < 32 ∧ m.getLsbD i = true := by
  simp [lanesOf]

section Vectors
variable {op : Op} {f : WarpWord} {c : Ctx} {n al : Nat}

/-- The registers of a destination of n registers may be written in the lanes of P. -/
theorem vec_writable (hdst : (shape op f).dst = .vec n al) {j i : Nat} (hj : j < n) (hi : i ∈ lanesOf c.p) :
    i < 32 ∧ (writable op f c).vec (f.dst.toNat + j) i := by
  obtain ⟨hlt, hp⟩ := mem_lanesOf.mp hi
  exact ⟨hlt, by simpa [writeVecs, hdst, fldVecs] using hj, hp⟩

/-- A value of k registers is written in registers 0 to k - 1 of its lane. -/
theorem mem_regWrites {d i k : Nat} {v : Word64} {q : Nat × Nat × Word32} (hq : q ∈ regWrites d i k v) :
    q.2.1 = i ∧ ∃ j, q.1 = d + j ∧ (j = 0 ∨ j < k) := by
  unfold regWrites at hq
  split at hq
  · next hk =>
    rcases List.mem_cons.mp hq with rfl | hq
    · exact ⟨rfl, 0, rfl, .inl rfl⟩
    · rw [List.mem_singleton.mp hq]
      exact ⟨rfl, 1, rfl, .inr (by omega)⟩
  · rw [List.mem_singleton.mp hq]
    exact ⟨rfl, 0, rfl, .inl rfl⟩

theorem regWrites_writable (hdst : (shape op f).dst = .vec n al) {i k : Nat} {v : Word64} (hk : k ≤ n) (hn : 0 < n) (hi : i ∈ lanesOf c.p)
    {q : Nat × Nat × Word32} (hq : q ∈ regWrites f.dst.toNat i k v) : q.2.1 < 32 ∧ (writable op f c).vec q.1 q.2.1 := by
  obtain ⟨hlane, j, hreg, hj⟩ := mem_regWrites hq
  rw [hlane, hreg]
  exact vec_writable hdst (by omega) hi

theorem vecWrite_writes {s t : State} (hdst : (shape op f).dst = .vec n al) {k : Nat} (hk : k ≤ n) (hn : 0 < n) (val : Nat → Word64)
    (h : Writes (writable op f c) s c t) : Writes (writable op f c) s c (vecWrite t c f k val) := by
  refine h.vwrites fun q hq => ?_
  obtain ⟨i, hi, hq⟩ := List.mem_flatMap.mp hq
  exact regWrites_writable hdst hk hn hi hq

end Vectors

theorem typeRegs_pos (t : Nat) : 0 < typeRegs t := by
  unfold typeRegs
  split <;> decide

/-! ### The integer-vector class -/

section Integer
variable {op : Op} {f : WarpWord} {s : State} {c : Ctx} {n al : Nat}

theorem runInt_wide (h : Ready op f s c) (hdst : (shape op f).dst = .vec (tn f) al) {val : Ctx → State → Nat → Word64} :
    Answers op f s c (runInt op f s (tn f) val) :=
  answers_runWord h rfl (vecWrite_writes hdst (Nat.le_refl _) (typeRegs_pos _) _)

theorem runInt2_wide (h : Ready op f s c) (hdst : (shape op f).dst = .vec (tn f) al) {val : Word64 → Word64 → Word64} :
    Answers op f s c (runInt2 op f s val) :=
  runInt_wide h hdst

theorem runInt_narrow (h : Ready op f s c) (hdst : (shape op f).dst = .vec n al) (hn : 0 < n) {val : Ctx → State → Nat → Word64} :
    Answers op f s c (runInt op f s 1 val) :=
  answers_runWord h rfl (vecWrite_writes hdst hn hn _)

/-- IADDC writes its sum and the carries in its mask register (05 R121). -/
theorem iaddc_answers (h : Ready .iaddc f s c) : Answers .iaddc f s c (execIaddc f s) :=
  answers_runWord h rfl fun hw => (vecWrite_writes (n := tn f) rfl (typeRegs_pos _) (typeRegs_pos _) _ hw).mwrite _ (.inr ⟨rfl, rfl⟩)

/-- A comparison writes a mask register, or a register in the lanes of P (05 R122, R128). -/
theorem writeCompare_writes {t : State} {toMask : Bool} (hdst : (shape op f).dst = if toMask = true then .mask else .vec 1 1)
    {out : Nat → Bool} (hw : Writes (writable op f c) s c t) : Writes (writable op f c) s c (writeCompare t c f toMask out) := by
  cases toMask with
  | true => exact hw.mwrite _ (.inl ⟨hdst, rfl⟩)
  | false => exact vecWrite_writes hdst (Nat.le_refl _) Nat.one_pos _ hw

theorem icmp_answers (h : Ready .icmp f s c) : Answers .icmp f s c (execIcmp f s) :=
  answers_runWord h rfl (writeCompare_writes (by simp only [shape, WarpRegisters.modBits_one_eq_one]))

end Integer

theorem intOps_answer : ∀ op ∈ intOps, ∀ f s c, Ready op f s c → Answers op f s c (exec (op.instr f) s) := by
  simp only [intOps, List.forall_mem_cons, List.not_mem_nil, false_implies, implies_true, and_true, Op.instr]
  exact ⟨fun f s c h => (runInt2_wide h rfl : Answers .iadd f s c (execIadd f s)),
    fun f s c h => (runInt2_wide h rfl : Answers .isub f s c (execIsub f s)),
    fun f s c h => iaddc_answers h,
    fun f s c h => (runInt2_wide h rfl : Answers .imul f s c (execImul f s)),
    fun f s c h => (runInt2_wide h rfl : Answers .imulh f s c (execImulh f s)),
    fun f s c h => (runInt_wide h rfl : Answers .imad f s c (execImad f s)),
    fun f s c h => (runInt2_wide h rfl : Answers .imin f s c (execImin f s)),
    fun f s c h => (runInt2_wide h rfl : Answers .imax f s c (execImax f s)),
    fun f s c h => (runInt2_wide h rfl : Answers .iabsd f s c (execIabsd f s)),
    fun f s c h => (runInt_wide h rfl : Answers .ishl f s c (execIshl f s)),
    fun f s c h => (runInt_wide h rfl : Answers .ishr f s c (execIshr f s)),
    fun f s c h => (runInt_wide h rfl : Answers .ishra f s c (execIshra f s)),
    fun f s c h => (runInt_narrow h rfl (typeRegs_pos _) : Answers .fshf f s c (execFshf f s)),
    fun f s c h => (runInt_wide h rfl : Answers .bool3 f s c (execBool3 f s)),
    fun f s c h => (runInt_wide h rfl : Answers .bfx f s c (execBfx f s)),
    fun f s c h => (runInt_wide h rfl : Answers .bfi f s c (execBfi f s)),
    fun f s c h => (runInt_narrow h rfl Nat.one_pos : Answers .clz f s c (execClz f s)),
    fun f s c h => (runInt_narrow h rfl Nat.one_pos : Answers .popc f s c (execPopc f s)),
    fun f s c h => (runInt_wide h rfl : Answers .brev f s c (execBrev f s)),
    fun f s c h => icmp_answers h,
    fun f s c h => (runInt_wide h rfl : Answers .sel f s c (execSel f s)),
    fun f s c h => (runInt_narrow h rfl (typeRegs_pos _) : Answers .idp4 f s c (execIdp4 f s)),
    fun f s c h => (runInt_wide h rfl : Answers .mov f s c (execMov f s)),
    fun f s c h => (runInt_wide h rfl : Answers .movi f s c (execMovi f s)),
    fun f s c h => (runInt_narrow h rfl (typeRegs_pos _) : Answers .bysel f s c (execBysel f s)),
    fun f s c h => (runInt_narrow h rfl Nat.one_pos : Answers .fclass f s c (execFclass f s))⟩

/-! ### The floating class and the conversions -/

section Floating
variable {op : Op} {f : WarpWord} {s : State} {c : Ctx} {n al : Nat}

/-- What lanes of P leave in the destination, in FPSTAT and in their SEED (03 R75, R78). -/
theorem lanes_writes {t : State} (hf : op ∈ fltOps) {res : Nat → LaneRes} (hlane : ∀ i, (res i).lane = i)
    (hwrites : ∀ i ∈ lanesOf c.p, ∀ q ∈ (res i).writes, q.2.1 < 32 ∧ (writable op f c).vec q.1 q.2.1)
    (hw : Writes (writable op f c) s c t) : Writes (writable op f c) s c (applyLanes t c ((lanesOf c.p).map res)) := by
  refine hw.applyLanes (fun r hr => ?_) hf fun r hr => ?_
  · obtain ⟨i, hi, rfl⟩ := List.mem_map.mp hr
    exact hwrites i hi
  · obtain ⟨i, hi, rfl⟩ := List.mem_map.mp hr
    exact ⟨hf, by rw [hlane]; exact (mem_lanesOf.mp hi).2⟩

variable (h : Ready op f s c)
include h

theorem runFlt_answers (hdst : (shape op f).dst = .vec (tn f) al) (hf : op ∈ fltOps) {fn : Ctx → State → Nat → Word32 → Rounded} :
    Answers op f s c (runFlt op f s fn) :=
  answers_runWord h rfl (lanes_writes hf (fun _ => rfl) fun _ hi _ => regWrites_writable hdst (Nat.le_refl _) (typeRegs_pos _) hi)

theorem runArith_answers {o : FOp} (hdst : (shape op f).dst = .vec (tn f) al) (hf : op ∈ fltOps) :
    Answers op f s c (runArith o op f s) :=
  runFlt_answers h hdst hf

theorem runApprox_answers (hdst : (shape op f).dst = .vec (tn f) al) (hf : op ∈ fltOps) {fn : Fmt → Bool → Nat → Nat → Nat × BitVec 5} :
    Answers op f s c (runApprox op f s fn) :=
  answers_runWord h rfl fun hw => lanes_writes hf (fun _ => rfl)
    (fun _ hi _ => regWrites_writable hdst (Nat.le_refl _) (typeRegs_pos _) hi) (hw.drawFree _)

end Floating

section Conversions
variable {f : WarpWord} {s : State} {c : Ctx}

theorem fcmp_answers (h : Ready .fcmp f s c) : Answers .fcmp f s c (execFcmp f s) :=
  answers_runWord h rfl fun hw =>
    (writeCompare_writes (by simp only [shape, WarpRegisters.modBits_one_eq_one]) hw).raiseFlags _ (show Op.fcmp ∈ fltOps by decide)

theorem pack_answers (h : Ready .pack f s c) : Answers .pack f s c (execPack f s) := by
  refine answers_runWord h rfl (lanes_writes (by decide) (fun _ => rfl) fun i hi q hq => ?_)
  rw [List.mem_singleton.mp hq]
  exact vec_writable (n := 1) rfl Nat.one_pos hi

theorem unpack_answers (h : Ready .unpack f s c) : Answers .unpack f s c (execUnpack f s) := by
  refine answers_runWord h rfl (lanes_writes (by decide) (fun _ => rfl) fun i hi q hq => ?_)
  obtain ⟨e, he, rfl⟩ := List.mem_map.mp hq
  obtain ⟨j, hj, rfl⟩ := List.mem_map.mp he
  exact vec_writable rfl (List.mem_range.mp hj) hi

theorem qblk_answers (h : Ready .qblk f s c) : Answers .qblk f s c (execQblk f s) := by
  refine answers_runWord h rfl (lanes_writes (by decide) (fun _ => rfl) fun i hi q hq => ?_)
  rcases List.mem_cons.mp hq with rfl | hq
  · exact vec_writable (n := 2) (j := 0) rfl (by decide) hi
  · rw [List.mem_singleton.mp hq]
    exact vec_writable (n := 2) (j := 1) rfl (by decide) hi

/-- A scan has a result for each of its lanes (04 R113). -/
theorem scanRun_lanes (op ty : Nat) (vs : List (Nat × Word32)) : (scanRun op ty vs).1.map (·.1) = vs.map (·.1) := by
  unfold scanRun
  induction vs using List.reverseRecOn with
  | nil => rfl
  | append_singleton vs v ih => simpa [List.foldl_append] using ih

theorem lscan_answers (h : Ready .lscan f s c) : Answers .lscan f s c (execLscan f s) := by
  refine answers_runWord h rfl fun hw => (hw.vwrites fun q hq => ?_).raiseFlags _ (show Op.lscan ∈ fltOps by decide)
  obtain ⟨x, hx, rfl⟩ := List.mem_map.mp hq
  have hlane : x.1 ∈ lanesOf c.p := by simpa [scanRun_lanes] using List.mem_map_of_mem (f := (·.1)) hx
  exact vec_writable (n := 1) rfl Nat.one_pos hlane

theorem lred_answers (h : Ready .lred f s c) : Answers .lred f s c (execLred f s) := by
  refine answers_runWord h rfl fun hw => (hw.vwrites fun q hq => ?_).raiseFlags _ (show Op.lred ∈ fltOps by decide)
  obtain ⟨i, hi, rfl⟩ := List.mem_map.mp hq
  exact vec_writable (n := 1) rfl Nat.one_pos hi

end Conversions

theorem fltOps_answer : ∀ op ∈ fltOps, ∀ f s c, Ready op f s c → Answers op f s c (exec (op.instr f) s) := by
  simp only [fltOps, List.forall_mem_cons, List.not_mem_nil, false_implies, implies_true, and_true, Op.instr]
  exact ⟨fun f s c h => (runArith_answers h rfl (by decide) : Answers .fadd f s c (execFadd f s)),
    fun f s c h => (runArith_answers h rfl (by decide) : Answers .fsub f s c (execFsub f s)),
    fun f s c h => (runArith_answers h rfl (by decide) : Answers .fmul f s c (execFmul f s)),
    fun f s c h => (runFlt_answers h rfl (by decide) : Answers .ffma f s c (execFfma f s)),
    fun f s c h => (runFlt_answers h rfl (by decide) : Answers .fmin f s c (execFmin f s)),
    fun f s c h => (runFlt_answers h rfl (by decide) : Answers .fmax f s c (execFmax f s)),
    fun f s c h => fcmp_answers h,
    fun f s c h => (runFlt_answers h rfl (by decide) : Answers .frcp f s c (execFrcp f s)),
    fun f s c h => (runApprox_answers h rfl (by decide) : Answers .frsq f s c (execFrsq f s)),
    fun f s c h => (runFlt_answers h rfl (by decide) : Answers .fsqrt f s c (execFsqrt f s)),
    fun f s c h => (runFlt_answers h rfl (by decide) : Answers .fdiv f s c (execFdiv f s)),
    fun f s c h => (runApprox_answers h rfl (by decide) : Answers .fexp2 f s c (execFexp2 f s)),
    fun f s c h => (runApprox_answers h rfl (by decide) : Answers .flog2 f s c (execFlog2 f s)),
    fun f s c h => (runApprox_answers h rfl (by decide) : Answers .fsinpi f s c (execFsinpi f s)),
    fun f s c h => (runApprox_answers h rfl (by decide) : Answers .fcospi f s c (execFcospi f s)),
    fun f s c h => (runApprox_answers h rfl (by decide) : Answers .ftanh f s c (execFtanh f s)),
    fun f s c h => (runFlt_answers h rfl (by decide) : Answers .frnd f s c (execFrnd f s)),
    fun f s c h => (runFlt_answers h rfl (by decide) : Answers .fscale f s c (execFscale f s)),
    fun f s c h => (runFlt_answers h rfl (by decide) : Answers .cvt f s c (execCvt f s)),
    fun f s c h => pack_answers h,
    fun f s c h => unpack_answers h,
    fun f s c h => qblk_answers h,
    fun f s c h => lscan_answers h,
    fun f s c h => lred_answers h⟩

/-! ### The scalar class -/

section Scalar
variable {op : Op} {f : WarpWord} {s : State} {c : Ctx}

theorem sreg_writable (hdst : (shape op f).dst = .sreg) : (writable op f c).sreg f.dst.toNat := by
  simp [writable, hdst, fldSregs]

theorem runSca_answers (h : Ready op f s c) (hdst : (shape op f).dst = .sreg) {val : Ctx → Word64 → Word64 → Word64} :
    Answers op f s c (runSca op f s val) :=
  answers_runWord h rfl fun hw => hw.swrite _ (sreg_writable hdst)

theorem scmp_answers (h : Ready .scmp f s c) : Answers .scmp f s c (execScmp f s) :=
  answers_runWord h rfl fun hw => (hw.swrite _ (sreg_writable rfl)).modWarp fun _ => Kept.setSf _ rfl

theorem v2s_answers (h : Ready .v2s f s c) : Answers .v2s f s c (execV2s f s) :=
  answers_runWord h rfl fun hw => hw.swrite _ (sreg_writable rfl)

end Scalar

theorem scaOps_answer : ∀ op ∈ scaOps, ∀ f s c, Ready op f s c → Answers op f s c (exec (op.instr f) s) := by
  simp only [scaOps, List.forall_mem_cons, List.not_mem_nil, false_implies, implies_true, and_true, Op.instr]
  exact ⟨fun f s c h => (runSca_answers h rfl : Answers .sadd f s c (execSadd f s)),
    fun f s c h => (runSca_answers h rfl : Answers .ssub f s c (execSsub f s)),
    fun f s c h => (runSca_answers h rfl : Answers .smul f s c (execSmul f s)),
    fun f s c h => (runSca_answers h rfl : Answers .smulh f s c (execSmulh f s)),
    fun f s c h => (runSca_answers h rfl : Answers .sand f s c (execSand f s)),
    fun f s c h => (runSca_answers h rfl : Answers .sor f s c (execSor f s)),
    fun f s c h => (runSca_answers h rfl : Answers .sxor f s c (execSxor f s)),
    fun f s c h => (runSca_answers h rfl : Answers .sshl f s c (execSshl f s)),
    fun f s c h => (runSca_answers h rfl : Answers .sshr f s c (execSshr f s)),
    fun f s c h => (runSca_answers h rfl : Answers .sshra f s c (execSshra f s)),
    fun f s c h => (runSca_answers h rfl : Answers .smin f s c (execSmin f s)),
    fun f s c h => (runSca_answers h rfl : Answers .smax f s c (execSmax f s)),
    fun f s c h => scmp_answers h,
    fun f s c h => (runSca_answers h rfl : Answers .ssel f s c (execSsel f s)),
    fun f s c h => (runSca_answers h rfl : Answers .smov f s c (execSmov f s)),
    fun f s c h => (runSca_answers h rfl : Answers .sli f s c (execSli f s)),
    fun f s c h => (runSca_answers h rfl : Answers .sbfx f s c (execSbfx f s)),
    fun f s c h => (runSca_answers h rfl : Answers .sclz f s c (execSclz f s)),
    fun f s c h => (runSca_answers h rfl : Answers .spopc f s c (execSpopc f s)),
    fun f s c h => v2s_answers h⟩

/-! ### Masks, cross-lane moves and reads of state -/

section Masks
variable {f : WarpWord} {s : State} {c : Ctx}

theorem nop_answers (h : Ready .nop f s c) : Answers .nop f s c (execNop f s) := answers_runWord h rfl id

theorem ballot_answers (h : Ready .ballot f s c) : Answers .ballot f s c (execBallot f s) :=
  answers_runWord h rfl fun hw => hw.mwrite _ (.inl ⟨rfl, rfl⟩)

theorem vote_answers (h : Ready .vote f s c) : Answers .vote f s c (execVote f s) :=
  answers_runWord h rfl fun hw => hw.mwrite _ (.inl ⟨rfl, rfl⟩)

theorem mskOp_answers (h : Ready .mskOp f s c) : Answers .mskOp f s c (execMskOp f s) :=
  answers_runWord h rfl fun hw => hw.mwrite _ (.inl ⟨rfl, rfl⟩)

theorem mskSave_answers (h : Ready .mskSave f s c) : Answers .mskSave f s c (execMskSave f s) :=
  answers_runWord h rfl fun hw => hw.mwrite _ (.inl ⟨rfl, rfl⟩)

theorem leader_answers (h : Ready .leader f s c) : Answers .leader f s c (execLeader f s) :=
  answers_runWord h rfl fun hw => hw.mwrite _ (.inl ⟨rfl, rfl⟩)

theorem popcM_answers (h : Ready .popcM f s c) : Answers .popcM f s c (execPopcM f s) :=
  answers_runWord h rfl fun hw => hw.swrite _ (sreg_writable rfl)

theorem firstM_answers (h : Ready .firstM f s c) : Answers .firstM f s c (execFirstM f s) :=
  answers_runWord h rfl fun hw => hw.swrite _ (sreg_writable rfl)

theorem padq_answers (h : Ready .padq f s c) : Answers .padq f s c (execPadq f s) :=
  answers_runWord h rfl fun hw => hw.swrite _ (sreg_writable rfl)

theorem tlread_answers (h : Ready .tlread f s c) : Answers .tlread f s c (execTlread f s) :=
  answers_runWord h rfl fun hw => hw.swrite _ (sreg_writable rfl)

/-- A barrier operation in its turn takes its place among the workgroup's (08 R228). -/
theorem runBar_done (h : Ready .barQuery f s c) (hturn : barTurn s c.g c.w = true) {eff : Ctx → State → State → Res} {t : State}
    (he : eff c s (barPlace (past .barQuery f s c) c.g c.w) = .done t)
    (hw : Writes (writable .barQuery f c) s c (barPlace (past .barQuery f s c) c.g c.w) → Writes (writable .barQuery f c) s c t) :
    Answers .barQuery f s c (runBar .barQuery f s eff) :=
  answers_runWord h ((if_pos hturn).trans he) fun hp => hw (hp.barPlace rfl c.w)

theorem barQuery_answers (h : Ready .barQuery f s c) (hturn : barTurn s c.g c.w = true) : Answers .barQuery f s c (execBarQuery f s) :=
  runBar_done h hturn rfl fun hw => hw.swrite _ (sreg_writable rfl)

theorem shfl_answers (h : Ready .shfl f s c) : Answers .shfl f s c (execShfl f s) := by
  refine answers_runWord h rfl fun hw => hw.vwrites fun q hq => ?_
  obtain ⟨i, hi, rfl⟩ := List.mem_map.mp hq
  exact vec_writable (n := 1) rfl Nat.one_pos hi

theorem bcast_answers (h : Ready .bcast f s c) : Answers .bcast f s c (execBcast f s) := by
  refine answers_runWord h rfl fun hw => hw.vwrites fun q hq => ?_
  obtain ⟨i, hi, rfl⟩ := List.mem_map.mp hq
  exact vec_writable (n := 1) rfl Nat.one_pos hi

theorem dqblk_answers (h : Ready .dqblk f s c) : Answers .dqblk f s c (execDqblk f s) := by
  refine answers_runWord h rfl fun hw => hw.vwrites fun q hq => ?_
  obtain ⟨i, hi, hq⟩ := List.mem_flatMap.mp hq
  obtain ⟨j, hj, rfl⟩ := List.mem_map.mp hq
  exact vec_writable rfl (List.mem_range.mp hj) hi

/-- GETSR writes an s-register, or one register, or CLOCK's two, in each lane of P (04 R114). -/
theorem getsr_answers (h : Ready .getsr f s c) : Answers .getsr f s c (execGetsr f s) := by
  have hshape : (shape .getsr f).dst = if modBits f 0 1 = 1 then .sreg
      else .vec (if f.a.toNat = 0x0E then 2 else 1) (if f.a.toNat = 0x0E then 2 else 1) := by simp only [shape]
  by_cases hm : modBits f 0 1 = 1
  · rw [if_pos hm] at hshape
    exact answers_runWord h (if_pos hm) fun hw => hw.swrite _ (sreg_writable hshape)
  · rw [if_neg hm] at hshape
    refine answers_runWord h (if_neg hm) fun hw => hw.vwrites fun q hq => ?_
    obtain ⟨i, hi, hq⟩ := List.mem_flatMap.mp hq
    exact regWrites_writable hshape (Nat.le_refl _) (by split <;> decide) hi hq

end Masks

theorem maskOps_answer : ∀ op ∈ maskOps, ∀ f s c, Ready op f s c → (op = .barQuery → barTurn s c.g c.w = true) →
    Answers op f s c (exec (op.instr f) s) := by
  simp only [maskOps, List.forall_mem_cons, List.not_mem_nil, false_implies, implies_true, and_true, Op.instr]
  exact ⟨fun f s c h _ => nop_answers h,
    fun f s c h _ => ballot_answers h,
    fun f s c h _ => vote_answers h,
    fun f s c h _ => mskOp_answers h,
    fun f s c h _ => mskSave_answers h,
    fun f s c h _ => popcM_answers h,
    fun f s c h _ => firstM_answers h,
    fun f s c h _ => leader_answers h,
    fun f s c h _ => shfl_answers h,
    fun f s c h _ => bcast_answers h,
    fun f s c h _ => getsr_answers h,
    fun f s c h _ => dqblk_answers h,
    fun f s c h _ => padq_answers h,
    fun f s c h hturn => barQuery_answers h (hturn trivial),
    fun f s c h _ => tlread_answers h⟩

/-! ### The frame -/

theorem answers_of_mem {op : Op} {f : WarpWord} {s : State} {c : Ctx} (hop : op ∈ intOps ++ fltOps ++ scaOps ++ maskOps)
    (h : Ready op f s c) (hturn : op = .barQuery → barTurn s c.g c.w = true) : Answers op f s c (exec (op.instr f) s) := by
  simp only [List.mem_append] at hop
  rcases hop with ((hop | hop) | hop) | hop
  · exact intOps_answer op hop f s c h
  · exact fltOps_answer op hop f s c h
  · exact scaOps_answer op hop f s c h
  · exact maskOps_answer op hop f s c h hturn

/-- Settles O59: every instruction of the classes answers a state that only its own writes tell from the one before. -/
theorem registerClassFrame : Obligations.RegisterClassFrame := by
  intro op f s c hop h hturn
  obtain ⟨t, hexec, ⟨ws, cs, xs, n, ms, rfl⟩, hothers, ⟨y, hy, hkept⟩, hcores, hcore, hx, hmarks, hnoturn⟩ := answers_of_mem hop h hturn
  exact ⟨_, y, hexec, rfl, hy, fun _ => rfl, ⟨hothers, hcores, hcore, hx, hmarks, rfl⟩, hkept.frame, hnoturn, hkept.sf, hkept.gains,
    hkept.fpstat, fun i hi hnot => hkept.seed i hi fun hs => hnot.elim (absurd hs.1) fun hp => by simp [hs.2] at hp⟩

end Sys2Proof.RegisterFrame
end

section
/-!
SUPPORT. Every step keeps memory in its canonical form (O56, log 1). For each function of the model that gives a state there is one
lemma, `<function>_wf`, in the order of the model's files: from memory in the form it leads to memory in the form. The functions
that write memory themselves are those of Laws/Maps and a few here (`updateL1`, `frameLine`, `moveBytes`, `replaceCells`,
`resetAll`), which store cells, copy ranges or drop cells; every other function is put together from those with lemmas before it, so
that its lemma follows its branches and cites theirs. Functions that recur are taken by induction on what they recur on, folds by
`foldl_wf`, and instructions of the warp word by `runWord_wf`, which asks only for what the effect does.
-/

namespace Sys2Proof.CanonicalMemory
open Sys2Proof.Machine

/-! ### The form, in what functions of the model answer -/

/-- The next state that an answer holds has memory in its canonical form. -/
def OutForm : Out → Prop
  | .next t => Memory.wf t.mem = true
  | _ => True

/-- So has the state that an effect answers with. -/
def ResForm : Res → Prop
  | .done t | .hold t | .trapOn t _ => Memory.wf t.mem = true
  | _ => True

/-- So has the state of a check of lanes that waits. -/
def CheckedForm : Checked → Prop
  | .hold t => Memory.wf t.mem = true
  | _ => True

/-- So has the state that a fetch leaves. -/
def FetchedForm : Fetched → Prop
  | .ok _ s | .part _ _ s | .trap _ s | .hold s => Memory.wf s.mem = true
  | .stop => True

/-- So has the state of a control slot that waits. -/
def CtlForm : CtlRes → Prop
  | .hold t => Memory.wf t.mem = true
  | _ => True

/-- So have the states that the run of a command's units ends in. -/
def RunForm : Run → Prop
  | .finished t _ | .faulted t _ _ _ _ _ => Memory.wf t.mem = true
  | _ => True

/-- So have the states that an issue slot ends in. -/
def SlotForm : Slot → Prop
  | .idle t => Memory.wf t.mem = true
  | .issued _ _ s t => Memory.wf s.mem = true ∧ Memory.wf t.mem = true
  | .stop o => OutForm o

/-- A state that may be missing. -/
def OptForm : Option State → Prop
  | some t => Memory.wf t.mem = true
  | none => True

/-- A state with a number, that may be missing. -/
def OptFstForm : Option (State × Nat) → Prop
  | some (t, _) => Memory.wf t.mem = true
  | none => True

/-- An answer that may be missing. -/
def OptOutForm : Option Out → Prop
  | some o => OutForm o
  | none => True

/-- A state, or what keeps a move from being made. -/
def ExForm : Except Bad State → Prop
  | .ok t => Memory.wf t.mem = true
  | .error _ => True

/-- A state with a command, or what keeps the command from starting. -/
def ExFstForm : Except Bad (State × Copy) → Prop
  | .ok (t, _) => Memory.wf t.mem = true
  | .error _ => True

/-- A fold of updates that keep the form keeps it. -/
theorem foldl_wf {α : Type} {f : State → α → State} (hf : ∀ s a, Memory.wf s.mem = true → Memory.wf (f s a).mem = true)
    {s : State} (h : Memory.wf s.mem = true) (l : List α) : Memory.wf (l.foldl f s).mem = true := by
  induction l generalizing s with
  | nil => exact h
  | cons a t ih => exact ih (hf s a h)

section
-- One theorem after another: each cites those before it, and would else hold a thread until they are checked.
set_option Elab.async false
variable {s : State} (h : Memory.wf s.mem = true)
include h

/-! ### Maps (Machine/Maps) -/

theorem freshFree_wf : Memory.wf (freshFree s).2.mem = true := by
  unfold freshFree
  grind -ring -linarith

theorem takePlace_wf (cls place : Nat) : Memory.wf (takePlace s cls place).mem = true := h

/-! ### Memory, its slices and the caches (Machine/Memory) -/

theorem fireMsix_wf (v : Nat) : Memory.wf (fireMsix s v).mem = true := h

theorem lowerLine_wf (k : Nat) : Memory.wf (lowerLine s k).mem = true := by
  unfold lowerLine
  (repeat' split) <;> exact h

theorem askAll_wf (ks : List Nat) : Memory.wf (askAll s ks).mem = true := by
  unfold askAll
  grind -ring -linarith [askLine_wf, foldl_wf]

theorem askRange_wf (k n : Nat) : Memory.wf (askRange s k n).mem = true := by
  unfold askRange
  grind -ring -linarith [askLine_wf, foldl_wf]

theorem walkAsks_wf (va n table : Nat) : Memory.wf (walkAsks s va n table).mem = true := by
  induction n generalizing s table with
  | zero => exact h
  | succ n ih => unfold walkAsks; grind -ring -linarith [askLine_wf]

theorem walkReads_wf (asid va : Nat) : Memory.wf (walkReads s asid va).mem = true := by
  unfold walkReads
  grind -ring -linarith [walkAsks_wf]

theorem requestWalk_wf (core asid who va : Nat) : Memory.wf (requestWalk s core asid who va).mem = true := by
  unfold requestWalk
  (repeat' split) <;> exact h

theorem dropFailed_wf (who : Nat) : Memory.wf (dropFailed s who).mem = true := h

/-! ### Admission of requests to peers (Machine/Admission) -/

theorem modLink_wf (i : Nat) (f : Link → Link) : Memory.wf (modLink s i f).mem = true := h

theorem grantOne_wf (i : Nat) : Memory.wf (grantOne s i).mem = true := h

theorem grantAll_wf (n : Nat) : Memory.wf (grantAll n s).mem = true := by
  induction n generalizing s with
  | zero => exact h
  | succ n ih => unfold grantAll; grind -ring -linarith [grantOne_wf]

theorem admitReq_wf (link tag bytes : Nat) : Memory.wf (admitReq s link tag bytes).mem = true := by
  unfold admitReq
  grind -ring -linarith [modLink_wf, grantAll_wf]

theorem askAdmission_wf (r : PeerReq) : Memory.wf (askAdmission s r).mem = true := by
  unfold askAdmission
  grind -ring -linarith [modLink_wf, admitReq_wf]

theorem askPeer_wf (acc agent links k bytes back : Nat) : Memory.wf (askPeer s acc agent links k bytes back).mem = true := by
  unfold askPeer
  grind -ring -linarith [askAdmission_wf]

theorem endReq_wf (r : PeerReq) : Memory.wf (endReq s r).mem = true := by
  unfold endReq
  grind -ring -linarith [modLink_wf, observe_mem]

theorem endAccess_wf (acc : Nat) : Memory.wf (endAccess s acc).mem = true := by
  unfold endAccess
  grind -ring -linarith [endReq_wf, foldl_wf]

/-! ### Registers (Machine/Regs) -/

theorem xland_wf (p : XWrite → Bool) : Memory.wf (xland s p).mem = true := by
  unfold xland
  grind -ring -linarith [xwrite_mem, foldl_wf]

theorem xissue_wf (latency : Nat) : Memory.wf (xissue s latency).mem = true := by
  unfold xissue
  (repeat' split) <;> exact h

theorem xdue_wf : Memory.wf (xdue s).mem = true := by
  unfold xdue
  grind -ring -linarith [xland_wf]

theorem vlands_wf (g w : Nat) (rs : List (Nat × Nat × Word32)) : Memory.wf (vlands s g w rs).mem = true := by
  unfold vlands
  grind -ring -linarith [xdue_wf, vwrites_mem]

theorem askFrag_wf (g w e : Nat) : Memory.wf (askFrag s g w e).mem = true := h

/-! ### Warps, workgroups and what ends them (Machine/Groups) -/

theorem modRegion_wf (rnum : Nat) (f : Region → Region) : Memory.wf (modRegion s rnum f).mem = true := h

theorem modNode_wf (rnum node : Nat) (f : Node → Node) : Memory.wf (modNode s rnum node f).mem = true := h

theorem leaveNear_wf (core lg : Nat) : Memory.wf (leaveNear s core lg).mem = true := by
  unfold leaveNear
  (repeat' split) <;> exact h

theorem acquire_wf (core : Nat) : Memory.wf (acquire s core).mem = true := by
  unfold acquire
  grind -ring -linarith [dropL1_wf]

theorem deliver_wf (g w : Nat) (anvil : Bool) (pick : Summary → Bool) : Memory.wf (deliver s g w anvil pick).mem = true := by
  unfold deliver
  (repeat' split) <;> exact h

theorem takeGranules_wf (g w n : Nat) : Memory.wf (takeGranules s g w n).mem = true := by
  unfold takeGranules
  (repeat' split) <;> exact h

theorem wakeEffect_wf (g w core : Nat) (wt : Wait) : Memory.wf (wakeEffect s g w core wt).mem = true := by
  unfold wakeEffect
  grind -ring -linarith [deliver_wf, acquire_wf, swrite_mem, takeGranules_wf]

theorem wakeFrag_wf (g w e : Nat) : Memory.wf (wakeFrag s g w e).mem = true := by
  unfold wakeFrag
  grind -ring -linarith [setWarp_mem, wakeEffect_wf]

theorem settleBars_wf (g w : Nat) : Memory.wf (settleBars s g w).mem = true := by
  unfold settleBars
  (repeat' split) <;> exact h

theorem wakeWarp_wf (g w : Nat) : Memory.wf (wakeWarp s g w).mem = true := by
  unfold wakeWarp
  grind -ring -linarith [settleBars_wf, wakeEffect_wf, setWarp_mem, wakeFrag_wf, foldl_wf]

theorem queueParked_wf (g : Nat) : Memory.wf (queueParked s g).mem = true := by
  unfold queueParked
  (repeat' split) <;> exact h

theorem wakeWg_wf (g : Nat) : Memory.wf (wakeWg s g).mem = true := by
  unfold wakeWg
  grind -ring -linarith [queueParked_wf, wakeWarp_wf, foldl_wf]

theorem wakeAll_wf : Memory.wf (wakeAll s).mem = true := by
  unfold wakeAll
  grind -ring -linarith [wakeWg_wf, foldl_wf]

theorem postNotify_wf (j : Nat) (v : Word64) (add : Bool) : Memory.wf (postNotify s j v add).mem = true := by
  unfold postNotify
  grind -ring -linarith [wakeAll_wf]

theorem reportFault_wf (rnum : Nat) : Memory.wf (reportFault s rnum).mem = true := by
  unfold reportFault
  grind -ring -linarith [postNotify_wf]

theorem writeFaultRec_wf (stack : Nat) (r : FaultRec) : Memory.wf (writeFaultRec s stack r).mem = true := by
  unfold writeFaultRec
  grind -ring -linarith [freeze_mem, fireMsix_wf]

theorem storeFault_wf (x : Wg) (type aux cause : Nat) (pc faddr : Word64) (w : Nat) :
    Memory.wf (storeFault s x type aux cause pc faddr w).mem = true := by
  unfold storeFault
  grind -ring -linarith [reportFault_wf, writeFaultRec_wf]

theorem barPlace_wf (g w : Nat) : Memory.wf (barPlace s g w).mem = true := h

theorem withdrawAll_wf (g w : Nat) : Memory.wf (withdrawAll s g w).mem = true := by
  unfold withdrawAll
  grind -ring -linarith [barPlace_wf, wakeWg_wf, modWg_mem, foldl_wf]

theorem handOver_wf (p side : Nat) (r : LicReq) : Memory.wf (handOver s p side r).mem = true := h

theorem freeLic_wf (p side : Nat) : Memory.wf (freeLic s p side).mem = true := by
  unfold freeLic
  (repeat' split) <;> exact h

theorem licSettle_wf (p : Nat) : Memory.wf (licSettle s p).mem = true := by
  unfold licSettle
  grind -ring -linarith [freeLic_wf]

theorem raiseReq_wf (g : Nat) (pinned urgent engine : Bool) : Memory.wf (raiseReq s g pinned urgent engine).mem = true := by
  unfold raiseReq
  grind -ring -linarith [takePlace_wf, handOver_wf, modPair_mem]

theorem withdrawReq_wf (g : Nat) : Memory.wf (withdrawReq s g).mem = true := by
  unfold withdrawReq
  (repeat' split) <;> exact h

theorem releaseLic_wf (g : Nat) : Memory.wf (releaseLic s g).mem = true := by
  unfold releaseLic
  grind -ring -linarith [withdrawReq_wf, licSettle_wf, modPair_mem]

theorem endLic_wf (g : Nat) : Memory.wf (endLic s g).mem = true := by
  unfold endLic
  grind -ring -linarith [modPair_mem, releaseLic_wf]

theorem askPieces_wf (core asid who : Nat) (ps : List (Nat × Nat)) : Memory.wf (askPieces s core asid who ps).mem = true := by
  unfold askPieces
  grind -ring -linarith [askPeer_wf, requestWalk_wf, lampJoin_wf, foldl_wf]

theorem pieceDone_wf (who : Nat) : Memory.wf (pieceDone s who).mem = true := by
  unfold pieceDone
  grind -ring -linarith [lampLeave_wf, endAccess_wf, dropFailed_wf]

theorem contextWrite_wf (asid va : Nat) (bs : List Byte) : Memory.wf (contextWrite s asid va bs).mem = true := by
  unfold contextWrite
  grind -ring -linarith [pocWrite_wf, touchAll_wf]

theorem formAll_wf : Memory.wf (formAll s).mem = true := h

theorem writeAborted_wf (asid addr : Nat) : Memory.wf (writeAborted s asid addr).mem = true := by
  unfold writeAborted
  grind -ring -linarith [contextWrite_wf]

theorem abortRecs_wf (asid rnum node addr n : Nat) : Memory.wf (abortRecs s asid rnum node addr n).mem = true := by
  unfold abortRecs
  grind -ring -linarith [modNode_wf, writeAborted_wf, foldl_wf]

theorem endLaunch_wf (x : Wg) : Memory.wf (endLaunch s x).mem = true := by
  unfold endLaunch
  grind -ring -linarith [modNode_wf, foldl_wf]

theorem unlatch_wf (g w : Nat) : Memory.wf (unlatch s g w).mem = true := h

theorem dropWarp_wf (g w : Nat) : Memory.wf (dropWarp s g w).mem = true := by
  unfold dropWarp
  grind -ring -linarith [modCore_mem, modLg_mem, unlatch_wf, modWg_mem, withdrawAll_wf, foldl_wf]

theorem abortAll_wf (g : Nat) (x : Wg) : Memory.wf (abortAll s g x).mem = true := by
  unfold abortAll
  grind -ring -linarith [abortRecs_wf, modWg_mem, askPieces_wf, foldl_wf]

theorem removeWg_wf (g : Nat) (x : Wg) : Memory.wf (removeWg s g x).mem = true := by
  unfold removeWg
  grind -ring -linarith [storeFault_wf, modCore_mem, modPair_mem]

theorem reapEnded_wf (g : Nat) : Memory.wf (reapEnded s g).mem = true := by
  unfold reapEnded
  grind -ring -linarith [abortAll_wf, removeWg_wf, pieceDone_wf]

theorem reapWg_wf (g : Nat) : Memory.wf (reapWg s g).mem = true := by
  unfold reapWg
  grind -ring -linarith [reapEnded_wf, dropWarp_wf, modCore_mem, endLaunch_wf, modWg_mem, releaseLic_wf, storeFault_wf,
    foldl_wf]

theorem reapAll_wf : Memory.wf (reapAll s).mem = true := by
  unfold reapAll
  grind -ring -linarith [reapWg_wf, foldl_wf]

theorem settleEnds_wf : Memory.wf (settleEnds s).mem = true := by
  unfold settleEnds
  grind -ring -linarith [reapAll_wf]

theorem endWg_wf (g : Nat) : Memory.wf (endWg s g).mem = true := by
  unfold endWg
  grind -ring -linarith [modWg_mem, endLaunch_wf, abortAll_wf, reapWg_wf, endLic_wf]

theorem endWarp_wf (g w : Nat) : Memory.wf (endWarp s g w).mem = true := by
  unfold endWarp
  grind -ring -linarith [dropWarp_wf, endWg_wf]

theorem killWg_wf (g w type aux cause : Nat) (pc faddr : Word64) :
    Memory.wf (killWg s g w type aux cause pc faddr).mem = true := by
  unfold killWg
  grind -ring -linarith [modWg_mem, reapAll_wf]

theorem refuse_wf (g w : Nat) : Memory.wf (refuse s g w).mem = true := h

/-! ### Accesses of lanes, and those pending (Machine/Access) -/

theorem checkLanes_wf (a : Agent) (space n : Nat) (need : Need) (swap : Bool) (ls : List (Nat × Word64)) :
    CheckedForm (checkLanes s a space n need swap ls) := by
  unfold checkLanes
  simp only
  repeat' split
  all_goals first
    | trivial
    | exact h
    | exact lampJoin_wf _ h _ _
    | exact foldl_wf (fun _ _ h => requestWalk_wf h ..) h _

theorem touchPlaces_wf (a : Agent) (ps : List Place) : Memory.wf (touchPlaces s a ps).mem = true := by
  unfold touchPlaces
  grind -ring -linarith [touchAll_wf, lampLeave_wf]

theorem updateL1_wf (core : Nat) (cs : List Host.Cell) : Memory.wf (updateL1 s core cs).mem = true :=
  wf_writeCells _ _ h

theorem issueStore_wf (core g w : Nat) (how : StoreAs) (cs : List Host.Cell) :
    Memory.wf (issueStore s core g w how cs).mem = true := by
  unfold issueStore
  grind -ring -linarith [dropL1_wf, updateL1_wf]

theorem askPeers_wf (acc agent : Nat) (write : Bool) (ps : List Place) :
    Memory.wf (askPeers s acc agent write ps).mem = true := by
  unfold askPeers
  grind -ring -linarith [askPeer_wf, foldl_wf]

theorem issueStores_wf (core g w n : Nat) (how : StoreAs) (ps : List Place) (data : Nat → Nat) :
    Memory.wf (issueStores s core g w n how ps data).mem = true := by
  unfold issueStores
  grind -ring -linarith [askPeers_wf, issueStore_wf, foldl_wf]

theorem tokenDone_wf (g w : Nat) (t : Option Nat) : Memory.wf (tokenDone s g w t).mem = true := by
  unfold tokenDone
  (repeat' split) <;> exact h

theorem dropStore_wf (id : Nat) : Memory.wf (dropStore s id).mem = true := h

theorem clearWhole_wf (e : Store) : Memory.wf (clearWhole s e).mem = true := h

theorem joinLines_wf (s0 : State) (e : Store) : Memory.wf (joinLines s0 s e).mem = true := by
  unfold joinLines
  grind -ring -linarith [lowerLine_wf, foldl_wf]

theorem performStore_wf (e : Store) : Memory.wf (performStore s e).mem = true := by
  unfold performStore
  grind -ring -linarith [dropStore_wf, pocWriteAs_wf, touchAll_wf, tokenDone_wf, clearWhole_wf, joinLines_wf, writeBack_wf,
    countAsk_mem]

theorem addLate_wf (g w : Nat) (l : Late) : Memory.wf (addLate s g w l).mem = true := h

theorem atomLate_wf (a : Atom) : Memory.wf (atomLate s a).mem = true := h

theorem applyAtom_wf (a : Atom) : Memory.wf (applyAtom s a).mem = true := by
  unfold applyAtom
  grind -ring -linarith [touchAll_wf, atomLate_wf, askLine_wf, pocWriteAs_wf, dropL1_wf, vlands_wf, acquire_wf]

theorem faultLoad_wf (l : Load) (bad : List (Nat × Nat)) (cause sub : Nat) :
    Memory.wf (faultLoad s l bad cause sub).mem = true := by
  unfold faultLoad
  grind -ring -linarith [vlands_wf, addLate_wf, tokenDone_wf]

theorem landLoad_wf (l : Load) : Memory.wf (landLoad s l).mem = true := by
  unfold landLoad
  grind -ring -linarith [observe_mem, vlands_wf, swrite_mem, tokenDone_wf, faultLoad_wf, foldl_wf]

theorem Access_perform_wf (y : Access) : Memory.wf (Access.perform s y).mem = true := by
  unfold Access.perform
  grind -ring -linarith [performStore_wf, applyAtom_wf]

theorem performAll_wf (as : List Access) : Memory.wf (performAll s as).mem = true := by
  unfold performAll
  grind -ring -linarith [Access_perform_wf, foldl_wf]

theorem lampFlush_wf (s0 : State) (a : Agent) : Memory.wf (lampFlush s0 a s).mem = true := by
  unfold lampFlush
  grind -ring -linarith [reapAll_wf, performAll_wf]

theorem ackUnit_wf (unit : Nat) : Memory.wf (ackUnit s unit).mem = true := h

theorem performAcked_wf (as : List Access) : Memory.wf (performAcked s as).mem = true := by
  unfold performAcked
  grind -ring -linarith [performStore_wf, applyAtom_wf, ackUnit_wf, foldl_wf]

theorem drainWarp_wf (g w : Nat) : Memory.wf (drainWarp s g w).mem = true := by
  unfold drainWarp
  grind -ring -linarith [performAll_wf, landLoad_wf, foldl_wf]

theorem spanFlush_wf (core g w : Nat) : Memory.wf (spanFlush s core g w).mem = true := by
  unfold spanFlush
  grind -ring -linarith [performAll_wf]

/-! ### Traps and the runner of the warp word (Machine/Ops) -/

theorem xlateNow_wf (x : Wg) (who va : Nat) (need : Need) : Memory.wf (xlateNow s x who va need).2.mem = true := by
  unfold xlateNow
  grind -ring -linarith [!requestWalk_wf, tlbInsert_wf, !walkReads_wf]

theorem doubleFault_wf (g w reason cause : Nat) (pc faddr : Word64) :
    Memory.wf (doubleFault s g w reason cause pc faddr).mem = true := by
  unfold doubleFault
  grind -ring -linarith [killWg_wf]

theorem frameLine_wf (cs : List Host.Cell) (k : Nat) : Memory.wf (frameLine cs s k).mem = true := by
  unfold frameLine
  grind -ring -linarith [putCells_wf, zeroRange_wf, hostDirty_wf, askLine_wf]

theorem writeFrame_wf (core key : Nat) (fs : List (Nat × Nat × Nat)) : Memory.wf (writeFrame s core key fs).mem = true := by
  unfold writeFrame
  grind -ring -linarith [frameLine_wf, dropL1_wf, foldl_wf]

theorem leaveQueue_wf (a : Site) : Memory.wf (leaveQueue s a).mem = true := h

theorem deferTrap_wf (t : Trap) (a : Site) : Memory.wf (deferTrap s t a).mem = true := h

theorem beginTrap_wf (a : Site) (p : Warp) : Memory.wf (beginTrap s a p).mem = true := by
  unfold beginTrap
  (repeat' split) <;> exact h

theorem askFrame_wf (x : Wg) (who va key : Nat) : Memory.wf (askFrame s x who va key).mem = true := by
  unfold askFrame
  grind -ring -linarith [askPeer_wf]

theorem touchFrame_wf (a : Site) (key : Nat) : Memory.wf (touchFrame s a key).mem = true := by
  unfold touchFrame
  grind -ring -linarith [touchAll_wf, lampLeave_wf, endAccess_wf]

theorem takeTrap_wf (t : Trap) (a : Site) : OutForm (takeTrap s t a) := by
  unfold takeTrap
  grind -ring -linarith [OutForm, freeze_mem, clearIssuer_mem, !doubleFault_wf, !beginTrap_wf, modCore_mem, !xlateNow_wf,
    !deferTrap_wf, lampJoin_wf, !askFrame_wf, !drainWarp_wf, modWarp_mem, !writeFrame_wf, !touchFrame_wf, setWarp_mem]

theorem returnTrap_wf (c : Ctx) (key mode width : Nat) (commit : Lanes) :
    Memory.wf (returnTrap s c key mode width commit).mem = true := by
  unfold returnTrap
  grind -ring -linarith [doubleFault_wf, modWarp_mem, wakeWarp_wf, vwrites_mem, foldl_wf]

theorem waitOn_wf (g w e : Nat) (wt : Wait) : Memory.wf (waitOn s g w e wt).mem = true := by
  unfold waitOn
  grind -ring -linarith [wakeWarp_wf, blockFrag_mem]

theorem countSpan_wf (c : Ctx) (op : Op) (f : WarpWord) : Memory.wf (countSpan s c op f).mem = true := by
  unfold countSpan
  grind -ring -linarith [modCore_mem]

theorem advance_wf (c : Ctx) (f : WarpWord) : Memory.wf (advance s c f).mem = true := h

theorem runWord_wf (op : Op) (f : WarpWord) {eff : Ctx → State → State → Res}
    (heff : ∀ c t, Memory.wf t.mem = true → ResForm (eff c s t)) : OutForm (runWord op f s eff) := by
  rcases runWord_cases op f s eff with ⟨-, e⟩ | ⟨c, -, e⟩
  · rw [e]; trivial
  · have he := heff c (past op f s c) (countSpan_wf (advance_wf h c f) c op f)
    grind -ring -linarith [OutForm, ResForm, takeTrap_wf, doubleFault_wf, clearIssuer_mem]

/-! ### Control flow (Machine/Control) -/

theorem execNop_wf (f : WarpWord) : OutForm (execNop f s) := by
  unfold execNop
  grind -ring -linarith [ResForm, !runWord_wf]

theorem execBra_wf (f : WarpWord) : OutForm (execBra f s) := by
  unfold execBra
  grind -ring -linarith [ResForm, !runWord_wf, setPc_mem]

theorem execBrx_wf (f : WarpWord) : OutForm (execBrx f s) := by
  unfold execBrx
  grind -ring -linarith [ResForm, !runWord_wf, setPc_mem, !refuse_wf, modWarp_mem]

theorem execJoin_wf (f : WarpWord) : OutForm (execJoin f s) := by
  unfold execJoin
  grind -ring -linarith [ResForm, !runWord_wf, !refuse_wf, modWarp_mem]

theorem execCall_wf (f : WarpWord) : OutForm (execCall f s) := by
  unfold execCall
  grind -ring -linarith [ResForm, !runWord_wf, vwrites_mem, setPc_mem]

theorem execRet_wf (f : WarpWord) : OutForm (execRet f s) := by
  unfold execRet
  grind -ring -linarith [ResForm, !runWord_wf, setPc_mem, !refuse_wf, modWarp_mem]

theorem execExit_wf (f : WarpWord) : OutForm (execExit f s) := by
  unfold execExit
  grind -ring -linarith [ResForm, !runWord_wf, modWarp_mem, !endWarp_wf, !refuse_wf]

theorem yieldFrag_wf (c : Ctx) : Memory.wf (yieldFrag s c).mem = true := h

theorem execYield_wf (f : WarpWord) : OutForm (execYield f s) := by
  unfold execYield
  grind -ring -linarith [ResForm, !runWord_wf, !yieldFrag_wf]

theorem execSleep_wf (f : WarpWord) : OutForm (execSleep f s) := by
  unfold execSleep
  grind -ring -linarith [ResForm, !runWord_wf, !yieldFrag_wf, blockFrag_mem]

theorem execSleepExpiry_wf (g w e : Nat) : OutForm (execSleepExpiry g w e s) := by
  unfold execSleepExpiry
  grind -ring -linarith [OutForm, setWarp_mem]

theorem execGetsr_wf (f : WarpWord) : OutForm (execGetsr f s) := by
  unfold execGetsr
  grind -ring -linarith [ResForm, !runWord_wf, swrite_mem, vwrites_mem]

theorem execSetsr_wf (f : WarpWord) : OutForm (execSetsr f s) := by
  unfold execSetsr
  grind -ring -linarith [ResForm, !runWord_wf, modWarp_mem, foldl_wf]

/-! ### Masks (Machine/Mask) -/

theorem execBallot_wf (f : WarpWord) : OutForm (execBallot f s) := by
  unfold execBallot
  grind -ring -linarith [ResForm, !runWord_wf, mwrite_mem]

theorem execVote_wf (f : WarpWord) : OutForm (execVote f s) := by
  unfold execVote
  grind -ring -linarith [ResForm, !runWord_wf, mwrite_mem]

theorem execLeader_wf (f : WarpWord) : OutForm (execLeader f s) := by
  unfold execLeader
  grind -ring -linarith [ResForm, !runWord_wf, mwrite_mem]

theorem execMskOp_wf (f : WarpWord) : OutForm (execMskOp f s) := by
  unfold execMskOp
  grind -ring -linarith [ResForm, !runWord_wf, mwrite_mem]

theorem execMskSave_wf (f : WarpWord) : OutForm (execMskSave f s) := by
  unfold execMskSave
  grind -ring -linarith [ResForm, !runWord_wf, mwrite_mem]

theorem execMskWset_wf (f : WarpWord) : OutForm (execMskWset f s) := by
  unfold execMskWset
  grind -ring -linarith [ResForm, !runWord_wf, modWarp_mem]

theorem execPopcM_wf (f : WarpWord) : OutForm (execPopcM f s) := by
  unfold execPopcM
  grind -ring -linarith [ResForm, !runWord_wf, swrite_mem]

theorem execFirstM_wf (f : WarpWord) : OutForm (execFirstM f s) := by
  unfold execFirstM
  grind -ring -linarith [ResForm, !runWord_wf, swrite_mem]

theorem execShfl_wf (f : WarpWord) : OutForm (execShfl f s) := by
  unfold execShfl
  grind -ring -linarith [ResForm, !runWord_wf, vwrites_mem]

theorem execBcast_wf (f : WarpWord) : OutForm (execBcast f s) := by
  unfold execBcast
  grind -ring -linarith [ResForm, !runWord_wf, vwrites_mem]

theorem execLscan_wf (f : WarpWord) : OutForm (execLscan f s) := by
  unfold execLscan
  grind -ring -linarith [ResForm, !runWord_wf, raiseFlags_mem, vwrites_mem]

theorem execLred_wf (f : WarpWord) : OutForm (execLred f s) := by
  unfold execLred
  grind -ring -linarith [ResForm, !runWord_wf, raiseFlags_mem, vwrites_mem]

/-! ### Integer vectors (Machine/IntVec) -/

theorem runInt_wf (op : Op) (f : WarpWord) (k : Nat) (val : Ctx → State → Nat → Word64) : OutForm (runInt op f s k val) := by
  unfold runInt
  grind -ring -linarith [ResForm, !runWord_wf, vecWrite_mem]

theorem runInt2_wf (op : Op) (f : WarpWord) (val : Word64 → Word64 → Word64) : OutForm (runInt2 op f s val) := by
  unfold runInt2
  grind -ring -linarith [OutForm, !runInt_wf]

theorem execIadd_wf (f : WarpWord) : OutForm (execIadd f s) := by
  unfold execIadd
  grind -ring -linarith [OutForm, !runInt2_wf]

theorem execIsub_wf (f : WarpWord) : OutForm (execIsub f s) := by
  unfold execIsub
  grind -ring -linarith [OutForm, !runInt2_wf]

theorem execImul_wf (f : WarpWord) : OutForm (execImul f s) := by
  unfold execImul
  grind -ring -linarith [OutForm, !runInt2_wf]

theorem execImulh_wf (f : WarpWord) : OutForm (execImulh f s) := by
  unfold execImulh
  grind -ring -linarith [OutForm, !runInt2_wf]

theorem execImin_wf (f : WarpWord) : OutForm (execImin f s) := by
  unfold execImin
  grind -ring -linarith [OutForm, !runInt2_wf]

theorem execImax_wf (f : WarpWord) : OutForm (execImax f s) := by
  unfold execImax
  grind -ring -linarith [OutForm, !runInt2_wf]

theorem execIabsd_wf (f : WarpWord) : OutForm (execIabsd f s) := by
  unfold execIabsd
  grind -ring -linarith [OutForm, !runInt2_wf]

theorem execImad_wf (f : WarpWord) : OutForm (execImad f s) := by
  unfold execImad
  grind -ring -linarith [OutForm, !runInt_wf]

theorem execIaddc_wf (f : WarpWord) : OutForm (execIaddc f s) := by
  unfold execIaddc
  grind -ring -linarith [ResForm, !runWord_wf, vecWrite_mem, mwrite_mem]

theorem execIshl_wf (f : WarpWord) : OutForm (execIshl f s) := by
  unfold execIshl
  grind -ring -linarith [OutForm, !runInt_wf]

theorem execIshr_wf (f : WarpWord) : OutForm (execIshr f s) := by
  unfold execIshr
  grind -ring -linarith [OutForm, !runInt_wf]

theorem execIshra_wf (f : WarpWord) : OutForm (execIshra f s) := by
  unfold execIshra
  grind -ring -linarith [OutForm, !runInt_wf]

theorem execFshf_wf (f : WarpWord) : OutForm (execFshf f s) := by
  unfold execFshf
  grind -ring -linarith [OutForm, !runInt_wf]

theorem execBool3_wf (f : WarpWord) : OutForm (execBool3 f s) := by
  unfold execBool3
  grind -ring -linarith [OutForm, !runInt_wf]

theorem execBfx_wf (f : WarpWord) : OutForm (execBfx f s) := by
  unfold execBfx
  grind -ring -linarith [OutForm, !runInt_wf]

theorem execBfi_wf (f : WarpWord) : OutForm (execBfi f s) := by
  unfold execBfi
  grind -ring -linarith [OutForm, !runInt_wf]

theorem execClz_wf (f : WarpWord) : OutForm (execClz f s) := by
  unfold execClz
  grind -ring -linarith [OutForm, !runInt_wf]

theorem execPopc_wf (f : WarpWord) : OutForm (execPopc f s) := by
  unfold execPopc
  grind -ring -linarith [OutForm, !runInt_wf]

theorem execBrev_wf (f : WarpWord) : OutForm (execBrev f s) := by
  unfold execBrev
  grind -ring -linarith [OutForm, !runInt_wf]

theorem execMov_wf (f : WarpWord) : OutForm (execMov f s) := by
  unfold execMov
  grind -ring -linarith [OutForm, !runInt_wf]

theorem execMovi_wf (f : WarpWord) : OutForm (execMovi f s) := by
  unfold execMovi
  grind -ring -linarith [OutForm, !runInt_wf]

theorem execIdp4_wf (f : WarpWord) : OutForm (execIdp4 f s) := by
  unfold execIdp4
  grind -ring -linarith [OutForm, !runInt_wf]

theorem execBysel_wf (f : WarpWord) : OutForm (execBysel f s) := by
  unfold execBysel
  grind -ring -linarith [OutForm, !runInt_wf]

theorem writeCompare_wf (c : Ctx) (f : WarpWord) (toMask : Bool) (out : Nat → Bool) :
    Memory.wf (writeCompare s c f toMask out).mem = true := by
  unfold writeCompare
  grind -ring -linarith [mwrite_mem, vecWrite_mem]

theorem execIcmp_wf (f : WarpWord) : OutForm (execIcmp f s) := by
  unfold execIcmp
  grind -ring -linarith [ResForm, !runWord_wf, !writeCompare_wf]

theorem execSel_wf (f : WarpWord) : OutForm (execSel f s) := by
  unfold execSel
  grind -ring -linarith [OutForm, !runInt_wf]

/-! ### Floating-point vectors (Machine/FloatVec) -/

theorem runFlt_wf (op : Op) (f : WarpWord) (fn : Ctx → State → Nat → Word32 → Rounded) : OutForm (runFlt op f s fn) := by
  unfold runFlt
  grind -ring -linarith [ResForm, !runWord_wf, applyLanes_mem]

theorem runArith_wf (o : FOp) (op : Op) (f : WarpWord) : OutForm (runArith o op f s) := by
  unfold runArith
  grind -ring -linarith [OutForm, !runFlt_wf]

theorem execFadd_wf (f : WarpWord) : OutForm (execFadd f s) := by
  unfold execFadd
  grind -ring -linarith [OutForm, !runArith_wf]

theorem execFsub_wf (f : WarpWord) : OutForm (execFsub f s) := by
  unfold execFsub
  grind -ring -linarith [OutForm, !runArith_wf]

theorem execFmul_wf (f : WarpWord) : OutForm (execFmul f s) := by
  unfold execFmul
  grind -ring -linarith [OutForm, !runArith_wf]

theorem execFfma_wf (f : WarpWord) : OutForm (execFfma f s) := by
  unfold execFfma
  grind -ring -linarith [OutForm, !runFlt_wf]

theorem execFmin_wf (f : WarpWord) : OutForm (execFmin f s) := by
  unfold execFmin
  grind -ring -linarith [OutForm, !runFlt_wf]

theorem execFmax_wf (f : WarpWord) : OutForm (execFmax f s) := by
  unfold execFmax
  grind -ring -linarith [OutForm, !runFlt_wf]

theorem execFcmp_wf (f : WarpWord) : OutForm (execFcmp f s) := by
  unfold execFcmp
  grind -ring -linarith [ResForm, !runWord_wf, !writeCompare_wf, raiseFlags_mem, foldl_wf]

theorem execFrcp_wf (f : WarpWord) : OutForm (execFrcp f s) := by
  unfold execFrcp
  grind -ring -linarith [OutForm, !runFlt_wf]

theorem execFsqrt_wf (f : WarpWord) : OutForm (execFsqrt f s) := by
  unfold execFsqrt
  grind -ring -linarith [OutForm, !runFlt_wf]

theorem execFdiv_wf (f : WarpWord) : OutForm (execFdiv f s) := by
  unfold execFdiv
  grind -ring -linarith [OutForm, !runFlt_wf]

theorem execFrnd_wf (f : WarpWord) : OutForm (execFrnd f s) := by
  unfold execFrnd
  grind -ring -linarith [OutForm, !runFlt_wf]

theorem execFscale_wf (f : WarpWord) : OutForm (execFscale f s) := by
  unfold execFscale
  grind -ring -linarith [OutForm, !runFlt_wf]

theorem execFclass_wf (f : WarpWord) : OutForm (execFclass f s) := by
  unfold execFclass
  grind -ring -linarith [OutForm, !runInt_wf]

theorem runApprox_wf (op : Op) (f : WarpWord) (fn : Fmt → Bool → Nat → Nat → Nat × BitVec 5) :
    OutForm (runApprox op f s fn) := by
  unfold runApprox
  grind -ring -linarith [ResForm, !runWord_wf, applyLanes_mem]

theorem execFrsq_wf (f : WarpWord) : OutForm (execFrsq f s) := by
  unfold execFrsq
  grind -ring -linarith [OutForm, !runApprox_wf]

theorem execFexp2_wf (f : WarpWord) : OutForm (execFexp2 f s) := by
  unfold execFexp2
  grind -ring -linarith [OutForm, !runApprox_wf]

theorem execFlog2_wf (f : WarpWord) : OutForm (execFlog2 f s) := by
  unfold execFlog2
  grind -ring -linarith [OutForm, !runApprox_wf]

theorem execFsinpi_wf (f : WarpWord) : OutForm (execFsinpi f s) := by
  unfold execFsinpi
  grind -ring -linarith [OutForm, !runApprox_wf]

theorem execFcospi_wf (f : WarpWord) : OutForm (execFcospi f s) := by
  unfold execFcospi
  grind -ring -linarith [OutForm, !runApprox_wf]

theorem execFtanh_wf (f : WarpWord) : OutForm (execFtanh f s) := by
  unfold execFtanh
  grind -ring -linarith [OutForm, !runApprox_wf]

/-! ### Conversions (Machine/Convert) -/

theorem execCvt_wf (f : WarpWord) : OutForm (execCvt f s) := by
  unfold execCvt
  grind -ring -linarith [OutForm, !runFlt_wf]

theorem execPack_wf (f : WarpWord) : OutForm (execPack f s) := by
  unfold execPack
  grind -ring -linarith [ResForm, !runWord_wf, applyLanes_mem]

theorem execUnpack_wf (f : WarpWord) : OutForm (execUnpack f s) := by
  unfold execUnpack
  grind -ring -linarith [ResForm, !runWord_wf, applyLanes_mem, foldl_wf]

theorem execQblk_wf (f : WarpWord) : OutForm (execQblk f s) := by
  unfold execQblk
  grind -ring -linarith [ResForm, !runWord_wf, applyLanes_mem]

theorem execDqblk_wf (f : WarpWord) : OutForm (execDqblk f s) := by
  unfold execDqblk
  grind -ring -linarith [ResForm, !runWord_wf, vwrites_mem]

/-! ### The scalar class (Machine/Scalar) -/

theorem runSca_wf (op : Op) (f : WarpWord) (val : Ctx → Word64 → Word64 → Word64) : OutForm (runSca op f s val) := by
  unfold runSca
  grind -ring -linarith [ResForm, !runWord_wf, swrite_mem]

theorem execSadd_wf (f : WarpWord) : OutForm (execSadd f s) := by
  unfold execSadd
  grind -ring -linarith [OutForm, !runSca_wf]

theorem execSsub_wf (f : WarpWord) : OutForm (execSsub f s) := by
  unfold execSsub
  grind -ring -linarith [OutForm, !runSca_wf]

theorem execSmul_wf (f : WarpWord) : OutForm (execSmul f s) := by
  unfold execSmul
  grind -ring -linarith [OutForm, !runSca_wf]

theorem execSmulh_wf (f : WarpWord) : OutForm (execSmulh f s) := by
  unfold execSmulh
  grind -ring -linarith [OutForm, !runSca_wf]

theorem execSand_wf (f : WarpWord) : OutForm (execSand f s) := by
  unfold execSand
  grind -ring -linarith [OutForm, !runSca_wf]

theorem execSor_wf (f : WarpWord) : OutForm (execSor f s) := by
  unfold execSor
  grind -ring -linarith [OutForm, !runSca_wf]

theorem execSxor_wf (f : WarpWord) : OutForm (execSxor f s) := by
  unfold execSxor
  grind -ring -linarith [OutForm, !runSca_wf]

theorem execSshl_wf (f : WarpWord) : OutForm (execSshl f s) := by
  unfold execSshl
  grind -ring -linarith [OutForm, !runSca_wf]

theorem execSshr_wf (f : WarpWord) : OutForm (execSshr f s) := by
  unfold execSshr
  grind -ring -linarith [OutForm, !runSca_wf]

theorem execSshra_wf (f : WarpWord) : OutForm (execSshra f s) := by
  unfold execSshra
  grind -ring -linarith [OutForm, !runSca_wf]

theorem execSmin_wf (f : WarpWord) : OutForm (execSmin f s) := by
  unfold execSmin
  grind -ring -linarith [OutForm, !runSca_wf]

theorem execSmax_wf (f : WarpWord) : OutForm (execSmax f s) := by
  unfold execSmax
  grind -ring -linarith [OutForm, !runSca_wf]

theorem execScmp_wf (f : WarpWord) : OutForm (execScmp f s) := by
  unfold execScmp
  grind -ring -linarith [ResForm, !runWord_wf, modWarp_mem, swrite_mem]

theorem execSsel_wf (f : WarpWord) : OutForm (execSsel f s) := by
  unfold execSsel
  grind -ring -linarith [OutForm, !runSca_wf]

theorem execSmov_wf (f : WarpWord) : OutForm (execSmov f s) := by
  unfold execSmov
  grind -ring -linarith [OutForm, !runSca_wf]

theorem execSli_wf (f : WarpWord) : OutForm (execSli f s) := by
  unfold execSli
  grind -ring -linarith [OutForm, !runSca_wf]

theorem execSbfx_wf (f : WarpWord) : OutForm (execSbfx f s) := by
  unfold execSbfx
  grind -ring -linarith [OutForm, !runSca_wf]

theorem execSclz_wf (f : WarpWord) : OutForm (execSclz f s) := by
  unfold execSclz
  grind -ring -linarith [OutForm, !runSca_wf]

theorem execSpopc_wf (f : WarpWord) : OutForm (execSpopc f s) := by
  unfold execSpopc
  grind -ring -linarith [OutForm, !runSca_wf]

theorem execV2s_wf (f : WarpWord) : OutForm (execV2s f s) := by
  unfold execV2s
  grind -ring -linarith [ResForm, !runWord_wf, swrite_mem]

/-! ### Loads, stores and hints (Machine/Mem) -/

theorem loadFill_wf (a : Agent) (space : Nat) (how : LoadAs) (p : Place) :
    Memory.wf (loadFill s a space how p).mem = true := by
  unfold loadFill
  grind -ring -linarith [fillK_wf, fillL1_wf, useLine_wf]

theorem loadFills_wf (a : Agent) (space : Nat) (how : LoadAs) (ps : List Place) :
    Memory.wf (loadFills s a space how ps).mem = true := by
  unfold loadFills
  grind -ring -linarith [loadFill_wf, touchPlaces_wf, foldl_wf]

theorem askNow_wf (c : Ctx) (space : Nat) (ps : List Place) : Memory.wf (askNow s c space ps).mem = true := by
  unfold askNow
  grind -ring -linarith [askPeers_wf]

theorem readNow_wf (c : Ctx) (space : Nat) (ps : List Place) : Memory.wf (readNow s c space ps).mem = true := by
  unfold readNow
  grind -ring -linarith [endAccess_wf, loadFills_wf, countAsk_mem, foldl_wf]

theorem addLoad_wf (a : Agent) (ps asked : List Place) (l : Load) : Memory.wf (addLoad s a ps asked l).mem = true := by
  unfold addLoad
  grind -ring -linarith [askPeers_wf]

theorem execLd_wf (f : WarpWord) : OutForm (execLd f s) := by
  unfold execLd
  grind -ring -linarith [CheckedForm, ResForm, !runWord_wf, !checkLanes_wf, !loadFills_wf, !addLoad_wf, !acquire_wf]

theorem execSt_wf (f : WarpWord) : OutForm (execSt f s) := by
  unfold execSt
  grind -ring -linarith [CheckedForm, ResForm, !runWord_wf, !checkLanes_wf, !issueStores_wf, !touchPlaces_wf, !lampFlush_wf,
    !spanFlush_wf]

theorem hintKeys_wf (c : Ctx) (vas : List Word64) : Memory.wf (hintKeys s c vas).2.mem = true := by
  unfold hintKeys
  refine List.foldlRecOn (motive := fun acc : Option (List (Nat × Nat)) × State => Memory.wf acc.2.mem = true) vas _ h
    fun acc hacc va _ => ?_
  grind -ring -linarith [!xlateNow_wf]

theorem runHints_wf (c : Ctx) {s0 : State} (h0 : Memory.wf s0.mem = true) (vas : List Word64) {act : State → Nat × Nat →
    State}
    (hact : ∀ s q, Memory.wf s.mem = true → Memory.wf (act s q).mem = true) : ResForm (runHints c s0 s vas act) := by
  unfold runHints
  grind -ring -linarith [ResForm, !hintKeys_wf, !dropFailed_wf, foldl_wf]

theorem prefLine_wf (c : Ctx) (target : Nat) (str : Bool) (q : Nat × Nat) :
    Memory.wf (prefLine c target str s q).mem = true := by
  unfold prefLine
  grind -ring -linarith [touchAll_wf, askPeer_wf, fillL1_wf, countAsk_mem, askLine_wf]

theorem prefVault_wf (target : Nat) (c : Ctx) (a : Word64) : Memory.wf (prefVault target c s a).mem = true := by
  unfold prefVault
  grind -ring -linarith [touchAll_wf]

theorem execPref_wf (f : WarpWord) : OutForm (execPref f s) := by
  unfold execPref
  grind -ring -linarith [ResForm, !runWord_wf, !prefVault_wf, !runHints_wf, !prefLine_wf, foldl_wf]

theorem execCctl_wf (f : WarpWord) : OutForm (execCctl f s) := by
  unfold execCctl
  grind -ring -linarith [ResForm, !runWord_wf, !runHints_wf, dropL1_wf, dropK_wf]

theorem execHflush_wf (f : WarpWord) : OutForm (execHflush f s) := by
  unfold execHflush
  grind -ring -linarith [ResForm, !runWord_wf, foldl_wf]

theorem execHinv_wf (f : WarpWord) : OutForm (execHinv f s) := by
  unfold execHinv
  grind -ring -linarith [ResForm, !runWord_wf, blockFrag_mem]

theorem discardLines_wf (p : Nat → Bool) : Memory.wf (discardLines s p).mem = true := by
  unfold discardLines
  grind -ring -linarith [zeroRange_wf, dropL1_wf, foldl_wf]

theorem execHinvComplete_wf (g w e : Nat) : OutForm (execHinvComplete g w e s) := by
  unfold execHinvComplete
  grind -ring -linarith [OutForm, setWarp_mem, !discardLines_wf]

theorem execPhase_wf (f : WarpWord) : OutForm (execPhase f s) := by
  unfold execPhase
  grind -ring -linarith [ResForm, !runWord_wf, modWg_mem, touch_wf, !takePlace_wf, blockFrag_mem, foldl_wf]

theorem execPadq_wf (f : WarpWord) : OutForm (execPadq f s) := by
  unfold execPadq
  grind -ring -linarith [ResForm, !runWord_wf, swrite_mem]

theorem execSld_wf (f : WarpWord) : OutForm (execSld f s) := by
  unfold execSld
  grind -ring -linarith [CheckedForm, ResForm, !runWord_wf, !checkLanes_wf, !loadFills_wf, !addLoad_wf, foldl_wf]

theorem execSst_wf (f : WarpWord) : OutForm (execSst f s) := by
  unfold execSst
  grind -ring -linarith [CheckedForm, ResForm, !runWord_wf, !checkLanes_wf, !issueStores_wf, !touchPlaces_wf, !lampFlush_wf,
    !spanFlush_wf]

theorem execLoadLands_wf (id : Nat) : OutForm (execLoadLands id s) := by
  unfold execLoadLands
  grind -ring -linarith [OutForm, !landLoad_wf]

theorem execStorePerformed_wf (id : Nat) : OutForm (execStorePerformed id s) := by
  unfold execStorePerformed
  grind -ring -linarith [OutForm, !reapAll_wf, !performStore_wf]

/-! ### Atomics, barriers and fences (Machine/Sync) -/

theorem addAtom_wf (a : Atom) : Memory.wf (addAtom s a).mem = true := by
  unfold addAtom
  grind -ring -linarith [askPeer_wf]

theorem runGroups_wf (as : List Atom) : OptForm (runGroups as s) := by
  induction as generalizing s with
  | nil => exact h
  | cons a t ih => unfold runGroups; grind -ring -linarith [OptForm, !applyAtom_wf, !addAtom_wf]

theorem runAtomic_wf (op : Op) (f : WarpWord) (k : Nat) (dst : Option Nat) (data : State → Ctx → Nat → Word64 × Word64) :
    OutForm (runAtomic op f s k dst data) := by
  unfold runAtomic
  grind -ring -linarith [OptForm, CheckedForm, ResForm, !runWord_wf, !checkLanes_wf, vwrites_mem, !touchPlaces_wf,
    !runGroups_wf, !acquire_wf, !lampFlush_wf, !addAtom_wf, foldl_wf]

theorem execAtom_wf (f : WarpWord) : OutForm (execAtom f s) := by
  unfold execAtom
  grind -ring -linarith [ResForm, !runAtomic_wf]

theorem execAtomCas_wf (f : WarpWord) : OutForm (execAtomCas f s) := by
  unfold execAtomCas
  grind -ring -linarith [ResForm, !runAtomic_wf]

theorem execRed_wf (f : WarpWord) : OutForm (execRed f s) := by
  unfold execRed
  grind -ring -linarith [ResForm, !runAtomic_wf]

theorem execAtomicRequest_wf (id : Nat) : OutForm (execAtomicRequest id s) := by
  unfold execAtomicRequest
  grind -ring -linarith [OutForm, !reapAll_wf, !applyAtom_wf]

theorem execDedupAck_wf (id : Nat) : OutForm (execDedupAck id s) := by
  unfold execDedupAck
  grind -ring -linarith [OutForm]

theorem execFence_wf (f : WarpWord) : OutForm (execFence f s) := by
  unfold execFence
  grind -ring -linarith [ResForm, !runWord_wf, !acquire_wf]

theorem putBar_wf (c : Ctx) (f : WarpWord) (b : Bar) : Memory.wf (putBar s c f b).mem = true := h

theorem runBar_wf (op : Op) (f : WarpWord) {eff : Ctx → State → State → Res}
    (heff : ∀ c t, Memory.wf t.mem = true → ResForm (eff c s t)) : OutForm (runBar op f s eff) := by
  unfold runBar
  grind -ring -linarith [ResForm, runWord_wf, barPlace_wf]

theorem execBarInit_wf (f : WarpWord) : OutForm (execBarInit f s) := by
  unfold execBarInit
  grind -ring -linarith [ResForm, !runBar_wf, !putBar_wf]

theorem execBarArrive_wf (f : WarpWord) : OutForm (execBarArrive f s) := by
  unfold execBarArrive
  grind -ring -linarith [ResForm, !runBar_wf, !putBar_wf, swrite_mem]

theorem execBarWait_wf (f : WarpWord) : OutForm (execBarWait f s) := by
  unfold execBarWait
  grind -ring -linarith [ResForm, !runBar_wf, !waitOn_wf]

theorem execBarSync_wf (f : WarpWord) : OutForm (execBarSync f s) := by
  unfold execBarSync
  grind -ring -linarith [ResForm, !runBar_wf, !putBar_wf, swrite_mem, !waitOn_wf]

theorem execBarQuery_wf (f : WarpWord) : OutForm (execBarQuery f s) := by
  unfold execBarQuery
  grind -ring -linarith [ResForm, !runBar_wf, swrite_mem]

theorem completePhase_wf (g b : Nat) : Memory.wf (completePhase s g b).mem = true := by
  unfold completePhase
  grind -ring -linarith [wakeWg_wf, takePlace_wf, setWg_mem]

theorem execBarrierPhaseComplete_wf (g b : Nat) : OutForm (execBarrierPhaseComplete g b s) := by
  unfold execBarrierPhaseComplete
  grind -ring -linarith [OutForm, !takePlace_wf, !completePhase_wf]

theorem execBanklock_wf (f : WarpWord) : OutForm (execBanklock f s) := by
  unfold execBanklock
  grind -ring -linarith [ResForm, !runWord_wf, modCore_mem, !takePlace_wf]

theorem execBanklockSpanEnd_wf (core g w : Nat) : OutForm (execBanklockSpanEnd core g w s) := by
  unfold execBanklockSpanEnd
  grind -ring -linarith [OutForm, modCore_mem]

theorem execTlwait_wf (f : WarpWord) : OutForm (execTlwait f s) := by
  unfold execTlwait
  grind -ring -linarith [ResForm, !runWord_wf, !waitOn_wf]

theorem execTlread_wf (f : WarpWord) : OutForm (execTlread f s) := by
  unfold execTlread
  grind -ring -linarith [ResForm, !runWord_wf, swrite_mem]

/-! ### Fetching (Machine/Fetch) -/

theorem fetchAt_wf (x : Wg) (who pc n : Nat) : FetchedForm (fetchAt s x who pc n) := by
  unfold fetchAt
  grind -ring -linarith [FetchedForm, !requestWalk_wf, lampJoin_wf, !askPeer_wf, touchAll_wf, lampLeave_wf, !endAccess_wf,
    !askAll_wf, fillI_wf]

theorem fetchWord_wf (x : Wg) (who pc : Nat) : FetchedForm (fetchWord s x who pc) := by
  unfold fetchWord
  grind -ring -linarith [FetchedForm, !fetchAt_wf]

theorem fetchBundle_wf (x : Wg) (who pc : Nat) : FetchedForm (fetchBundle s x who pc) := by
  unfold fetchBundle
  grind -ring -linarith [FetchedForm, !fetchAt_wf]

/-! ### Traps and their frames (Machine/Traps) -/

theorem execTrap_wf (f : WarpWord) : OutForm (execTrap f s) := by
  unfold execTrap
  grind -ring -linarith [ResForm, !runWord_wf]

theorem execBrk_wf (f : WarpWord) : OutForm (execBrk f s) := by
  unfold execBrk
  grind -ring -linarith [ResForm, !runWord_wf]

theorem killByRet_wf (c : Ctx) (frame : Option Nat) : Memory.wf (killByRet s c frame).mem = true := by
  unfold killByRet
  grind -ring -linarith [killWg_wf, freshFree_wf]

theorem execTrapRet_wf (f : WarpWord) : OutForm (execTrapRet f s) := by
  unfold execTrapRet
  grind -ring -linarith [CheckedForm, ResForm, !runWord_wf, !checkLanes_wf, !killByRet_wf, freeze_mem, !askNow_wf,
    !readNow_wf, !returnTrap_wf]

theorem execVary_wf (f : WarpWord) : OutForm (execVary f s) := by
  unfold execVary
  grind -ring -linarith [CheckedForm, ResForm, !runWord_wf, !checkLanes_wf, !askNow_wf, !addLate_wf, !readNow_wf, setPc_mem,
    foldl_wf]

theorem boundaryTrap_wf (g w e : Nat) : OptOutForm (boundaryTrap s g w e) := by
  unfold boundaryTrap
  split
  · next y x _ _ =>
    cases x.bank with
    | none => grind -ring -linarith [OptOutForm, OutForm, FetchedForm, takeTrap_wf, fetchWord_wf]
    | some b =>
      cases pendingLate x (fun _ => false) with
      | none => trivial
      | some l => grind -ring -linarith [OptOutForm, OutForm, doubleFault_wf, freeze_mem, clearIssuer_mem]
  · trivial

theorem getD_next_wf {o : Option Out} (ho : OptOutForm o) : OutForm (o.getD (.next s)) := by
  cases o with
  | none => exact h
  | some o => exact ho

theorem execTrapEntry_wf (g w : Nat) : OutForm (execTrapEntry g w s) := by
  unfold execTrapEntry
  grind -ring -linarith [OutForm, getD_next_wf, !boundaryTrap_wf]

theorem markPoison_wf (k : Nat) : Memory.wf (markPoison s k).mem = true := by
  unfold markPoison
  (repeat' split) <;> exact h

theorem lastingError_wf (g w k sub addr space : Nat) : Memory.wf (lastingError s g w k sub addr space).mem = true := by
  unfold lastingError
  grind -ring -linarith [storeFault_wf, markPoison_wf]

theorem refuseAtom_wf (a : Atom) (cause sub : Nat) : Memory.wf (refuseAtom s a cause sub).mem = true := h

theorem execLateFault_wf (id cause sub : Nat) : OutForm (execLateFault id cause sub s) := by
  unfold execLateFault
  grind -ring -linarith [OutForm, !landLoad_wf, !lastingError_wf, !faultLoad_wf, !reapAll_wf, !applyAtom_wf, !refuseAtom_wf]

/-! ### Records and launches (Machine/Records) -/

theorem allocate_wf (g rnum node n : Nat) (spill mayRing : Bool) : OptFstForm (allocate s g rnum node n spill mayRing) := by
  unfold allocate
  grind -ring -linarith [OptFstForm, modWg_mem, !modNode_wf]

theorem serveAlloc_wf (g w e : Nat) : OutForm (serveAlloc s g w e) := by
  unfold serveAlloc
  simp only
  split
  · next x p _ _ =>
    generalize hpc : (mget p.frags e).map (·.pc) = pc
    grind -ring -linarith [OutForm, OptFstForm, modNode_wf, setPc_mem, modWarp_mem, !allocate_wf, clearIssuer_mem,
      swrite_mem, takePlace_wf]
  · exact h

theorem execRecAlloc_wf (f : WarpWord) : OutForm (execRecAlloc f s) := by
  unfold execRecAlloc
  grind -ring -linarith [OptFstForm, ResForm, !runWord_wf, swrite_mem, !allocate_wf, !takePlace_wf, !countSpan_wf,
    !modNode_wf, blockFrag_mem]

theorem commitRec_wf (asid src depth rnum node a : Nat) : Memory.wf (commitRec s asid src depth rnum node a).mem = true := by
  unfold commitRec
  grind -ring -linarith [askAll_wf, contextWrite_wf, modNode_wf]

theorem commitAll_wf (asid src depth rnum node a n k : Nat) :
    Memory.wf (commitAll s asid src depth rnum node a n k).mem = true := by
  unfold commitAll
  grind -ring -linarith [commitRec_wf, abortRecs_wf, foldl_wf]

theorem dropResv_wf (g a : Nat) : Memory.wf (dropResv s g a).mem = true := h

theorem commitResv_wf (g : Nat) (x : Wg) (r : Resv) (k : Nat) : Memory.wf (commitResv s g x r k).mem = true := by
  unfold commitResv
  grind -ring -linarith [dropResv_wf, dropL1_wf, commitAll_wf]

theorem execRecCommit_wf (f : WarpWord) : OutForm (execRecCommit f s) := by
  unfold execRecCommit
  grind -ring -linarith [ResForm, !runWord_wf, !askPieces_wf, !commitResv_wf, !pieceDone_wf]

theorem execRecAbort_wf (f : WarpWord) : OutForm (execRecAbort f s) := by
  unfold execRecAbort
  grind -ring -linarith [ResForm, !runWord_wf, !askPieces_wf, !dropResv_wf, !abortRecs_wf, !pieceDone_wf]

theorem execRecInfo_wf (f : WarpWord) : OutForm (execRecInfo f s) := by
  unfold execRecInfo
  grind -ring -linarith [ResForm, !runWord_wf, swrite_mem, foldl_wf]

theorem pickFree_wf {α : Type} (l : List α) (d : α) : Memory.wf (pickFree l d s).2.mem = true := by
  unfold pickFree
  grind -ring -linarith

theorem startWarp_wf (g w core lg : Nat) (x : Warp) : Memory.wf (startWarp s g w core lg x).mem = true := h

theorem startChild_wf (core : Nat) (p : Pending) : OptForm (startChild s core p) := by
  unfold startChild
  grind -ring -linarith [OptForm, !pickFree_wf, !startWarp_wf]

theorem execSpawn_wf (f : WarpWord) : OutForm (execSpawn f s) := by
  unfold execSpawn
  grind -ring -linarith [OptForm, ResForm, !runWord_wf, swrite_mem, !startChild_wf, modCore_mem]

theorem execPendingSpawnStart_wf (core : Nat) : OutForm (execPendingSpawnStart core s) := by
  unfold execPendingSpawnStart
  grind -ring -linarith [OutForm, OptForm, !startChild_wf, modCore_mem]

theorem execLimewashGranuleClear_wf (core lg : Nat) : OutForm (execLimewashGranuleClear core lg s) := by
  unfold execLimewashGranuleClear
  grind -ring -linarith [OutForm, !takePlace_wf, modLg_mem]

theorem execRegGive_wf (f : WarpWord) : OutForm (execRegGive f s) := by
  unfold execRegGive
  grind -ring -linarith [ResForm, !runWord_wf, modWarp_mem, modLg_mem, !wakeWg_wf, modWg_mem]

theorem execRegClaim_wf (f : WarpWord) : OutForm (execRegClaim f s) := by
  unfold execRegClaim
  grind -ring -linarith [ResForm, !runWord_wf, swrite_mem, !takeGranules_wf, !waitOn_wf]

theorem execNtfPost_wf (f : WarpWord) : OutForm (execNtfPost f s) := by
  unfold execNtfPost
  grind -ring -linarith [ResForm, !runWord_wf, !postNotify_wf]

theorem execNtfWait_wf (f : WarpWord) : OutForm (execNtfWait f s) := by
  unfold execNtfWait
  grind -ring -linarith [ResForm, !runWord_wf, !waitOn_wf]

/-! ### Copies (Machine/Copy) -/

theorem engSeen_wf (t : Target) (space : Nat) (ad : Word64) (n : Nat) : Memory.wf (engSeen s t space ad n).mem = true := by
  unfold engSeen
  grind -ring -linarith [touchAll_wf, fillK_wf, dropL1_wf, askLine_wf]

theorem engStore_wf (core : Nat) (cs : List Host.Cell) : Memory.wf (engStore s core cs).mem = true := by
  unfold engStore
  grind -ring -linarith [touchAll_wf, dropL1_wf, pocWrite_wf]

theorem moveSeen_wf (src : Target) (m : Move) : Memory.wf (moveSeen s src m).mem = true := by
  unfold moveSeen
  grind -ring -linarith [lampLeave_wf, engSeen_wf]

theorem makeMove_wf (src : Target) (dsts : List Target) (m : Move) : ExForm (makeMove s src dsts m) := by
  unfold makeMove
  cases evalMove s src dsts m with
  | error e => trivial
  | ok cs => exact engStore_wf (moveSeen_wf h src m) _ cs

theorem applyBlock_wf (id : Nat) (ms : List Move) (b : Block) : Memory.wf (applyBlock s id ms b).mem = true := by
  unfold applyBlock
  grind -ring -linarith [requestWalk_wf, lampJoin_wf, askPeer_wf, foldl_wf]

theorem foldlM_makeMove_wf (src : Target) (dsts : List Target) (ms : List Move) :
    ExForm (ms.foldlM (fun s m => makeMove s src dsts m) s) := by
  induction ms generalizing s with
  | nil => exact h
  | cons m t ih =>
    rw [List.foldlM_cons]
    have hm := makeMove_wf h src dsts m
    cases e : makeMove s src dsts m with
    | error b => trivial
    | ok u => rw [e] at hm; exact ih hm

theorem evalUnit_wf (src : Target) (dsts : List Target) (u : CUnit) : ExForm (evalUnit s src dsts u) := by
  unfold evalUnit
  split
  · trivial
  · exact foldlM_makeMove_wf h src dsts _

theorem runUnits_wf (src : Target) (dsts : List Target) (us : List CUnit) (d : Nat) : RunForm (runUnits src dsts us d s) := by
  induction us generalizing s d with
  | nil => exact h
  | cons u t ih => unfold runUnits; grind -ring -linarith [RunForm, ExForm, !evalUnit_wf]

theorem scatter_wf (core : Nat) (cs : List Host.Cell) : Memory.wf (scatter s core cs).mem = true := by
  unfold scatter
  grind -ring -linarith [engStore_wf]

theorem copyIssue_wf {s0 : State} (h0 : Memory.wf s0.mem = true) (g w : Nat) (lanes : Lanes) (core : Nat) (pc : Word64)
    (token : Option Nat) (q : CopyReq) : ResForm (copyIssue s0 s g w lanes core pc token q) := by
  unfold copyIssue
  grind -ring -linarith [ResForm, !takePlace_wf, modWg_mem]

theorem runCopy_wf (op : Op) (f : WarpWord) (kind : CopyKind) (blk : Bool) : OutForm (runCopy op f s kind blk) := by
  unfold runCopy
  grind -ring -linarith [ResForm, !runWord_wf, !copyIssue_wf]

theorem execCopyT_wf (f : WarpWord) : OutForm (execCopyT f s) := by
  unfold execCopyT
  grind -ring -linarith [OutForm, !runCopy_wf]

theorem execCopyL_wf (f : WarpWord) : OutForm (execCopyL f s) := by
  unfold execCopyL
  grind -ring -linarith [OutForm, !runCopy_wf]

theorem execCopyG_wf (f : WarpWord) : OutForm (execCopyG f s) := by
  unfold execCopyG
  grind -ring -linarith [OutForm, !runCopy_wf]

theorem execCopyFill_wf (f : WarpWord) : OutForm (execCopyFill f s) := by
  unfold execCopyFill
  grind -ring -linarith [OutForm, !runCopy_wf]

theorem execCopyStat_wf (f : WarpWord) : OutForm (execCopyStat f s) := by
  unfold execCopyStat
  grind -ring -linarith [ResForm, !runWord_wf, swrite_mem, modWg_mem]

theorem modCopy_wf (id : Nat) (f : Copy → Copy) : Memory.wf (modCopy s id f).mem = true := h

theorem startCopy_wf (c : Copy) (x : Wg) : ExFstForm (startCopy s c x) := by
  unfold startCopy
  grind -ring -linarith [ExFstForm, !modCopy_wf, !engSeen_wf]

theorem copyRun_wf (c : Copy) (x : Wg) : RunForm (copyRun s c x) := by
  unfold copyRun
  grind -ring -linarith [RunForm, ExFstForm, !startCopy_wf, !runUnits_wf]

omit h in
theorem exMap_wf {e : Except Bad State} {f : State → State} (he : ExForm e)
    (hf : ∀ u, Memory.wf u.mem = true → Memory.wf (f u).mem = true) : ExForm (e.map f) := by
  cases e with
  | error b => trivial
  | ok u => exact hf u he

omit h in
theorem exMap_const_wf {α : Type} {e : Except Bad α} {f : α → State} (hf : ∀ a, Memory.wf (f a).mem = true) :
    ExForm (e.map f) := by
  cases e with
  | error b => trivial
  | ok a => exact hf a

theorem moveWord_wf (c : Copy) (x : Wg) (k : Nat) : ExForm (moveWord s c x k) := by
  unfold moveWord
  simp only
  repeat' split
  all_goals first
    | trivial
    | exact h
    | exact modCopy_wf h ..
    | exact exMap_wf (makeMove_wf h ..) fun _ hu => modCopy_wf hu ..
    | exact exMap_const_wf fun cs => modCopy_wf (engStore_wf h ..) ..
    | exact exMap_const_wf fun cs => modCopy_wf (moveSeen_wf h ..) ..

theorem endSpent_wf (id : Nat) : Memory.wf (endSpent s id).mem = true := by
  unfold endSpent
  grind -ring -linarith [endReq_wf, foldl_wf]

theorem wordTurn_wf (c : Copy) (x : Wg) (queues : Bool) (k : Nat) : Memory.wf (wordTurn s c x queues k).mem = true := by
  unfold wordTurn
  grind -ring -linarith [ExForm, moveWord_wf, applyBlock_wf]

theorem copyPart_wf (id k : Nat) : Memory.wf (copyPart id k s).mem = true := by
  unfold copyPart
  grind -ring -linarith [ExFstForm, startCopy_wf, applyBlock_wf, endSpent_wf, wordTurn_wf]

theorem copySweep_wf (c : Copy) (x : Wg) : Memory.wf (copySweep s c x).mem = true := by
  unfold copySweep
  grind -ring -linarith [wordTurn_wf, foldl_wf]

theorem copyWaits_wf (c : Copy) (x : Wg) (b : Block) : Memory.wf (copyWaits s c x b).mem = true := by
  unfold copyWaits
  grind -ring -linarith [ExFstForm, startCopy_wf, endSpent_wf, copySweep_wf, applyBlock_wf]

theorem dropWalks_wf (id : Nat) : Memory.wf (dropWalks s id).mem = true := h

theorem recordSummary_wf (g w : Nat) (anvil : Bool) (f : Summary) : Memory.wf (recordSummary s g w anvil f).mem = true := by
  unfold recordSummary
  grind -ring -linarith [freeze_mem, storeFault_wf, setWg_mem]

theorem arriveAt_wf (g b : Nat) : Memory.wf (arriveAt s g b).mem = true := h

theorem finishCopy_wf (c : Copy) : Memory.wf (finishCopy s c).mem = true := by
  unfold finishCopy
  grind -ring -linarith [arriveAt_wf, lampLeave_wf, dropWalks_wf, observe_mem, modWg_mem, reapAll_wf, wakeWg_wf,
    tokenDone_wf, foldl_wf]

theorem execCopyComplete_wf (id : Nat) : OutForm (execCopyComplete id s) := by
  unfold execCopyComplete
  grind -ring -linarith [OutForm, RunForm, !copyRun_wf, !finishCopy_wf, !copyWaits_wf]

theorem execCopyFault_wf (id : Nat) : OutForm (execCopyFault id s) := by
  unfold execCopyFault
  grind -ring -linarith [OutForm, RunForm, !copyRun_wf, !copyWaits_wf, !scatter_wf, !finishCopy_wf, !recordSummary_wf]

/-! ### The anvil (Machine/Anvil) -/

theorem modTile_wf (core z : Nat) (f : Tile → Tile) : Memory.wf (modTile s core z f).mem = true := h

theorem acceptAnv_wf (a : Anv) : Memory.wf (acceptAnv s a).mem = true := by
  unfold acceptAnv
  (repeat' split) <;> exact h

theorem finishAnv_wf (a : Anv) : Memory.wf (finishAnv s a).mem = true := by
  unfold finishAnv
  grind -ring -linarith [observe_mem, dropWalks_wf, modWg_mem, lampLeave_wf, reapAll_wf, wakeWg_wf, licSettle_wf,
    tokenDone_wf]

theorem obResIssue_wf {s0 : State} (h0 : Memory.wf s0.mem = true) (q : Ask) (layout scale : Word64) (n : Nat) :
    ResForm (obResIssue s0 s q layout scale n) := by
  unfold obResIssue
  simp only
  split
  · trivial
  · split
    · exact h0
    · simp only [ResForm, modCore_mem]
      exact acceptAnv_wf h _

theorem obFreeIssue_wf {s0 : State} (h0 : Memory.wf s0.mem = true) (q : Ask) (n : Nat) : ResForm (obFreeIssue s0 s q n) := by
  unfold obFreeIssue
  grind -ring -linarith [ResForm, !acceptAnv_wf]

theorem execObRes_wf (f : WarpWord) : OutForm (execObRes f s) := by
  unfold execObRes
  grind -ring -linarith [ResForm, !runWord_wf, !obResIssue_wf]

theorem execObFree_wf (f : WarpWord) : OutForm (execObFree f s) := by
  unfold execObFree
  grind -ring -linarith [ResForm, !runWord_wf, !obFreeIssue_wf]

theorem execObResZeroDone_wf (id : Nat) : OutForm (execObResZeroDone id s) := by
  unfold execObResZeroDone
  grind -ring -linarith [OutForm, !finishAnv_wf, zeroRange_wf]

theorem execObFreeRelease_wf (id : Nat) : OutForm (execObFreeRelease id s) := by
  unfold execObFreeRelease
  grind -ring -linarith [OutForm, !finishAnv_wf, modCore_mem]

theorem modAnv_wf (id : Nat) (f : Anv → Anv) : Memory.wf (modAnv s id f).mem = true := h

theorem execAnvStepStart_wf (id : Nat) : OutForm (execAnvStepStart id s) := by
  unfold execAnvStepStart
  grind -ring -linarith [OutForm, modLg_mem, !modAnv_wf]

theorem execAnvStepCommit_wf (id : Nat) : OutForm (execAnvStepCommit id s) := by
  unfold execAnvStepCommit
  grind -ring -linarith [OutForm, modPair_mem, !modTile_wf, !modAnv_wf, !finishAnv_wf]

theorem takeTile_wf (g core z : Nat) (i96 : Bool) : Memory.wf (takeTile s g core z i96).mem = true := h

theorem anvZeroIssue_wf {s0 : State} (h0 : Memory.wf s0.mem = true) (q : Ask) (word : Word64) :
    ResForm (anvZeroIssue s0 s q word) := by
  unfold anvZeroIssue
  grind -ring -linarith [ResForm, !takeTile_wf, !acceptAnv_wf]

theorem execAnvZero_wf (f : WarpWord) : OutForm (execAnvZero f s) := by
  unfold execAnvZero
  grind -ring -linarith [ResForm, !runWord_wf, !anvZeroIssue_wf]

theorem execAnvZeroComplete_wf (id : Nat) : OutForm (execAnvZeroComplete id s) := by
  unfold execAnvZeroComplete
  grind -ring -linarith [OutForm, !finishAnv_wf, !modTile_wf]

theorem anvDrainIssue_wf {s0 : State} (h0 : Memory.wf s0.mem = true) (q : Ask) (D pt seed word : Word64) :
    ResForm (anvDrainIssue s0 s q D pt seed word) := by
  unfold anvDrainIssue
  grind -ring -linarith [ResForm, !acceptAnv_wf]

theorem execAnvDrain_wf (f : WarpWord) : OutForm (execAnvDrain f s) := by
  unfold execAnvDrain
  grind -ring -linarith [ResForm, !runWord_wf, !anvDrainIssue_wf]

theorem drainRun_wf (a : Anv) (x : Wg) (t : Tile) : RunForm (drainRun s a x t) := by
  unfold drainRun
  grind -ring -linarith [RunForm, !runUnits_wf]

theorem drainTile_wf (a : Anv) (t : Tile) (n : Nat) : Memory.wf (drainTile s a t n).mem = true := h

theorem execAnvDrainComplete_wf (id : Nat) : OutForm (execAnvDrainComplete id s) := by
  unfold execAnvDrainComplete
  grind -ring -linarith [OutForm, RunForm, !drainRun_wf, !finishAnv_wf, !drainTile_wf, !applyBlock_wf]

theorem anvLoadzIssue_wf {s0 : State} (h0 : Memory.wf s0.mem = true) (q : Ask) (D pt word : Word64) :
    ResForm (anvLoadzIssue s0 s q D pt word) := by
  unfold anvLoadzIssue
  grind -ring -linarith [ResForm, !takeTile_wf, !acceptAnv_wf]

theorem execAnvLoadz_wf (f : WarpWord) : OutForm (execAnvLoadz f s) := by
  unfold execAnvLoadz
  grind -ring -linarith [ResForm, !runWord_wf, !anvLoadzIssue_wf]

theorem rowsSeen_wf (a : Anv) (x : Wg) (n : Nat) : Memory.wf (rowsSeen s a x n).mem = true := by
  unfold rowsSeen
  grind -ring -linarith [engSeen_wf, foldl_wf]

theorem execAnvLoadzComplete_wf (id : Nat) : OutForm (execAnvLoadzComplete id s) := by
  unfold execAnvLoadzComplete
  grind -ring -linarith [OutForm, !finishAnv_wf, !modTile_wf, !rowsSeen_wf, !applyBlock_wf]

theorem faultAnv_wf (a : Anv) (done cause space : Nat) (ad : Word64) :
    Memory.wf (faultAnv s a done cause space ad).mem = true := by
  unfold faultAnv
  grind -ring -linarith [finishAnv_wf, recordSummary_wf]

theorem execAnvFault_wf (id : Nat) : OutForm (execAnvFault id s) := by
  unfold execAnvFault
  split
  · exact h
  · next a _ =>
    cases getWg s a.g with
    | none => grind -ring -linarith [OutForm, faultAnv_wf]
    | some x =>
      have hr : ∀ t, RunForm (drainRun s a x t) := fun t => drainRun_wf h a x t
      cases a.kind <;> grind -ring -linarith [OutForm, RunForm, faultAnv_wf, drainRun_wf, scatter_wf, drainTile_wf,
        applyBlock_wf, modTile_wf, rowsSeen_wf]

theorem endSpan_wf (c : Ctx) : Memory.wf (endSpan s c).mem = true := h

theorem trapMembers_wf (g : Nat) (tr : Trap) (ms : List Member) : OutForm (trapMembers g tr ms s) := by
  induction ms generalizing s with
  | nil => exact h
  | cons m t ih => unfold trapMembers; grind -ring -linarith [OutForm, !takeTrap_wf]

theorem gangTrap_wf (c : Ctx) (f : WarpWord) (tr : Trap) : ResForm (gangTrap s c f tr) := by
  unfold gangTrap
  grind -ring -linarith [OutForm, ResForm, !trapMembers_wf, modWg_mem]

theorem gangIssue_wf (c : Ctx) (f : WarpWord) (l : Latch) : ResForm (gangIssue s c f l) := by
  unfold gangIssue
  grind -ring -linarith [ResForm, !gangTrap_wf, !raiseReq_wf, !endSpan_wf, modWg_mem, !acceptAnv_wf, !advance_wf,
    !countSpan_wf, foldl_wf]

theorem execAnvMma_wf (f : WarpWord) : OutForm (execAnvMma f s) := by
  unfold execAnvMma
  grind -ring -linarith [ResForm, !runWord_wf, !gangTrap_wf, modWg_mem, !gangIssue_wf]

theorem execGangSet_wf (f : WarpWord) : OutForm (execGangSet f s) := by
  unfold execGangSet
  grind -ring -linarith [ResForm, !runWord_wf, modWg_mem]

/-! ### Licences (Machine/Licence) -/

theorem pinLic_wf (p : Nat) : Memory.wf (pinLic s p).mem = true := h

theorem execLicAcq_wf (f : WarpWord) : OutForm (execLicAcq f s) := by
  unfold execLicAcq
  grind -ring -linarith [ResForm, !runWord_wf, swrite_mem, !pinLic_wf, !endSpan_wf, !raiseReq_wf, !askFrag_wf]

theorem execLicRel_wf (f : WarpWord) : OutForm (execLicRel f s) := by
  unfold execLicRel
  grind -ring -linarith [ResForm, !runWord_wf, !releaseLic_wf]

theorem execLicQuery_wf (f : WarpWord) : OutForm (execLicQuery f s) := by
  unfold execLicQuery
  grind -ring -linarith [ResForm, !runWord_wf, swrite_mem, modWg_mem]

theorem execLicenceTransferDone_wf (pair : Nat) : OutForm (execLicenceTransferDone pair s) := by
  unfold execLicenceTransferDone
  grind -ring -linarith [OutForm, !freeLic_wf, !licSettle_wf, modPair_mem]

theorem execLicenceIdleFree_wf (pair : Nat) : OutForm (execLicenceIdleFree pair s) := by
  unfold execLicenceIdleFree
  grind -ring -linarith [OutForm, !freeLic_wf]

theorem reraise_wf (pair g : Nat) (pinned releasing : Bool) : Memory.wf (reraise s pair g pinned releasing).mem = true := by
  unfold reraise
  grind -ring -linarith [raiseReq_wf, modPair_mem]

theorem execLicenceUrgentHandover_wf (pair : Nat) : OutForm (execLicenceUrgentHandover pair s) := by
  unfold execLicenceUrgentHandover
  grind -ring -linarith [OutForm, !reraise_wf, !handOver_wf]

theorem execTwSig_wf (f : WarpWord) : OutForm (execTwSig f s) := by
  unfold execTwSig
  grind -ring -linarith [ResForm, !runWord_wf, modPair_mem]

theorem execTwWait_wf (f : WarpWord) : OutForm (execTwWait f s) := by
  unfold execTwWait
  grind -ring -linarith [ResForm, !runWord_wf, !acquire_wf]

/-! ### Bundles of long-word threads (Machine/Longword) -/

theorem enterLw_wf (g w : Nat) (pc : Word64) : Memory.wf (enterLw s g w pc).mem = true := h

theorem unblockLw_wf (core : Nat) : Memory.wf (unblockLw s core).mem = true := by
  unfold unblockLw
  (repeat' split) <;> exact h

theorem execModeLw_wf (f : WarpWord) : OutForm (execModeLw f s) := by
  unfold execModeLw
  grind -ring -linarith [ResForm, !runWord_wf, blockFrag_mem, !enterLw_wf]

theorem execModeLwUnblock_wf (core : Nat) : OutForm (execModeLwUnblock core s) := by
  unfold execModeLwUnblock
  grind -ring -linarith [OutForm, !unblockLw_wf]

theorem scalarAccess_wf {s0 : State} (h0 : Memory.wf s0.mem = true) (c : LwCtx) (x : ScalarSlot) :
    ResForm (scalarAccess s0 s c x) := by
  unfold scalarAccess
  grind -ring -linarith [ResForm, CheckedForm, !checkLanes_wf, !loadFills_wf, !addLoad_wf, !lampFlush_wf, !issueStores_wf,
    !touchPlaces_wf, foldl_wf]

theorem tokenUp_wf (c : LwCtx) (tk : Option Nat) : Memory.wf (tokenUp s c tk).mem = true := by
  unfold tokenUp
  (repeat' split) <;> exact h

theorem lwAccess_wf {s0 : State} (h0 : Memory.wf s0.mem = true) (c : LwCtx) (e : EngineSlot) (tk : Option Nat) :
    ResForm (lwAccess s0 s c e tk) := by
  unfold lwAccess
  grind -ring -linarith [ResForm, CheckedForm, !checkLanes_wf, !loadFills_wf, !tokenUp_wf, !addLoad_wf, !touchPlaces_wf,
    !askPeers_wf, !issueStore_wf, !lampFlush_wf]

omit h in
theorem counted_wf (c : LwCtx) (tk : Option Nat) {r : Res} (hr : ResForm r) : ResForm (counted c tk r) := by
  unfold counted
  grind -ring -linarith [ResForm, !tokenUp_wf]

theorem lwMma_wf {s0 : State} (h0 : Memory.wf s0.mem = true) (c : LwCtx) (tk : Option Nat) (word ka kb : Word64) :
    ResForm (lwMma s0 s c tk word ka kb) := by
  unfold lwMma
  grind -ring -linarith [ResForm, !acceptAnv_wf, !tokenUp_wf, !raiseReq_wf]

theorem settleFirst_wf (g w : Nat) : OptForm (settleFirst s g w) := by
  unfold settleFirst
  grind -ring -linarith [OptForm, !tokenDone_wf, modWarp_mem, !barPlace_wf, modWg_mem, !askPieces_wf, !commitResv_wf,
    !pieceDone_wf]

theorem settlePend_wf (g w n : Nat) : Memory.wf (settlePend g w n s).mem = true := by
  induction n generalizing s with
  | zero => exact h
  | succ n ih => unfold settlePend; grind -ring -linarith [OptForm, !settleFirst_wf]

theorem settleEngines_wf : Memory.wf (settleEngines s).mem = true :=
  foldl_wf (fun _ _ h => settlePend_wf h _ _ _) h _

theorem pledge_wf (c : LwCtx) (tk : Option Nat) (d : LwDeed) : Memory.wf (pledge s c tk d).mem = true := by
  unfold pledge
  grind -ring -linarith [tokenUp_wf, modWarp_mem, settlePend_wf]

theorem lwArrive_wf (c : LwCtx) (b : Nat) (tk : Option Nat) : ResForm (lwArrive s c b tk) := by
  unfold lwArrive
  grind -ring -linarith [ResForm, !pledge_wf]

theorem lwBarWait_wf (c : LwCtx) (b : Nat) (tk : Option Nat) : ResForm (lwBarWait s c b tk) := by
  unfold lwBarWait
  grind -ring -linarith [ResForm, modWarp_mem, !tokenUp_wf]

theorem lwCommit_wf (s0 : State) (c : LwCtx) (addr k : Word64) (mod : BitVec 4) (tk : Option Nat) :
    ResForm (lwCommit s0 s c addr k mod tk) := by
  unfold lwCommit
  grind -ring -linarith [ResForm, !pledge_wf]

theorem engineDo_wf {s0 : State} (h0 : Memory.wf s0.mem = true) (c : LwCtx) (e : EngineSlot) :
    ResForm (engineDo s0 s c e) := by
  unfold engineDo
  grind -ring -linarith [ResForm, !counted_wf, !copyIssue_wf, !lwAccess_wf, !obResIssue_wf, !obFreeIssue_wf, !lwMma_wf,
    !anvZeroIssue_wf, !anvDrainIssue_wf, !anvLoadzIssue_wf, !lwArrive_wf, !lwBarWait_wf, !lwCommit_wf]

theorem swpTarget_wf (c : LwCtx) : CtlForm (swpTarget s c) := by
  unfold swpTarget
  grind -ring -linarith [CtlForm, CheckedForm, !checkLanes_wf, !addLate_wf, !loadFills_wf, foldl_wf]

theorem controlDo_wf (c : LwCtx) (k : ControlSlot) : CtlForm (controlDo s c k) := by
  unfold controlDo
  grind -ring -linarith [CtlForm, !swpTarget_wf]

theorem lwBoundary_wf (c : LwCtx) : OptOutForm (lwBoundary s c) := by
  unfold lwBoundary
  cases lwPending s c (fun _ => false) with
  | none => trivial
  | some t => simp only [Option.map_some]; grind -ring -linarith [OptOutForm, OutForm, FetchedForm, !fetchBundle_wf,
    !takeTrap_wf]

theorem execSafePointWatchdog_wf (g w : Nat) : OutForm (execSafePointWatchdog g w s) := by
  unfold execSafePointWatchdog
  grind -ring -linarith [OutForm, getD_next_wf, !lwBoundary_wf]

theorem lwHold_wf (c : LwCtx) (b : Bundle) : Memory.wf (lwHold s c b).mem = true := h

theorem acquireTokens_wf (c : LwCtx) (wait : BitVec 8) : Memory.wf (acquireTokens s c wait).mem = true := by
  unfold acquireTokens
  grind -ring -linarith [deliver_wf, modWarp_mem, acquire_wf, foldl_wf]

omit h in
theorem walking?_wf (who : Nat) {r : Res} (hr : ResForm r) : OptForm (walking? who r) := by
  unfold walking?
  grind -ring -linarith [OptForm, ResForm]

theorem afterBundle_wf (c : LwCtx) (b : Bundle) (e : CtlEffect) (fs : List Flight) :
    Memory.wf (afterBundle s c b e fs).mem = true := h

omit h in
theorem orElse_wf {a b : Option State} (ha : OptForm a) (hb : OptForm b) : OptForm (a <|> b) := by
  cases a with
  | none => exact hb
  | some t => exact ha

theorem issueBundle_wf (c : LwCtx) (b : Bundle) : OutForm (issueBundle s c b) := by
  have hctl := controlDo_wf h c b.control
  have hsca := scalarAccess_wf h h c b.scalar
  have heng := engineDo_wf h h c b.engine
  have heng' := fun (t : State) (ht : Memory.wf t.mem = true) => engineDo_wf ht h c b.engine
  unfold issueBundle
  generalize controlDo s c b.control = ctl at hctl ⊢
  generalize scalarAccess s s c b.scalar = sca at hsca ⊢
  simp only
  repeat' split
  case h_2.isFalse u _ hw _ =>
    have hu : OptForm (some u) := by
      rw [← hw]
      refine orElse_wf ?_ (orElse_wf (walking?_wf _ hsca) (walking?_wf _ heng))
      cases ctl with
      | hold u => exact walking?_wf _ hctl
      | _ => trivial
    exact lwHold_wf hu c b
  all_goals first
    | exact takeTrap_wf h ..
    | exact lwHold_wf h c b
    | grind -ring -linarith [OutForm, CtlForm, ResForm, lwHold_wf, loadFills_wf, afterBundle_wf, clearIssuer_mem]

theorem execBundleIssue_wf (b : Bundle) : OutForm (execBundleIssue b s) := by
  unfold execBundleIssue
  simp only
  repeat' split
  all_goals first
    | trivial
    | exact takeTrap_wf (s := setWarp _ _ _ _) h ..
    | exact takeTrap_wf (acquireTokens_wf (s := setWarp _ _ _ _) h ..) ..
    | exact lwHold_wf (s := setWarp _ _ _ _) h ..
    | exact issueBundle_wf (acquireTokens_wf (s := setWarp _ _ _ _) h ..) ..

theorem execResultLanding_wf (g w : Nat) : OutForm (execResultLanding g w s) := by
  unfold execResultLanding
  grind -ring -linarith [OutForm, setWarp_mem]

theorem execLwLdComplete_wf (id : Nat) : OutForm (execLwLdComplete id s) := by
  unfold execLwLdComplete
  grind -ring -linarith [OutForm, !landLoad_wf]

theorem execLwStComplete_wf (id : Nat) : OutForm (execLwStComplete id s) := by
  unfold execLwStComplete
  grind -ring -linarith [OutForm, !reapAll_wf, !performStore_wf]

theorem execModeSimtDrainDone_wf (g w : Nat) : OutForm (execModeSimtDrainDone g w s) := by
  unfold execModeSimtDrainDone
  grind -ring -linarith [OutForm, !unblockLw_wf, !wakeAll_wf, setWarp_mem]

/-! ### Lamp units (Machine/Lamp) -/

theorem execLampColdThreshold_wf (u : Nat) : OutForm (execLampColdThreshold u s) := by
  unfold execLampColdThreshold
  grind -ring -linarith [OutForm, setLamp_mem, !takePlace_wf]

theorem execLampWakeComplete_wf (u : Nat) : OutForm (execLampWakeComplete u s) := by
  unfold execLampWakeComplete
  grind -ring -linarith [OutForm, !wakeAll_wf, setLamp_mem]

theorem loseUnit_wf (u : Nat) : Memory.wf (loseUnit s u).mem = true := by
  unfold loseUnit
  grind -ring -linarith [zeroRange_wf]

theorem programCold_wf (v : Nat) : Memory.wf (programCold v s).mem = true := by
  unfold programCold
  (repeat' split) <;> exact h

theorem execLampRelease_wf (u : Nat) : OutForm (execLampRelease u s) := by
  unfold execLampRelease
  grind -ring -linarith [OutForm, setLamp_mem, !loseUnit_wf]

theorem execNearThresholdEnter_wf (core lg : Nat) : OutForm (execNearThresholdEnter core lg s) := by
  unfold execNearThresholdEnter
  grind -ring -linarith [OutForm, modLg_mem]

theorem execNearThresholdLeave_wf (core lg : Nat) : OutForm (execNearThresholdLeave core lg s) := by
  unfold execNearThresholdLeave
  grind -ring -linarith [OutForm, !leaveNear_wf]

/-! ### Regions (Machine/Regions) -/

theorem physAsk_wf (pa n : Nat) : Memory.wf (physAsk s pa n).mem = true := by
  unfold physAsk
  grind -ring -linarith [askAll_wf]

theorem askBlock_wf (addr : Nat) (k : RegionBlock) : Memory.wf (askBlock s addr k).mem = true := by
  unfold askBlock
  grind -ring -linarith [physAsk_wf]

theorem grantBank_wf (b : Nat) : Memory.wf (grantBank s b).mem = true := by
  unfold grantBank
  grind -ring -linarith [grantUnit_wf]

theorem grantBanks_wf (asid : Nat) (banks fresh : List Nat) : Memory.wf (grantBanks s asid banks fresh).mem = true := by
  unfold grantBanks
  grind -ring -linarith [grantBank_wf, foldl_wf]

theorem settleGrant_wf (r : Nat × List Nat) : Memory.wf (settleGrant s r).mem = true := by
  unfold settleGrant
  grind -ring -linarith [grantUnit_wf]

theorem settleGrants_wf : Memory.wf (settleGrants s).mem = true := by
  unfold settleGrants
  grind -ring -linarith [settleGrant_wf, foldl_wf]

theorem dropBanks_wf (banks : List Nat) : Memory.wf (dropBanks s banks).mem = true := h

theorem putContext_wf (asid : Nat) (d : BitVec 512) : Memory.wf (putContext s asid d).mem = true := h

theorem rcmdAnswer_wf (status : Nat) : Memory.wf (rcmdAnswer s status).mem = true := h

theorem activateRegion_wf (addr : Nat) : Memory.wf (activateRegion s addr).mem = true := by
  unfold activateRegion
  grind -ring -linarith [askBlock_wf, rcmdAnswer_wf, putContext_wf, grantBanks_wf]

theorem renumber_wf (old new : Nat) : Memory.wf (renumber s old new).mem = true := by
  unfold renumber
  (repeat' split) <;> exact h

theorem reown_wf : Memory.wf (reown s).mem = true := h

theorem reloadRegion_wf (addr : Nat) : Memory.wf (reloadRegion s addr).mem = true := by
  unfold reloadRegion
  grind -ring -linarith [freshFree_wf, rcmdAnswer_wf, askBlock_wf, renumber_wf, putContext_wf, dropBanks_wf, reown_wf,
    grantBanks_wf]

theorem deactivateRegion_wf (addr : Nat) : Memory.wf (deactivateRegion s addr).mem = true := by
  unfold deactivateRegion
  (repeat' split) <;> exact h

theorem rcmdWrite_wf (v : Word64) : Memory.wf (rcmdWrite v s).mem = true := by
  unfold rcmdWrite
  grind -ring -linarith [activateRegion_wf, reloadRegion_wf, deactivateRegion_wf]

theorem execActivate_wf (v : Word64) : OutForm (execActivate v s) := by
  unfold execActivate
  grind -ring -linarith [OutForm, !rcmdWrite_wf]

theorem execReload_wf (v : Word64) : OutForm (execReload v s) := by
  unfold execReload
  grind -ring -linarith [OutForm, !rcmdWrite_wf]

theorem execDeactivate_wf (v : Word64) : OutForm (execDeactivate v s) := by
  unfold execDeactivate
  grind -ring -linarith [OutForm, !rcmdWrite_wf]

theorem execRcmdComplete_wf : OutForm (execRcmdComplete s) := by
  unfold execRcmdComplete
  grind -ring -linarith [OutForm]

/-! ### Save and restore (Machine/Preempt) -/

theorem stopRequests_wf (g : Nat) : Memory.wf (stopRequests s g).mem = true := by
  unfold stopRequests
  grind -ring -linarith [modPair_mem, withdrawReq_wf]

theorem cancelWaits_wf (g : Nat) : Memory.wf (cancelWaits s g).mem = true := by
  unfold cancelWaits
  grind -ring -linarith [modWarp_mem, foldl_wf]

theorem stopWg_wf (park : Bool) (g : Nat) : Memory.wf (stopWg s park g).mem = true := by
  unfold stopWg
  grind -ring -linarith [cancelWaits_wf, stopRequests_wf, setWg_mem]

theorem execParkWorkgroup_wf (g : Nat) : OutForm (execParkWorkgroup g s) := by
  unfold execParkWorkgroup
  grind -ring -linarith [OutForm, !stopWg_wf, foldl_wf]

theorem moveBytes_wf (src dst n : Nat) : Memory.wf (moveBytes s src dst n).mem = true :=
  wf_copyRange _ _ _ _ h

theorem writeImage_wf (g : Nat) (x : Wg) (v : Saved) (image : Nat) : Memory.wf (writeImage s g x v image).mem = true := by
  unfold writeImage
  grind -ring -linarith [zeroRange_wf, askRange_wf, putNat_wf, moveBytes_wf, freshFree_wf, foldl_wf]

theorem drainWg_wf (g : Nat) : Memory.wf (drainWg s g).mem = true := by
  unfold drainWg
  grind -ring -linarith [performAcked_wf, xland_wf, landLoad_wf, foldl_wf]

theorem settleWarps_wf (g : Nat) : Memory.wf (settleWarps s g).mem = true := by
  unfold settleWarps
  grind -ring -linarith [drainWg_wf, modWarp_mem, foldl_wf]

theorem leaveCore_wf (g : Nat) (x : Wg) (park : Bool) (image : Nat) (v : Option Saved) :
    Memory.wf (leaveCore s g x park image v).mem = true := by
  unfold leaveCore
  grind -ring -linarith [modCore_mem, modLg_mem, modPair_mem, setWg_mem, foldl_wf]

theorem saveWg_wf (first g : Nat) : Memory.wf (saveWg s first g).mem = true := by
  unfold saveWg
  grind -ring -linarith [queueParked_wf, leaveCore_wf, writeImage_wf, releaseLic_wf]

theorem saveSet_wf (gs : List Nat) : Memory.wf (saveSet s gs).mem = true := by
  unfold saveSet
  grind -ring -linarith [settleWarps_wf, wakeAll_wf, saveWg_wf, foldl_wf]

theorem execPreemptSave_wf (g : Nat) : OutForm (execPreemptSave g s) := by
  unfold execPreemptSave
  grind -ring -linarith [OutForm, !saveSet_wf]

theorem poisonOut_wf (k : Nat) (grs : List Nat) : Memory.wf (poisonOut s k grs).mem = true := h

theorem placeClass_wf (g core old new : Nat) : Memory.wf (placeClass s g core old new).mem = true := by
  unfold placeClass
  grind -ring -linarith [pickFree_wf, setWarp_mem, foldl_wf]

theorem restoreWg_wf (g : Nat) (x : Wg) (image : Nat) (side : Side) : Memory.wf (restoreWg s g x image side).mem = true := by
  unfold restoreWg
  grind -ring -linarith [pickFree_wf, modWarp_mem, setWg_mem, placeClass_wf, grantUnit_wf, askRange_wf, poisonOut_wf,
    moveBytes_wf, modCore_mem, touch_wf, modPair_mem, foldl_wf]

theorem takeFlags_wf (g : Nat) (x : Wg) : Memory.wf (takeFlags s g x).mem = true := by
  unfold takeFlags
  (repeat' split) <;> exact h

theorem beginRestore_wf (g : Nat) (sides : List Side) : Memory.wf (beginRestore s g sides).mem = true := by
  unfold beginRestore
  grind -ring -linarith [restoreWg_wf, takeFlags_wf, foldl_wf]

theorem finishRestore_wf (gs : List Nat) : Memory.wf (finishRestore s gs).mem = true := by
  unfold finishRestore
  grind -ring -linarith [wakeAll_wf, modWg_mem, foldl_wf]

/-! ### Coopers (Machine/Cooper) -/

theorem execBatchTimerExpiry_wf (rnum node : Nat) : OutForm (execBatchTimerExpiry rnum node s) := by
  unfold execBatchTimerExpiry
  grind -ring -linarith [OutForm, !modRegion_wf]

theorem startWarps_wf (g core : Nat) (b : BitVec 1024) (s1 s2 s3 : Nat) (lgs : List Nat) :
    Memory.wf (startWarps s g core b s1 s2 s3 lgs).mem = true := by
  unfold startWarps
  grind -ring -linarith [pickFree_wf, startWarp_wf, foldl_wf]

theorem launchSide_wf (rnum node : Nat) (d : Node) (l : Launch) (g : Nat) (partner : Option Nat) (side : Side) :
    Memory.wf (launchSide s rnum node d l g partner side).mem = true := by
  unfold launchSide
  grind -ring -linarith [pickFree_wf, grantUnit_wf, dropK_wf, acquire_wf, setWg_mem, startWarps_wf, foldl_wf]

theorem launchNode_wf (rnum node : Nat) (sides : List Side) : Memory.wf (launchNode s rnum node sides).mem = true := by
  unfold launchNode
  grind -ring -linarith [launchSide_wf, modPair_mem, modNode_wf, modRegion_wf]

theorem place_wf (stack : Nat) (c : Candidate) (sides : List Side) : Memory.wf (place s stack c sides).mem = true := by
  unfold place
  grind -ring -linarith [launchNode_wf, beginRestore_wf]

theorem placeNow_wf (stack : Nat) (c : Candidate) (sides : List Side) : Memory.wf (placeNow s stack c sides).mem = true := by
  unfold placeNow
  grind -ring -linarith [takePlace_wf, place_wf]

theorem execWorkgroupPlace_wf (stack : Nat) : OutForm (execWorkgroupPlace stack s) := by
  unfold execWorkgroupPlace
  grind -ring -linarith [OutForm, !placeNow_wf]

theorem execWorkgroupRestore_wf (stack g : Nat) : OutForm (execWorkgroupRestore stack g s) := by
  unfold execWorkgroupRestore
  grind -ring -linarith [OutForm, !finishRestore_wf, !placeNow_wf]

theorem departed_wf (gs : List Nat) : Memory.wf (departed s gs).mem = true := by
  unfold departed
  grind -ring -linarith [setLamp_mem, leaveCore_wf, foldl_wf]

theorem restartDelay_wf (c : Candidate) : Memory.wf (restartDelay s c).mem = true := by
  unfold restartDelay
  grind -ring -linarith [modNode_wf, modWg_mem, foldl_wf]

theorem execPreemptVictims_wf (stack : Nat) (cand : Candidate) : OutForm (execPreemptVictims stack cand s) := by
  unfold execPreemptVictims
  grind -ring -linarith [OutForm, !departed_wf, !restartDelay_wf, !stopWg_wf, foldl_wf]

theorem execClusterPowerGate_wf (cluster : Nat) : OutForm (execClusterPowerGate cluster s) := by
  unfold execClusterPowerGate
  grind -ring -linarith [OutForm]

theorem discardBell_wf (who : Requester) : Memory.wf (discardBell s who).mem = true := h

theorem ringBell_wf (who : Requester) (word : Word64) : Memory.wf (ringBell who word s).mem = true := by
  unfold ringBell
  grind -ring -linarith [discardBell_wf]

theorem commitBell_wf (q : Ring) (asid a bytes : Nat) : Memory.wf (commitBell s q asid a bytes).mem = true := by
  unfold commitBell
  grind -ring -linarith [askAll_wf, contextWrite_wf, commitAll_wf]

theorem execDoorbellCommit_wf : OutForm (execDoorbellCommit s) := by
  unfold execDoorbellCommit
  grind -ring -linarith [OutForm, !discardBell_wf, !askPieces_wf, !modNode_wf, !pieceDone_wf, !commitBell_wf]

/-! ### Translation (Machine/Translate) -/

theorem setWalk_wf (id : Nat) (st : WalkState) : Memory.wf (setWalk s id st).mem = true := h

theorem endWalk_wf (id : Nat) : Memory.wf (endWalk s id).mem = true := h

theorem fillTlb_wf (core asid size va pa mtype : Nat) (r w x : Bool) :
    Memory.wf (fillTlb s core asid size va pa mtype r w x).mem = true := by
  unfold fillTlb
  grind -ring -linarith [tlbInsert_wf]

theorem execPageWalkComplete_wf (id : Nat) : OutForm (execPageWalkComplete id s) := by
  unfold execPageWalkComplete
  grind -ring -linarith [OutForm, !setWalk_wf, !walkReads_wf, !fillTlb_wf, !endWalk_wf]

theorem execAtsCompletion_wf (id : Nat) (r : AtsResult) : OutForm (execAtsCompletion id r s) := by
  unfold execAtsCompletion
  grind -ring -linarith [OutForm, !endWalk_wf, tlbInsert_wf, !setWalk_wf]

theorem execPriResponse_wf (id : Nat) (ok : Bool) : OutForm (execPriResponse id ok s) := by
  unfold execPriResponse
  grind -ring -linarith [OutForm]

theorem dropTlb_wf (p : Tlb → Bool) : Memory.wf (dropTlb s p).mem = true := h

theorem renewWindows_wf : Memory.wf (renewWindows s).mem = true := h

theorem tlbWrite_wf (stack : Nat) (v : Word64) : Memory.wf (tlbWrite stack v s).mem = true := by
  unfold tlbWrite
  grind -ring -linarith [renewWindows_wf, dropTlb_wf]

theorem execTlbInvalidateAll_wf (stack : Nat) (v : Word64) : OutForm (execTlbInvalidateAll stack v s) := by
  unfold execTlbInvalidateAll
  grind -ring -linarith [OutForm, !tlbWrite_wf]

theorem execTlbInvalidateAsid_wf (stack : Nat) (v : Word64) : OutForm (execTlbInvalidateAsid stack v s) := by
  unfold execTlbInvalidateAsid
  grind -ring -linarith [OutForm, !tlbWrite_wf]

theorem execTlbInvalidateRange_wf (stack : Nat) (v : Word64) : OutForm (execTlbInvalidateRange stack v s) := by
  unfold execTlbInvalidateRange
  grind -ring -linarith [OutForm, !tlbWrite_wf]

theorem rereadContexts_wf (all : Bool) (asid : Nat) : Memory.wf (rereadContexts s all asid).mem = true := h

theorem execTlbInvalidationComplete_wf (stack : Nat) : OutForm (execTlbInvalidationComplete stack s) := by
  unfold execTlbInvalidationComplete
  grind -ring -linarith [OutForm, !rereadContexts_wf]

theorem execAtsInvalidation_wf (pasid va len : Nat) : OutForm (execAtsInvalidation pasid va len s) := by
  unfold execAtsInvalidation
  grind -ring -linarith [OutForm, !dropTlb_wf]

theorem settleAts_wf : Memory.wf (settleAts s).mem = true := by
  unfold settleAts
  (repeat' split) <;> exact h

theorem writeFsrd_wf (stack : Nat) (v : Word64) : Memory.wf (writeFsrd stack v s).mem = true := h

theorem execFsrdWrite_wf (stack : Nat) (v : Word64) : OutForm (execFsrdWrite stack v s) := by
  unfold execFsrdWrite
  grind -ring -linarith [OutForm, !writeFsrd_wf]

/-! ### Links (Machine/Links) -/

theorem execAdmissionRequest_wf (link bytes tag : Nat) : OutForm (execAdmissionRequest link bytes tag s) := by
  unfold execAdmissionRequest
  grind -ring -linarith [OutForm, !admitReq_wf]

theorem granted_wf (link tag : Nat) : Memory.wf (granted s link tag).mem = true := by
  unfold granted
  (repeat' split) <;> exact h

theorem execAdmissionGrant_wf (link tag : Nat) : OutForm (execAdmissionGrant link tag s) := by
  unfold execAdmissionGrant
  grind -ring -linarith [OutForm, !granted_wf]

theorem execFlitReceive_wf (link : Nat) (fl : Flit) : OutForm (execFlitReceive link fl s) := by
  unfold execFlitReceive
  grind -ring -linarith [OutForm, !modLink_wf, !grantAll_wf, !admitReq_wf, !granted_wf]

theorem linkWork_wf : Memory.wf (linkWork s).mem = true := by
  unfold linkWork
  grind -ring -linarith [endReq_wf, foldl_wf]

theorem freeBool_wf : Memory.wf (freeBool s).2.mem = true := by
  unfold freeBool
  grind -ring -linarith [!freshFree_wf]

theorem cutLoad_wf (l : Load) (keys : List Nat) : Memory.wf (cutLoad s l keys).mem = true := by
  unfold cutLoad
  grind -ring -linarith [faultLoad_wf]

theorem cutStore_wf (e : Store) : Memory.wf (cutStore s e).mem = true := by
  unfold cutStore
  grind -ring -linarith [freeBool_wf, performStore_wf, tokenDone_wf, dropStore_wf]

theorem cutAtom_wf (a : Atom) : Memory.wf (cutAtom s a).mem = true := by
  unfold cutAtom
  grind -ring -linarith [freeBool_wf, applyAtom_wf, atomLate_wf]

theorem cutCopy_wf (c : Copy) : Memory.wf (cutCopy s c).mem = true := by
  unfold cutCopy
  grind -ring -linarith [engStore_wf, finishCopy_wf, recordSummary_wf]

theorem retirePeer_wf (p : Nat → Nat → Bool) : Memory.wf (retirePeer s p).mem = true := h

theorem cutWindows_wf (link : Nat) : Memory.wf (cutWindows s link).mem = true := h

theorem failLink_wf (link : Nat) : Memory.wf (failLink s link).mem = true := by
  unfold failLink
  grind -ring -linarith [linkWork_wf, cutWindows_wf, modLink_wf, cutLoad_wf, cutStore_wf, cutAtom_wf, cutCopy_wf,
    retirePeer_wf, reapAll_wf, foldl_wf]

theorem execLinkFailed_wf (link : Nat) : OutForm (execLinkFailed link s) := by
  unfold execLinkFailed
  grind -ring -linarith [OutForm, !failLink_wf]

theorem execNegativeAcknowledgement_wf (link seq : Nat) : OutForm (execNegativeAcknowledgement link seq s) := by
  unfold execNegativeAcknowledgement
  grind -ring -linarith [OutForm, !modLink_wf, freeze_mem, !failLink_wf]

theorem respond_wf (ls : List Nat) (pa n : Nat) (c : Completion) : Memory.wf (respond s ls pa n c).mem = true := by
  unfold respond
  grind -ring -linarith [pickFree_wf, askAdmission_wf, observe_mem]

theorem peerAtomic_wf (tag : PeerTag) (ls : List Nat) (pa op type : Nat) (data swap : Word64) :
    Memory.wf (peerAtomic s tag ls pa op type data swap).mem = true := by
  unfold peerAtomic
  grind -ring -linarith [respond_wf, askAll_wf, putCells_wf]

theorem servePeer_wf (tag : PeerTag) (pa : Nat) (op : PeerOp) : Memory.wf (servePeer s tag pa op).mem = true := by
  unfold servePeer
  grind -ring -linarith [touchAll_wf, askAll_wf, respond_wf, pocWrite_wf, peerAtomic_wf]

theorem peerWork_wf : Memory.wf (peerWork s).mem = true := by
  unfold peerWork
  grind -ring -linarith [servePeer_wf, lampLeave_wf, lampJoin_wf, foldl_wf]

theorem execPeerRequest_wf (tag : PeerTag) (pa : Nat) (op : PeerOp) : OutForm (execPeerRequest tag pa op s) := by
  unfold execPeerRequest
  grind -ring -linarith [OutForm, !servePeer_wf, lampJoin_wf]

theorem execLinkTrain_wf (link peer epoch : Nat) : OutForm (execLinkTrain link peer epoch s) := by
  unfold execLinkTrain
  grind -ring -linarith [OutForm, !failLink_wf, !modLink_wf, !retirePeer_wf]

/-! ### Power and the firmware boot (Machine/Power) -/

theorem modLgs_wf (p : Nat → Bool) (f : Lg → Lg) : Memory.wf (modLgs s p f).mem = true := by
  unfold modLgs
  exact h

theorem execCapw_wf (v : BitVec 16) : OutForm (execCapw v s) := by
  unfold execCapw
  grind -ring -linarith [OutForm, !modLgs_wf]

theorem execPlevelChange_wf (core lg level : Nat) : OutForm (execPlevelChange core lg level s) := by
  unfold execPlevelChange
  grind -ring -linarith [OutForm, modLg_mem]

theorem execSupplyDroop_wf (island : Nat) : OutForm (execSupplyDroop island s) := by
  unfold execSupplyDroop
  grind -ring -linarith [OutForm]

theorem execSupplyRecover_wf (island : Nat) : OutForm (execSupplyRecover island s) := by
  unfold execSupplyRecover
  grind -ring -linarith [OutForm]

theorem clampDie_wf (die : Nat) : Memory.wf (clampDie s die).mem = true := by
  unfold clampDie
  grind -ring -linarith [modLgs_wf]

theorem execThermalTrip_wf (die : Nat) : OutForm (execThermalTrip die s) := by
  unfold execThermalTrip
  grind -ring -linarith [OutForm, !clampDie_wf]

theorem execThermalTripEnd_wf (die : Nat) : OutForm (execThermalTripEnd die s) := by
  unfold execThermalTripEnd
  grind -ring -linarith [OutForm]

theorem runBellows_wf : Memory.wf (runBellows s).mem = true := by
  unfold runBellows
  (repeat' split) <;> exact h

theorem execBellowsWatchdogRestart_wf : OutForm (execBellowsWatchdogRestart s) := by
  unfold execBellowsWatchdogRestart
  grind -ring -linarith [OutForm, freeze_mem, !runBellows_wf]

theorem bootStep_wf : Memory.wf (bootStep s).mem = true := by
  unfold bootStep
  grind -ring -linarith [runBellows_wf]

theorem nodeRead_wf (reg : Nat) : Memory.wf (nodeRead reg s).mem = true := by
  unfold nodeRead
  (repeat' split) <;> exact h

/-! ### Observation and errors (Machine/Observe) -/

theorem nextFrag_wf (p : Warp) : Memory.wf (nextFrag p s).2.mem = true := by
  unfold nextFrag
  grind -ring -linarith [!pickFree_wf]

theorem codeOr_wf (c : Option Nat) : Memory.wf (codeOr c s).2.mem = true := by
  unfold codeOr
  grind -ring -linarith [!freshFree_wf]

theorem ordinal_wf (x : Wg) (l : Lw) : Memory.wf (ordinal s x l).2.mem = true := by
  unfold ordinal
  grind -ring -linarith [!freshFree_wf]

theorem sampleOf_wf (core lg k : Nat) (p : Warp) : Memory.wf (sampleOf s core lg k p).2.mem = true := by
  unfold sampleOf
  grind -ring -linarith [!ordinal_wf, !codeOr_wf, !nextFrag_wf]

theorem takeSample_wf (core lg : Nat) : Memory.wf (takeSample core lg s).mem = true := by
  unfold takeSample
  grind -ring -linarith [sampleOf_wf, modLg_mem]

theorem writeSamples_wf (n : Nat) : Memory.wf (writeSamples n s).mem = true := by
  induction n generalizing s with
  | zero => exact h
  | succ n ih => unfold writeSamples; grind -ring -linarith [lampJoin_wf, lampLeave_wf, touch_wf, pocWrite_wf]

theorem execSampleWrite_wf (core lg : Nat) : OutForm (execSampleWrite core lg s) := by
  unfold execSampleWrite
  grind -ring -linarith [OutForm, !takeSample_wf, !writeSamples_wf]

theorem settleSamples_wf : Memory.wf (settleSamples s).mem = true := by
  unfold settleSamples
  grind -ring -linarith [OutForm, execSampleWrite_wf, writeSamples_wf, foldl_wf]

theorem errorOf_wf (g w type sub origin space : Nat) (pc addr : Word64) :
    Memory.wf (errorOf s g w type sub origin space pc addr).mem = true := by
  unfold errorOf
  grind -ring -linarith [writeFaultRec_wf, reportFault_wf]

theorem Reader_report_wf (type sub : Nat) (u : Reader) : Memory.wf (Reader.report s type sub u).mem = true := by
  unfold Reader.report
  grind -ring -linarith [errorOf_wf, writeFaultRec_wf, reportFault_wf]

theorem countTransient_wf : Memory.wf (countTransient s).mem = true := by
  unfold countTransient
  grind -ring -linarith [freeze_mem]

theorem errorStep_wf (e : MemError) : Memory.wf (errorStep e s).mem = true := by
  unfold errorStep
  grind -ring -linarith [Reader_report_wf, markPoison_wf, countTransient_wf, errorOf_wf, modTile_wf, modWarp_mem]

theorem writeSampctl_wf (v : Word64) : Memory.wf (writeSampctl v s).mem = true := by
  unfold writeSampctl
  grind -ring -linarith

theorem execSampctlWrite_wf (v : Word64) : OutForm (execSampctlWrite v s) := by
  unfold execSampctlWrite
  grind -ring -linarith [OutForm, !writeSampctl_wf]

theorem execIcinv_wf : OutForm (execIcinv s) := by
  unfold execIcinv
  grind -ring -linarith [OutForm, dropAllI_wf]

theorem writeDbgctl_wf (v : Word64) : Memory.wf (writeDbgctl v s).mem = true := by
  unfold writeDbgctl
  grind -ring -linarith [dropAllI_wf]

theorem clearHist_wf (v : Word64) : Memory.wf (clearHist v s).mem = true := h

theorem execHclr_wf (v : Word64) : OutForm (execHclr v s) := by
  unfold execHclr
  grind -ring -linarith [OutForm, !clearHist_wf]

theorem unfreezeAll_wf : Memory.wf (unfreezeAll s).mem = true := h

theorem execUnfreeze_wf : OutForm (execUnfreeze s) := by
  unfold execUnfreeze
  grind -ring -linarith [OutForm, !unfreezeAll_wf]

/-! ### Checkpoints (Machine/Checkpoint) -/

theorem ckptEnd_wf (err mib : Nat) : Memory.wf (ckptEnd s err mib).mem = true := h

theorem ckptStopOne_wf (g : Nat) : OptForm (ckptStopOne s g) := by
  unfold ckptStopOne
  cases freeCkptBlock s <;> grind -ring -linarith [OptForm, !stopWg_wf, modWg_mem]

theorem foldlM_ckptStopOne_wf (gs : List Nat) : OptForm (gs.foldlM ckptStopOne s) := by
  induction gs generalizing s with
  | nil => exact h
  | cons g t ih =>
    rw [List.foldlM_cons]
    have hg := ckptStopOne_wf h g
    cases e : ckptStopOne s g with
    | none => trivial
    | some u => rw [e] at hg; exact ih hg

omit h in
theorem ckptStop_wf {q : State × Bool} (hq : Memory.wf q.1.mem = true) (g : Nat) : Memory.wf (ckptStop q g).1.mem = true := by
  unfold ckptStop
  grind -ring -linarith [OptForm, !foldlM_ckptStopOne_wf]

theorem ckptStopAll_wf : Memory.wf (ckptStopAll s).mem = true := by
  have hall : Memory.wf (s.wgs.foldl (fun q p => ckptStop q p.1) (s, true)).1.mem = true :=
    List.foldlRecOn (motive := fun q : State × Bool => Memory.wf q.1.mem = true) _ _ h fun q hq p _ => ckptStop_wf hq p.1
  unfold ckptStopAll
  grind -ring -linarith [!ckptEnd_wf]

theorem ckptBegin_wf (cmd : Nat) : Memory.wf (ckptBegin cmd s).mem = true := by
  unfold ckptBegin
  grind -ring -linarith [ckptEnd_wf, ckptStopAll_wf]

theorem execStart_wf : OutForm (execStart s) := by
  unfold execStart
  grind -ring -linarith [OutForm, !ckptBegin_wf]

theorem execRestore_wf : OutForm (execRestore s) := by
  unfold execRestore
  grind -ring -linarith [OutForm, !ckptBegin_wf]

theorem replaceCells_wf (mix : Bool) (p : Nat → Bool) (new : List Host.Cell) :
    Memory.wf (replaceCells s mix p new).mem = true :=
  wf_writeCells _ _ h

theorem copyAsks_wf (ok : Bool) : Memory.wf (copyAsks ok s).mem = true := by
  unfold copyAsks
  grind -ring -linarith [askRange_wf]

theorem ckptCopyTo_wf (ok : Bool) : Memory.wf (ckptCopyTo ok s).mem = true := by
  unfold ckptCopyTo
  grind -ring -linarith [replaceCells_wf, copyAsks_wf, ckptEnd_wf]

theorem ckptCopy_wf : Memory.wf (ckptCopy s).mem = true := by
  unfold ckptCopy
  grind -ring -linarith [ckptCopyTo_wf]

theorem ckptRevive_wf (q : Nat × Wg × List (Nat × Warp)) : Memory.wf (ckptRevive s q).mem = true := by
  unfold ckptRevive
  grind -ring -linarith [setWg_mem, foldl_wf]

theorem ckptReturnFrom_wf (ok : Bool) : Memory.wf (ckptReturnFrom ok s).mem = true := by
  unfold ckptReturnFrom
  grind -ring -linarith [replaceCells_wf, copyAsks_wf, ckptEnd_wf, ckptRevive_wf, foldl_wf]

theorem ckptReturn_wf : Memory.wf (ckptReturn s).mem = true := by
  unfold ckptReturn
  grind -ring -linarith [ckptReturnFrom_wf]

theorem moveBlock_wf : Memory.wf (moveBlock s).mem = true := by
  unfold moveBlock
  grind -ring -linarith [askRange_wf, endAccess_wf, askPeer_wf]

theorem ckptMove_wf (mib : Option Nat) : Memory.wf (ckptMove mib s).mem = true := by
  unfold ckptMove
  grind -ring -linarith [moveBlock_wf, ckptCopyTo_wf, ckptReturnFrom_wf, foldl_wf]

theorem ckptGoOn_wf : Memory.wf (ckptGoOn s).mem = true := by
  unfold ckptGoOn
  grind -ring -linarith [moveBlock_wf, ckptCopy_wf, ckptReturn_wf]

theorem execCheckpointDone_wf : OutForm (execCheckpointDone s) := by
  unfold execCheckpointDone
  grind -ring -linarith [OutForm, !ckptStopAll_wf, !ckptGoOn_wf]

/-! ### Firmware (Machine/Firmware) -/

theorem writeFwcmd_wf (v : Word64) : Memory.wf (writeFwcmd v s).mem = true := by
  unfold writeFwcmd
  grind -ring -linarith

theorem execUpdate_wf (v : Word64) : OutForm (execUpdate v s) := by
  unfold execUpdate
  grind -ring -linarith [OutForm, !writeFwcmd_wf]

theorem writeSlot_wf (fails : Bool) : Memory.wf (writeSlot s fails).mem = true := by
  unfold writeSlot
  grind -ring -linarith [replaceCells_wf, askRange_wf]

theorem execFirmwareUpdateDone_wf (status _version : Nat) : OutForm (execFirmwareUpdateDone status _version s) := by
  unfold execFirmwareUpdateDone
  grind -ring -linarith [OutForm, !freshFree_wf, !writeSlot_wf]

theorem execGetMeasurements_wf : OutForm (execGetMeasurements s) := by
  unfold execGetMeasurements
  grind -ring -linarith [OutForm]

/-! ### TDIs (Machine/Tdi) -/

theorem modTdi_wf (t : Nat) (f : Tdi → Tdi) : Memory.wf (modTdi s t f).mem = true := h

theorem execSpdmSessionStart_wf : OutForm (execSpdmSessionStart s) := by
  unfold execSpdmSessionStart
  grind -ring -linarith [OutForm]

theorem execSpdmHeartbeat_wf : OutForm (execSpdmHeartbeat s) := by
  unfold execSpdmHeartbeat
  grind -ring -linarith [OutForm]

theorem execIdeKm_wf (t : Nat) : OutForm (execIdeKm t s) := by
  unfold execIdeKm
  grind -ring -linarith [OutForm, !modTdi_wf]

theorem tdispAnswer_wf (ok : Bool) : Memory.wf (tdispAnswer s ok).mem = true := h

theorem execLockInterface_wf (t : Nat) : OutForm (execLockInterface t s) := by
  unfold execLockInterface
  grind -ring -linarith [OutForm, !tdispAnswer_wf, !modTdi_wf]

theorem execStartInterface_wf (t : Nat) : OutForm (execStartInterface t s) := by
  unfold execStartInterface
  grind -ring -linarith [OutForm, !tdispAnswer_wf, !modTdi_wf]

theorem barLoad_wf (l : Load) : Memory.wf (barLoad s l).mem = true := by
  unfold barLoad
  grind -ring -linarith [faultLoad_wf]

theorem barStore_wf (e : Store) : Memory.wf (barStore s e).mem = true := by
  unfold barStore
  grind -ring -linarith [tokenDone_wf, dropStore_wf]

theorem barTransfers_wf (as : List Nat) : Memory.wf (barTransfers s as).mem = true := by
  unfold barTransfers
  grind -ring -linarith [barLoad_wf, barStore_wf, refuseAtom_wf, foldl_wf]

theorem barWg_wf (g : Nat) : Memory.wf (barWg s g).mem = true := by
  unfold barWg
  grind -ring -linarith [killWg_wf]

theorem dropRing_wf (q : Ring) : Memory.wf (dropRing s q).mem = true := h

theorem barRegions_wf (as : List Nat) : Memory.wf (barRegions s as).mem = true := h

theorem tdiError_wf (t : Nat) : Memory.wf (tdiError s t).mem = true := by
  unfold tdiError
  grind -ring -linarith [modTdi_wf, barTransfers_wf, barWg_wf, barRegions_wf, reapAll_wf, dropRing_wf, foldl_wf]

theorem execStopInterface_wf (t : Nat) : OutForm (execStopInterface t s) := by
  unfold execStopInterface
  grind -ring -linarith [OutForm, !tdispAnswer_wf, !tdiError_wf]

theorem execIdeIntegrityFailure_wf (t : Nat) : OutForm (execIdeIntegrityFailure t s) := by
  unfold execIdeIntegrityFailure
  grind -ring -linarith [OutForm, !tdiError_wf]

theorem endSpdm_wf : Memory.wf (endSpdm s).mem = true := by
  unfold endSpdm
  grind -ring -linarith [modTdi_wf, tdiError_wf, foldl_wf]

theorem execEndSession_wf : OutForm (execEndSession s) := by
  unfold execEndSession
  grind -ring -linarith [OutForm, !endSpdm_wf]

theorem execKeyUpdate_wf (ok : Bool) : OutForm (execKeyUpdate ok s) := by
  unfold execKeyUpdate
  grind -ring -linarith [OutForm, !endSpdm_wf]

theorem execSpdmHeartbeatMissed_wf : OutForm (execSpdmHeartbeatMissed s) := by
  unfold execSpdmHeartbeatMissed
  grind -ring -linarith [OutForm, !endSpdm_wf]

theorem execTdiUnlockComplete_wf (t : Nat) : OutForm (execTdiUnlockComplete t s) := by
  unfold execTdiUnlockComplete
  grind -ring -linarith [OutForm, zeroRange_wf, !renewWindows_wf, !dropTlb_wf, !modTdi_wf, foldl_wf]

/-! ### Domains (Machine/Domains) -/

theorem domStart_wf (status : Nat) : Memory.wf (domStart s status).mem = true := h

theorem flushPage_wf (pg : Nat) : Memory.wf (flushPage s pg).mem = true := by
  unfold flushPage
  grind -ring -linarith [pocWrite_wf, foldl_wf]

theorem retagPage_wf (tag : Nat) : Memory.wf (retagPage s tag).mem = true := by
  unfold retagPage
  grind -ring -linarith [domStart_wf, flushPage_wf, zeroRange_wf]

theorem setHart_wf (hart d : Nat) : Memory.wf (setHart s hart d).mem = true := h

theorem reloadDomain_wf (d : Nat) : Memory.wf (reloadDomain s d).mem = true := by
  unfold reloadDomain
  grind -ring -linarith [domStart_wf]

theorem readTag_wf : Memory.wf (readTag s).mem = true := by
  unfold readTag
  (repeat' split) <;> exact h

theorem writeDomcmd_wf (v : Word64) : Memory.wf (writeDomcmd v s).mem = true := by
  unfold writeDomcmd
  grind -ring -linarith [retagPage_wf, setHart_wf, reloadDomain_wf, readTag_wf]

theorem execRetag_wf (v : Word64) : OutForm (execRetag v s) := by
  unfold execRetag
  grind -ring -linarith [OutForm, !writeDomcmd_wf]

theorem execSethart_wf (v : Word64) : OutForm (execSethart v s) := by
  unfold execSethart
  grind -ring -linarith [OutForm, !writeDomcmd_wf]

theorem execDomReload_wf (v : Word64) : OutForm (execDomReload v s) := by
  unfold execDomReload
  grind -ring -linarith [OutForm, !writeDomcmd_wf]

theorem execReadtag_wf (v : Word64) : OutForm (execReadtag v s) := by
  unfold execReadtag
  grind -ring -linarith [OutForm, !writeDomcmd_wf]

theorem execDomcmdComplete_wf : OutForm (execDomcmdComplete s) := by
  unfold execDomcmdComplete
  grind -ring -linarith [OutForm]

/-! ### The ports of the host and the harts (Machine/HostPort) -/

theorem bellWrite_wf (who : Requester) (off : Nat) (v : Word64) : Memory.wf (bellWrite who off v s).mem = true := by
  unfold bellWrite
  grind -ring -linarith [ringBell_wf]

theorem notifyWrite_wf (who : Requester) (j : Nat) (v : Word64) (add : Bool) :
    Memory.wf (notifyWrite who j v add s).mem = true := by
  unfold notifyWrite
  grind -ring -linarith [postNotify_wf]

theorem windowWrite_wf (i half : Nat) (v : Word64) : Memory.wf (windowWrite i half v s).mem = true := h

theorem tdiWrite_wf (t off : Nat) (v : Word64) : Memory.wf (tdiWrite t off v s).mem = true := by
  unfold tdiWrite
  grind -ring -linarith [tdiError_wf, modTdi_wf]

theorem stackWrite_wf (off : Nat) (v : Word64) : Memory.wf (stackWrite off v s).mem = true := by
  unfold stackWrite
  grind -ring -linarith [tlbWrite_wf, writeFsrd_wf]

theorem sampWrite_wf (off : Nat) (v : Word64) : Memory.wf (sampWrite off v s).mem = true := by
  unfold sampWrite
  grind -ring -linarith [writeSampctl_wf]

theorem trigWrite_wf (off : Nat) (v : Word64) : Memory.wf (trigWrite off v s).mem = true := by
  unfold trigWrite
  (repeat' split) <;> exact h

theorem recWrite_wf (off : Nat) (v : Word64) : Memory.wf (recWrite off v s).mem = true := by
  unfold recWrite
  (repeat' split) <;> exact h

theorem ckptWrite_wf (off : Nat) (v : Word64) : Memory.wf (ckptWrite off v s).mem = true := by
  unfold ckptWrite
  grind -ring -linarith [ckptBegin_wf]

theorem fwWrite_wf (off : Nat) (v : Word64) : Memory.wf (fwWrite off v s).mem = true := by
  unfold fwWrite
  grind -ring -linarith [writeFwcmd_wf]

theorem domWrite_wf (off : Nat) (v : Word64) : Memory.wf (domWrite off v s).mem = true := by
  unfold domWrite
  grind -ring -linarith [writeDomcmd_wf]

omit h in
theorem houseWrite_ind {P : State → Prop} (off : Nat) (v : Word64) {s : State} (h0 : P s) (h2 : P (writeDbgctl v s))
    (h3 : ∀ o, P (sampWrite o v s)) (h4 : ∀ o, P (trigWrite o v s)) (h5 : ∀ o, P (recWrite o v s)) (h6 : ∀ o, P (ckptWrite o
      v s))
    (h7 : ∀ o, P (fwWrite o v s)) : P (houseWrite off v s) := by
  unfold houseWrite
  generalize off / 0x1000 - 0x1000 = page
  simp only
  split
  · split
    · exact h2
    · exact h0
  · exact h3 _
  · exact h4 _
  · exact h5 _
  · exact h6 _
  · exact h7 _
  · exact h0

theorem houseWrite_wf (off : Nat) (v : Word64) : Memory.wf (houseWrite off v s).mem = true :=
  houseWrite_ind (P := fun t => Memory.wf t.mem = true) off v h (writeDbgctl_wf h v) (sampWrite_wf h · v) (trigWrite_wf h · v)
    (recWrite_wf h · v) (ckptWrite_wf h · v) (fwWrite_wf h · v)

theorem regWrite_wf (who : Requester) (off : Nat) (v : Word64) : Memory.wf (regWrite who off v s).mem = true := by
  unfold regWrite
  grind -ring -linarith [houseWrite_wf, tdiWrite_wf, rcmdWrite_wf, bellWrite_wf, stackWrite_wf, notifyWrite_wf,
    windowWrite_wf, domWrite_wf]

theorem answer_wf (c : Completion) : Memory.wf (answer s c).mem = true := h

theorem physRead_wf (as : List Nat) : Memory.wf (physRead s as).mem = true := by
  unfold physRead
  grind -ring -linarith [touchAll_wf, askAll_wf, answer_wf]

theorem vfWrite_wf (t off : Nat) (v : Word64) : Memory.wf (vfWrite t off v s).mem = true := by
  unfold vfWrite
  split
  · exact bellWrite_wf h ..
  · split
    · split
      · exact notifyWrite_wf h ..
      · exact h
    · exact h

theorem hartAtomic_wf (hart pa n op type : Nat) (data : Word64) :
    Memory.wf (hartAtomic s hart pa n op type data).mem = true := by
  unfold hartAtomic
  grind -ring -linarith [touchAll_wf, askAll_wf, answer_wf, putCells_wf]

theorem hartReserve_wf (hart pa n : Nat) : Memory.wf (hartReserve s hart pa n).mem = true := by
  unfold hartReserve
  grind -ring -linarith [physRead_wf]

theorem physWrite_wf (as : List Nat) (data : List Byte) : Memory.wf (physWrite s as data).mem = true := by
  unfold physWrite
  grind -ring -linarith [pocWrite_wf, touchAll_wf]

theorem hartConditional_wf (hart pa n : Nat) (data : List Byte) :
    Memory.wf (hartConditional s hart pa n data).mem = true := by
  unfold hartConditional
  grind -ring -linarith [freshFree_wf, answer_wf, physWrite_wf]

theorem writeReg_wf (who : Requester) (off : Nat) (v : Word64) : Memory.wf (writeReg who off v s).mem = true := by
  unfold writeReg
  grind -ring -linarith [vfWrite_wf, regWrite_wf]

theorem doPosted_wf (who : Requester) (p : Posted) : Memory.wf (doPosted s who p).mem = true := by
  unfold doPosted
  grind -ring -linarith [lampLeave_wf, answer_wf, physWrite_wf, writeReg_wf, physRead_wf, hartAtomic_wf, hartReserve_wf,
    hartConditional_wf]

theorem await_wf (who : Requester) (p : Posted) : Memory.wf (await s who p).mem = true := by
  unfold await
  grind -ring -linarith [lampJoin_wf]

theorem post_wf (who : Requester) (p : Posted) : Memory.wf (post s who p).mem = true := by
  unfold post
  grind -ring -linarith [doPosted_wf, await_wf]

theorem settlePosted_wf (qs : List (Requester × Posted)) : Memory.wf (settlePosted qs s).mem = true := by
  induction qs generalizing s with
  | nil => exact h
  | cons q t ih => exact ih (post_wf h q.1 q.2)

theorem postedWork_wf : Memory.wf (postedWork s).mem = true := by
  unfold postedWork
  grind -ring -linarith [settlePosted_wf]

theorem hostWrite_wf (who : Requester) (ide : Bool) (p : Posted) : Memory.wf (hostWrite who ide p s).mem = true := by
  unfold hostWrite
  grind -ring -linarith [answer_wf, post_wf]

theorem execRegisterWrite_wf (off : Nat) (v : Word64) : OutForm (execRegisterWrite off v s) := by
  unfold execRegisterWrite
  grind -ring -linarith [OutForm, !hostWrite_wf]

theorem execDoorbell_wf (sender : Sender) (word : Word64) : OutForm (execDoorbell sender word s) := by
  unfold execDoorbell
  grind -ring -linarith [OutForm, !hostWrite_wf]

theorem notifyPost_wf (who : Requester) (j : Nat) (v : Word64) (add ide : Bool) :
    Memory.wf (notifyPost who j v add ide s).mem = true := by
  unfold notifyPost
  grind -ring -linarith [answer_wf, hostWrite_wf]

theorem execNotifyWindowSet_wf (sender : Sender) (j : Nat) (v : Word64) : OutForm (execNotifyWindowSet sender j v s) := by
  unfold execNotifyWindowSet
  grind -ring -linarith [OutForm, !notifyPost_wf]

theorem execNotifyWindowAdd_wf (sender : Sender) (j : Nat) (v : Word64) : OutForm (execNotifyWindowAdd sender j v s) := by
  unfold execNotifyWindowAdd
  grind -ring -linarith [OutForm, !notifyPost_wf]

theorem execHostBarRead_wf (who : Requester) (bar off n : Nat) (ide : Bool) :
    OutForm (execHostBarRead who bar off n ide s) := by
  unfold execHostBarRead
  grind -ring -linarith [OutForm, !answer_wf, !post_wf]

theorem execHostBarWrite_wf (who : Requester) (bar off : Nat) (data : List Byte) (ide : Bool) :
    OutForm (execHostBarWrite who bar off data ide s) := by
  unfold execHostBarWrite
  grind -ring -linarith [OutForm, !answer_wf, !hostWrite_wf]

theorem execHostAtomicop_wf (who : Requester) (_bar _off : Nat) : OutForm (execHostAtomicop who _bar _off s) := by
  unfold execHostAtomicop
  grind -ring -linarith [OutForm, !answer_wf]

theorem execPcieLinkTrain_wf (width rate : Nat) : OutForm (execPcieLinkTrain width rate s) := by
  unfold execPcieLinkTrain
  grind -ring -linarith [OutForm]

theorem domainFault_wf (hart : Nat) (kind : FaultKind) (pa : Nat) : Memory.wf (domainFault s hart kind pa).mem = true := by
  unfold domainFault
  grind -ring -linarith [answer_wf, writeFaultRec_wf]

theorem hartMemory_wf (hart : Nat) (op : HartOp) (pa n : Nat) (data : List Byte) :
    Memory.wf (hartMemory s hart op pa n data).mem = true := by
  unfold hartMemory
  simp only
  split
  · exact domainFault_wf h ..
  · cases op with
    | fence | reset => exact h
    | _ => exact post_wf h ..

theorem hartControl_wf (hart : Nat) (op : HartOp) (off n : Nat) (data : List Byte) :
    Memory.wf (hartControl s hart op off n data).mem = true := by
  unfold hartControl
  grind -ring -linarith [answer_wf, post_wf]

theorem execHartAccess_wf (hart : Nat) (op : HartOp) (pa n : Nat) (data : List Byte) :
    OutForm (execHartAccess hart op pa n data s) := by
  unfold execHartAccess
  grind -ring -linarith [OutForm, !hartMemory_wf, !hartControl_wf, !answer_wf]

/-! ### Resets (Machine/Reset) -/

theorem resetAll_wf : Memory.wf (resetAll s).mem = true := 
  foldl_wf (fun _ _ h => clampDie_wf h _) (wf_filter _ _ h) _

theorem execPowerOnReset_wf : OutForm (execPowerOnReset s) := by
  unfold execPowerOnReset
  grind -ring -linarith [OutForm, !resetAll_wf]

theorem execPcieFundamentalReset_wf : OutForm (execPcieFundamentalReset s) := by
  unfold execPcieFundamentalReset
  grind -ring -linarith [OutForm, !resetAll_wf]

theorem execVfFlr_wf (t : Nat) : OutForm (execVfFlr t s) := by
  unfold execVfFlr
  grind -ring -linarith [OutForm, !tdiError_wf, !dropRing_wf, !modTdi_wf, foldl_wf]

/-! ### Every instruction (Machine/Dispatch) -/

theorem exec_wf (i : Instr) : OutForm (exec i s) :=
  match i with
  | .nop f => execNop_wf h f
  | .bra f => execBra_wf h f
  | .brx f => execBrx_wf h f
  | .join f => execJoin_wf h f
  | .call f => execCall_wf h f
  | .ret f => execRet_wf h f
  | .exit f => execExit_wf h f
  | .yield f => execYield_wf h f
  | .sleep f => execSleep_wf h f
  | .sleepExpiry g w e => execSleepExpiry_wf h g w e
  | .ballot f => execBallot_wf h f
  | .vote f => execVote_wf h f
  | .mskOp f => execMskOp_wf h f
  | .mskSave f => execMskSave_wf h f
  | .mskWset f => execMskWset_wf h f
  | .popcM f => execPopcM_wf h f
  | .firstM f => execFirstM_wf h f
  | .leader f => execLeader_wf h f
  | .shfl f => execShfl_wf h f
  | .bcast f => execBcast_wf h f
  | .lscan f => execLscan_wf h f
  | .lred f => execLred_wf h f
  | .getsr f => execGetsr_wf h f
  | .setsr f => execSetsr_wf h f
  | .modeLw f => execModeLw_wf h f
  | .modeLwUnblock core => execModeLwUnblock_wf h core
  | .iadd f => execIadd_wf h f
  | .isub f => execIsub_wf h f
  | .iaddc f => execIaddc_wf h f
  | .imul f => execImul_wf h f
  | .imulh f => execImulh_wf h f
  | .imad f => execImad_wf h f
  | .imin f => execImin_wf h f
  | .imax f => execImax_wf h f
  | .iabsd f => execIabsd_wf h f
  | .ishl f => execIshl_wf h f
  | .ishr f => execIshr_wf h f
  | .ishra f => execIshra_wf h f
  | .fshf f => execFshf_wf h f
  | .bool3 f => execBool3_wf h f
  | .bfx f => execBfx_wf h f
  | .bfi f => execBfi_wf h f
  | .clz f => execClz_wf h f
  | .popc f => execPopc_wf h f
  | .brev f => execBrev_wf h f
  | .icmp f => execIcmp_wf h f
  | .sel f => execSel_wf h f
  | .idp4 f => execIdp4_wf h f
  | .mov f => execMov_wf h f
  | .movi f => execMovi_wf h f
  | .bysel f => execBysel_wf h f
  | .fadd f => execFadd_wf h f
  | .fsub f => execFsub_wf h f
  | .fmul f => execFmul_wf h f
  | .ffma f => execFfma_wf h f
  | .fmin f => execFmin_wf h f
  | .fmax f => execFmax_wf h f
  | .fcmp f => execFcmp_wf h f
  | .frcp f => execFrcp_wf h f
  | .frsq f => execFrsq_wf h f
  | .fsqrt f => execFsqrt_wf h f
  | .fdiv f => execFdiv_wf h f
  | .fexp2 f => execFexp2_wf h f
  | .flog2 f => execFlog2_wf h f
  | .fsinpi f => execFsinpi_wf h f
  | .fcospi f => execFcospi_wf h f
  | .ftanh f => execFtanh_wf h f
  | .fclass f => execFclass_wf h f
  | .frnd f => execFrnd_wf h f
  | .fscale f => execFscale_wf h f
  | .cvt f => execCvt_wf h f
  | .pack f => execPack_wf h f
  | .unpack f => execUnpack_wf h f
  | .qblk f => execQblk_wf h f
  | .dqblk f => execDqblk_wf h f
  | .sadd f => execSadd_wf h f
  | .ssub f => execSsub_wf h f
  | .smul f => execSmul_wf h f
  | .smulh f => execSmulh_wf h f
  | .sand f => execSand_wf h f
  | .sor f => execSor_wf h f
  | .sxor f => execSxor_wf h f
  | .sshl f => execSshl_wf h f
  | .sshr f => execSshr_wf h f
  | .sshra f => execSshra_wf h f
  | .smin f => execSmin_wf h f
  | .smax f => execSmax_wf h f
  | .scmp f => execScmp_wf h f
  | .ssel f => execSsel_wf h f
  | .smov f => execSmov_wf h f
  | .sli f => execSli_wf h f
  | .sld f => execSld_wf h f
  | .sst f => execSst_wf h f
  | .sbfx f => execSbfx_wf h f
  | .sclz f => execSclz_wf h f
  | .spopc f => execSpopc_wf h f
  | .v2s f => execV2s_wf h f
  | .ld f => execLd_wf h f
  | .loadLands id => execLoadLands_wf h id
  | .st f => execSt_wf h f
  | .pref f => execPref_wf h f
  | .cctl f => execCctl_wf h f
  | .hflush f => execHflush_wf h f
  | .hinv f => execHinv_wf h f
  | .hinvComplete g w e => execHinvComplete_wf h g w e
  | .phase f => execPhase_wf h f
  | .padq f => execPadq_wf h f
  | .atom f => execAtom_wf h f
  | .atomCas f => execAtomCas_wf h f
  | .red f => execRed_wf h f
  | .atomicRequest id => execAtomicRequest_wf h id
  | .dedupAck id => execDedupAck_wf h id
  | .fence f => execFence_wf h f
  | .barInit f => execBarInit_wf h f
  | .barArrive f => execBarArrive_wf h f
  | .barWait f => execBarWait_wf h f
  | .barSync f => execBarSync_wf h f
  | .barQuery f => execBarQuery_wf h f
  | .barrierPhaseComplete g b => execBarrierPhaseComplete_wf h g b
  | .banklock f => execBanklock_wf h f
  | .banklockSpanEnd core g w => execBanklockSpanEnd_wf h core g w
  | .tlwait f => execTlwait_wf h f
  | .tlread f => execTlread_wf h f
  | .copyT f => execCopyT_wf h f
  | .copyL f => execCopyL_wf h f
  | .copyG f => execCopyG_wf h f
  | .copyFill f => execCopyFill_wf h f
  | .copyStat f => execCopyStat_wf h f
  | .copyComplete id => execCopyComplete_wf h id
  | .copyFault id => execCopyFault_wf h id
  | .obRes f => execObRes_wf h f
  | .obResZeroDone id => execObResZeroDone_wf h id
  | .obFree f => execObFree_wf h f
  | .obFreeRelease id => execObFreeRelease_wf h id
  | .anvMma f => execAnvMma_wf h f
  | .anvStepStart id => execAnvStepStart_wf h id
  | .anvStepCommit id => execAnvStepCommit_wf h id
  | .anvZero f => execAnvZero_wf h f
  | .anvZeroComplete id => execAnvZeroComplete_wf h id
  | .anvDrain f => execAnvDrain_wf h f
  | .anvDrainComplete id => execAnvDrainComplete_wf h id
  | .anvLoadz f => execAnvLoadz_wf h f
  | .anvLoadzComplete id => execAnvLoadzComplete_wf h id
  | .anvFault id => execAnvFault_wf h id
  | .gangSet f => execGangSet_wf h f
  | .licAcq f => execLicAcq_wf h f
  | .licRel f => execLicRel_wf h f
  | .licQuery f => execLicQuery_wf h f
  | .licenceTransferDone pair => execLicenceTransferDone_wf h pair
  | .licenceIdleFree pair => execLicenceIdleFree_wf h pair
  | .licenceUrgentHandover pair => execLicenceUrgentHandover_wf h pair
  | .twSig f => execTwSig_wf h f
  | .twWait f => execTwWait_wf h f
  | .recAlloc f => execRecAlloc_wf h f
  | .recCommit f => execRecCommit_wf h f
  | .recAbort f => execRecAbort_wf h f
  | .recInfo f => execRecInfo_wf h f
  | .spawn f => execSpawn_wf h f
  | .pendingSpawnStart core => execPendingSpawnStart_wf h core
  | .regGive f => execRegGive_wf h f
  | .regClaim f => execRegClaim_wf h f
  | .ntfPost f => execNtfPost_wf h f
  | .ntfWait f => execNtfWait_wf h f
  | .trap f => execTrap_wf h f
  | .brk f => execBrk_wf h f
  | .trapRet f => execTrapRet_wf h f
  | .vary f => execVary_wf h f
  | .bundleIssue b => execBundleIssue_wf h b
  | .resultLanding g w => execResultLanding_wf h g w
  | .lwLdComplete id => execLwLdComplete_wf h id
  | .lwStComplete id => execLwStComplete_wf h id
  | .modeSimtDrainDone g w => execModeSimtDrainDone_wf h g w
  | .safePointWatchdog g w => execSafePointWatchdog_wf h g w
  | .limewashGranuleClear core lg => execLimewashGranuleClear_wf h core lg
  | .lampColdThreshold u => execLampColdThreshold_wf h u
  | .lampWakeComplete u => execLampWakeComplete_wf h u
  | .lampRelease u => execLampRelease_wf h u
  | .nearThresholdEnter core lg => execNearThresholdEnter_wf h core lg
  | .nearThresholdLeave core lg => execNearThresholdLeave_wf h core lg
  | .parkWorkgroup g => execParkWorkgroup_wf h g
  | .batchTimerExpiry rnum node => execBatchTimerExpiry_wf h rnum node
  | .workgroupPlace stack => execWorkgroupPlace_wf h stack
  | .preemptVictims stack cand => execPreemptVictims_wf h stack cand
  | .preemptSave g => execPreemptSave_wf h g
  | .workgroupRestore stack g => execWorkgroupRestore_wf h stack g
  | .activate v => execActivate_wf h v
  | .reload v => execReload_wf h v
  | .deactivate v => execDeactivate_wf h v
  | .doorbell sender word => execDoorbell_wf h sender word
  | .trapEntry g w => execTrapEntry_wf h g w
  | .lateFault id cause sub => execLateFault_wf h id cause sub
  | .pageWalkComplete id => execPageWalkComplete_wf h id
  | .atsCompletion id r => execAtsCompletion_wf h id r
  | .priResponse id ok => execPriResponse_wf h id ok
  | .atsInvalidation pasid va len => execAtsInvalidation_wf h pasid va len
  | .tlbInvalidateAll stack v => execTlbInvalidateAll_wf h stack v
  | .tlbInvalidateAsid stack v => execTlbInvalidateAsid_wf h stack v
  | .tlbInvalidateRange stack v => execTlbInvalidateRange_wf h stack v
  | .tlbInvalidationComplete stack => execTlbInvalidationComplete_wf h stack
  | .fsrdWrite stack v => execFsrdWrite_wf h stack v
  | .hostBarRead who bar off n ide => execHostBarRead_wf h who bar off n ide
  | .hostBarWrite who bar off data ide => execHostBarWrite_wf h who bar off data ide
  | .hostAtomicop who bar off => execHostAtomicop_wf h who bar off
  | .pcieLinkTrain width rate => execPcieLinkTrain_wf h width rate
  | .lockInterface t => execLockInterface_wf h t
  | .stopInterface t => execStopInterface_wf h t
  | .ideIntegrityFailure t => execIdeIntegrityFailure_wf h t
  | .keyUpdate ok => execKeyUpdate_wf h ok
  | .tdiUnlockComplete t => execTdiUnlockComplete_wf h t
  | .flitReceive link fl => execFlitReceive_wf h link fl
  | .negativeAcknowledgement link seq => execNegativeAcknowledgement_wf h link seq
  | .linkFailed link => execLinkFailed_wf h link
  | .admissionRequest link bytes tag => execAdmissionRequest_wf h link bytes tag
  | .admissionGrant link tag => execAdmissionGrant_wf h link tag
  | .peerRequest tag pa op => execPeerRequest_wf h tag pa op
  | .linkTrain link peer epoch => execLinkTrain_wf h link peer epoch
  | .hartAccess hart op pa n data => execHartAccess_wf h hart op pa n data
  | .retag v => execRetag_wf h v
  | .sethart v => execSethart_wf h v
  | .domReload v => execDomReload_wf h v
  | .readtag v => execReadtag_wf h v
  | .notifyWindowSet sender j v => execNotifyWindowSet_wf h sender j v
  | .notifyWindowAdd sender j v => execNotifyWindowAdd_wf h sender j v
  | .capw v => execCapw_wf h v
  | .plevelChange core lg level => execPlevelChange_wf h core lg level
  | .supplyDroop island => execSupplyDroop_wf h island
  | .supplyRecover island => execSupplyRecover_wf h island
  | .thermalTrip die => execThermalTrip_wf h die
  | .thermalTripEnd die => execThermalTripEnd_wf h die
  | .sampleWrite core lg => execSampleWrite_wf h core lg
  | .sampctlWrite v => execSampctlWrite_wf h v
  | .hclr v => execHclr_wf h v
  | .update v => execUpdate_wf h v
  | .firmwareUpdateDone status version => execFirmwareUpdateDone_wf h status version
  | .vfFlr t => execVfFlr_wf h t
  | .registerWrite off v => execRegisterWrite_wf h off v
  | .storePerformed id => execStorePerformed_wf h id
  | .clusterPowerGate cluster => execClusterPowerGate_wf h cluster
  | .startInterface t => execStartInterface_wf h t
  | .ideKm t => execIdeKm_wf h t
  | .doorbellCommit => execDoorbellCommit_wf h
  | .endSession => execEndSession_wf h
  | .spdmHeartbeatMissed => execSpdmHeartbeatMissed_wf h
  | .getMeasurements => execGetMeasurements_wf h
  | .bellowsWatchdogRestart => execBellowsWatchdogRestart_wf h
  | .icinv => execIcinv_wf h
  | .unfreeze => execUnfreeze_wf h
  | .start => execStart_wf h
  | .restore => execRestore_wf h
  | .checkpointDone => execCheckpointDone_wf h
  | .powerOnReset => execPowerOnReset_wf h
  | .pcieFundamentalReset => execPcieFundamentalReset_wf h
  | .spdmSessionStart => execSpdmSessionStart_wf h
  | .spdmHeartbeat => execSpdmHeartbeat_wf h
  | .rcmdComplete => execRcmdComplete_wf h
  | .domcmdComplete => execDomcmdComplete_wf h

/-! ### Issue and turns (Machine/Issue) -/

theorem illegalWord_wf (i : Issuer) (w ext : Word64) (sub : Nat) : OutForm (illegalWord s i w ext sub) := by
  unfold illegalWord
  grind -ring -linarith [OutForm, !takeTrap_wf]

omit h in
theorem stamp_wf (i : Issuer) (ins : Instr) {o : Out} (ho : OutForm o) : OutForm (stamp s i ins o) := by
  unfold stamp
  grind -ring -linarith [OutForm, !xissue_wf]

theorem runFetched_wf (i : Issuer) (v : Nat) : OutForm (runFetched s i v) := by
  unfold runFetched
  grind -ring -linarith [OutForm, !stamp_wf, !exec_wf, !illegalWord_wf]

theorem runFirst_wf (i : Issuer) (v : Nat) (t : Trap) : OutForm (runFirst s i v t) := by
  unfold runFirst
  simp only
  repeat' split
  all_goals first | exact h | exact illegalWord_wf h .. | exact takeTrap_wf h .. | exact exec_wf h ..

theorem issueWord_wf (x : Wg) (i : Issuer) : OutForm (issueWord s x i) := by
  unfold issueWord
  grind -ring -linarith [OutForm, FetchedForm, !fetchWord_wf, !takeTrap_wf, !runFirst_wf, !runFetched_wf]

theorem issueThread_wf (x : Wg) (i : Issuer) : OutForm (issueThread s x i) := by
  unfold issueThread
  grind -ring -linarith [OutForm, FetchedForm, OptOutForm, !lwBoundary_wf, !fetchBundle_wf, !takeTrap_wf, !exec_wf]

theorem standOrTrap_wf (i : Issuer) {o : Out} (ho : OutForm o) : OutForm (standOrTrap s i o) := by
  unfold standOrTrap
  grind -ring -linarith [OutForm, modWarp_mem, modWg_mem]

theorem attempt_wf (i : Issuer) : OutForm (attempt s i) := by
  unfold attempt
  grind -ring -linarith [OutForm, OptOutForm, !leaveNear_wf, !takeTrap_wf, !standOrTrap_wf, !issueThread_wf,
    !boundaryTrap_wf, !issueWord_wf, !serveAlloc_wf]

theorem tryAll_wf (cs : List Cand) : SlotForm (tryAll cs s) := by
  induction cs generalizing s with
  | nil => exact h
  | cons c t ih => unfold tryAll; grind -ring -linarith [SlotForm, OutForm, !attempt_wf]

theorem growOlder_wf (c : Cand) : Memory.wf (growOlder s c).mem = true := h

theorem issueSlot_wf (core lg : Nat) : OutForm (issueSlot core lg s) := by
  unfold issueSlot
  grind -ring -linarith [OutForm, SlotForm, modLg_mem, !tryAll_wf, !growOlder_wf, foldl_wf]

theorem advanceClock_wf (n : Nat) : Memory.wf (advanceClock n s).mem = true := by
  induction n generalizing s with
  | zero => exact h
  | succ n ih => unfold advanceClock; grind -ring -linarith [foldl_wf, !settleSamples_wf, !completePhase_wf]

theorem freshLamps_wf : Memory.wf (freshLamps s).mem = true := by
  unfold freshLamps
  (repeat' split) <;> exact h

theorem tick_wf (n : Nat) : Memory.wf (tick n s).mem = true := by
  unfold tick
  grind -ring -linarith [settleAts_wf, linkWork_wf, peerWork_wf, postedWork_wf, settleEnds_wf, settleGrants_wf, formAll_wf,
    settleEngines_wf, freshLamps_wf, xdue_wf, advanceClock_wf]

theorem takeTurn_wf (t : Turn) : OutForm (takeTurn t s) := by
  unfold takeTurn
  grind -ring -linarith [OutForm, !issueSlot_wf, !tick_wf, !exec_wf, !copyPart_wf, !programCold_wf, !errorStep_wf,
    !bootStep_wf, !nodeRead_wf, !ckptMove_wf]

theorem firstChange_wf (is : List Instr) : OptForm (firstChange s is) := by
  induction is with
  | nil => trivial
  | cons i t ih => unfold firstChange; grind -ring -linarith [OptForm, OutForm, !exec_wf]

theorem firstIssue_wf (qs : List (Nat × Nat)) : Memory.wf (firstIssue s qs).2.mem = true := by
  induction qs generalizing s with
  | nil => exact h
  | cons q t ih => unfold firstIssue; grind -ring -linarith [OutForm, !issueSlot_wf]

theorem idleTurn_wf {t : State} (e : idleTurn s = .next t) : Memory.wf t.mem = true := by
  have hi := firstIssue_wf (tick_wf h 1) (busyLgs (tick 1 s))
  unfold idleTurn at e
  generalize firstIssue (tick 1 s) (busyLgs (tick 1 s)) = r at hi e
  obtain ⟨b, u⟩ := r
  have hc := firstChange_wf hi (ownSteps u)
  have hb := bootStep_wf hi
  cases b with
  | true => cases e; exact hi
  | false =>
    cases hf : firstChange u (ownSteps u) with
    | none => simp only [hf] at e; cases e; exact hb
    | some v => rw [hf] at hc; simp only [hf] at e; cases e; exact hc

theorem turn_wf {t : State} (e : turn s = .next t) : Memory.wf t.mem = true := by
  unfold turn at e
  split at e
  · next q rest _ =>
    have hq := takeTurn_wf (s := { s with sched := rest }) h q
    rw [e] at hq
    exact hq
  · exact idleTurn_wf (s := { s with issuer := none }) h e

/-! ### The step (Machine/Step) -/

theorem step_wf {t : State} (e : step s = .next t) : Memory.wf t.mem = true :=
  turn_wf h e

end

/-- Settles O56: every function of the model that gives a state keeps the form, the step among them. -/
theorem stepKeepsMemoryForm : Obligations.StepKeepsMemoryForm :=
  fun _ _ h e => step_wf h e

end Sys2Proof.CanonicalMemory
end

section
/-!
Loads and stores and the bytes at the points of coherence (07 R193, R194, 05 R138, 08 R211, R233): what their issue leaves as it was,
and what the performance of a store writes.
-/

namespace Sys2Proof.LoadStoreFrame
open Sys2Proof.Machine Sys2Proof.SliceMemory Sys2Proof.SliceFrame Sys2Proof.MemoryClass Sys2Proof.RegisterFrame

/-! ### A byte that slices move to and fro -/

/-- A line of the cached view of host memory that a slice may hold: one of the bus, or one beyond it that nothing has written. -/
def Tame (p : Nat × Bool) : Prop := p.1 < 2 ^ 57 ∨ (p.1 < 2 ^ 59 ∧ p.2 = false)

/-- The byte of key k at its point of coherence is b, and stays so while slices bring in and replace lines: what a slice holds of it the
host has too, or is to get; and what the host has of it no slice has written. -/
structure View (s : State) (k : Nat) (b : Byte) : Prop where
  byte : pocByte s k = b
  form : Memory.wf s.mem = true
  tame : ∀ p ∈ s.hostLines, Tame p
  slice : isHostDev k = true → hostHeld s (hostLine k) = true →
    (hostLine k, true) ∈ s.hostLines ∨ readByte s.mem (k - 2 ^ 65) = readByte s.mem k
  host : 2 ^ 65 ≤ k → k < 2 ^ 66 → (hostLine (k + 2 ^ 65), true) ∉ s.hostLines

/-- In canonical form every key is listed once. -/
theorem inPlace_of_wf {m : List Host.Cell} (k : Nat) (h : Memory.wf m = true) : inPlace k m :=
  ((wf_iff m).mp h).1.imp fun hab hb => hb ▸ hab

section Keys
variable {s t : State} {k l q : Nat} {b : Byte}

theorem pocByte_host (hdev : isHostDev k = true) (s : State) :
    pocByte s k = if hostHeld s (hostLine k) then readByte s.mem k else readByte s.mem (k - 2 ^ 65) := by
  have := isHostDev_le hdev
  have hkey : k - 2 ^ 66 + 2 ^ 65 = k - 2 ^ 65 := by omega
  rw [pocByte, hdev, hkey]
  cases hostHeld s (hostLine k) <;> simp

theorem pocByte_other (hdev : isHostDev k = false) (s : State) : pocByte s k = readByte s.mem k := by
  rw [pocByte, hdev]
  rfl

/-- What a steady byte of a state in canonical form comes with. -/
theorem View.of_steady (hform : Memory.wf s.mem = true) (hlines : ∀ p ∈ s.hostLines, p.1 < 2 ^ 57) (h : steady s k) :
    View s k (pocByte s k) := by
  obtain ⟨hslice, hhost⟩ := h
  exact ⟨rfl, hform, fun p hp => .inl (hlines p hp), hslice,
    fun hlo hhi hmem => (hhost hlo hhi (hostHeld_of_mem hmem)).1 hmem⟩

/-- A step keeps the view of a byte where it leaves its cells and its line as they are. -/
theorem View.transfer (h : View s k b) (hform : Memory.wf t.mem = true) (hread : readByte t.mem k = readByte s.mem k)
    (hback : isHostDev k = true → readByte t.mem (k - 2 ^ 65) = readByte s.mem (k - 2 ^ 65))
    (hheld : isHostDev k = true → hostHeld t (hostLine k) = hostHeld s (hostLine k))
    (hdirty : isHostDev k = true → (hostLine k, true) ∈ s.hostLines → (hostLine k, true) ∈ t.hostLines)
    (htame : ∀ p ∈ t.hostLines, Tame p)
    (hclean : 2 ^ 65 ≤ k → k < 2 ^ 66 → (hostLine (k + 2 ^ 65), true) ∈ t.hostLines → (hostLine (k + 2 ^ 65), true) ∈ s.hostLines) :
    View t k b := by
  obtain ⟨hbyte, -, -, hslice, hhost⟩ := h
  refine ⟨hbyte ▸ ?_, hform, htame, fun hdev hh => ?_, fun hlo hhi hmem => hhost hlo hhi (hclean hlo hhi hmem)⟩
  · cases hdev : isHostDev k with
    | true => rw [pocByte_host hdev, pocByte_host hdev, hheld hdev, hread, hback hdev]
    | false => rw [pocByte_other hdev, pocByte_other hdev, hread]
  · rw [hread, hback hdev]
    exact (hslice hdev (hheld hdev ▸ hh)).imp_left (hdirty hdev)

theorem View.of_sameView (h : View s k b) (hv : SameView s t) : View t k b := by
  obtain ⟨hm, hl⟩ := hv
  exact h.transfer (hm ▸ h.form) (by rw [hm]) (fun _ => by rw [hm]) (fun _ => by rw [hostHeld, hostHeld, hl])
    (fun _ => by rw [hl]; exact id) (hl ▸ h.tame) (fun _ _ => by rw [hl]; exact id)

/-! ### Lines that come and go -/

theorem evicted_tame {p : Nat × Bool} (h : ∀ p ∈ s.hostLines, Tame p) (hp : p ∈ (dropHostLine (writeBack s l) l).hostLines) :
    Tame p := by
  have hp := (List.mem_filter.mp hp).1
  unfold writeBack at hp
  split at hp
  · obtain ⟨r, hr, rfl⟩ := List.mem_map.mp hp
    split
    · exact (h r hr).imp_right fun hb => ⟨hb.1, rfl⟩
    · exact h r hr
  · exact h p hp

theorem evicted_dirty {j : Nat} (hmem : (j, true) ∈ (dropHostLine (writeBack s l) l).hostLines) : (j, true) ∈ s.hostLines := by
  have hmem := (List.mem_filter.mp hmem).1
  unfold writeBack at hmem
  split at hmem
  · obtain ⟨r, hr, he⟩ := List.mem_map.mp hmem
    split at he
    · cases he
    · exact he ▸ hr
  · exact hmem

theorem hostLine_eq (hdev : isHostDev k = true) (hk : 2 ^ 66 + 128 * l ≤ k) (hk' : k < 2 ^ 66 + 128 * l + 128) : hostLine k = l := by
  have := isHostDev_le hdev
  unfold hostLine
  omega

/-- Bytes outside what is written back and given up stay. -/
theorem readByte_evicted (hdev : k < 2 ^ 66 + 128 * l ∨ 2 ^ 66 + 128 * l + 128 ≤ k)
    (hhost : (l, true) ∈ s.hostLines → k < 2 ^ 65 + 128 * l ∨ 2 ^ 65 + 128 * l + 128 ≤ k) :
    readByte (dropHostLine (writeBack s l) l).mem k = readByte s.mem k := by
  refine (readByte_zeroRange_outside hdev).trans ?_
  unfold writeBack
  split
  · next hmem => exact readByte_copyRange_outside (hhost (by simpa using hmem))
  · rfl

theorem View.evict (h : View s k b) (hbus : busKey k) {d : Bool} (hl : (l, d) ∈ s.hostLines) :
    View (dropHostLine (writeBack s l) l) k b := by
  have hform : Memory.wf (dropHostLine (writeBack s l) l).mem = true := dropHostLine_wf _ (writeBack_wf _ h.form l) l
  have hlow : (l, true) ∈ s.hostLines → l < 2 ^ 57 := fun hm => (h.tame _ hm).resolve_right (by simp)
  have hlt : l < 2 ^ 59 := by
    rcases h.tame _ hl with hlt | ⟨hlt, -⟩
    · simp only at hlt; omega
    · exact hlt
  by_cases hown : isHostDev k = true ∧ hostLine k = l
  · obtain ⟨hdev, rfl⟩ := hown
    have hrange := isHostDev_le hdev
    have hk : k = 2 ^ 66 + 128 * hostLine k + (k - 2 ^ 66) % 128 := by unfold hostLine; omega
    have hback : k - 2 ^ 65 = 2 ^ 65 + 128 * hostLine k + (k - 2 ^ 66) % 128 := by unfold hostLine; omega
    have hj : (k - 2 ^ 66) % 128 < 128 := Nat.mod_lt _ (by omega)
    have hgone := dropHostLine_hostHeld_self (writeBack s (hostLine k)) (hostLine k)
    refine ⟨?_, hform, fun p hp => evicted_tame h.tame hp,
      fun _ hh => by simp [hgone] at hh, fun _ hhi => by omega⟩
    have hheld := hostHeld_of_mem hl
    rw [← h.byte, pocByte_host hdev, pocByte_host hdev, hgone, hheld]
    simp only [Bool.false_eq_true, if_false, if_true]
    by_cases hm : (hostLine k, true) ∈ s.hostLines
    · rw [hback, readByte_evicted_dirty hj hm (inPlace_of_wf _ h.form), ← hk]
    · rw [hback, readByte_evicted_clean hj hm, ← hback]
      exact (h.slice hdev hheld).resolve_left hm
  · have hne : isHostDev k = true → hostLine k ≠ l := fun hdev he => hown ⟨hdev, he⟩
    refine h.transfer hform (readByte_evicted ?_ fun hm => ?_) (fun hdev => readByte_evicted ?_ fun hm => ?_) (fun hdev => ?_)
      (fun hdev hm => List.mem_filter.mpr ⟨writeBack_dirty_ne (hne hdev) hm, by simpa using hne hdev⟩)
      (fun p hp => evicted_tame h.tame hp) (fun _ _ hm => evicted_dirty hm)
    · by_contra hin
      have hdev : isHostDev k = true := by simp only [isHostDev, Bool.and_eq_true, decide_eq_true_eq]; omega
      exact hne hdev (hostLine_eq hdev (by omega) (by omega))
    · have := hlow hm
      by_contra hin
      have hdev : isHostDev (k + 2 ^ 65) = true := by simp only [isHostDev, Bool.and_eq_true, decide_eq_true_eq]; omega
      refine h.host (by omega) (by omega) ?_
      rw [hostLine_eq (l := l) hdev (by omega) (by omega)]
      exact hm
    · have := isHostDev_le hdev
      have := hbus hdev
      omega
    · have hk := isHostDev_le hdev
      have hother := hne hdev
      unfold hostLine at hother
      omega
    · rw [dropHostLine_hostHeld_ne (hne hdev), writeBack_hostHeld]

theorem View.sliceRoom (h : View s k b) (hbus : busKey k) (die : Nat) : View (sliceRoom s die) k b := by
  rcases sliceRoom_cases s die with hv | ⟨u, l, d, hv, hl, he⟩
  · exact h.of_sameView hv
  · rw [he]
    exact (h.of_sameView hv).evict hbus (d := d) (by rw [hv.2]; exact hl)

theorem sliceRoom_hostHeld {j : Nat} (hfree : hostHeld s j = false) (die : Nat) : hostHeld (sliceRoom s die) j = false := by
  rcases sliceRoom_cases s die with ⟨-, hl⟩ | ⟨u, l, d, ⟨-, hu⟩, -, he⟩
  · rw [hostHeld, hl]; exact hfree
  · rw [he]
    by_cases hj : j = l
    · rw [hj, dropHostLine_hostHeld_self]
    · rw [dropHostLine_hostHeld_ne hj, writeBack_hostHeld, hostHeld, hu]; exact hfree

theorem View.hostFill (h : View s k b) (hbus : busKey k) (str : Bool) (q : Nat) : View (hostFill s str q) k b := by
  have hformed := hostFill_wf s h.form str q
  unfold Machine.hostFill at hformed ⊢
  split
  · next hdev =>
    split
    · exact h.of_sameView ⟨rfl, rfl⟩
    · next hnot =>
      rw [if_pos hdev, if_neg hnot] at hformed
      have hroom := h.sliceRoom hbus (hubOf (128 * hostLine q))
      have hfree := sliceRoom_hostHeld (Bool.eq_false_iff.mpr hnot) (hubOf (128 * hostLine q))
      have hq := isHostDev_le hdev
      have hline : hostLine q < 2 ^ 59 := by
        simp only [isHostDev, Bool.and_eq_true, decide_eq_true_eq] at hdev
        unfold hostLine
        omega
      have htame : ∀ p ∈ (Machine.sliceRoom s (hubOf (128 * hostLine q))).hostLines ++ [(hostLine q, false)], Tame p := fun p hp => by
        rcases List.mem_append.mp hp with hp | hp
        · exact hroom.tame p hp
        · rw [List.mem_singleton.mp hp]; exact .inr ⟨hline, rfl⟩
      by_cases hown : isHostDev k = true ∧ hostLine k = hostLine q
      · obtain ⟨hk, he⟩ := hown
        have hrange := isHostDev_le hk
        have hlt := hbus hk
        have hkey : k = hostDevKey (128 * hostLine q) + (k - 2 ^ 66) % 128 := by rw [← he]; unfold hostDevKey hostLine; omega
        have hback : k - 2 ^ 65 = hostKey (128 * hostLine q) + (k - 2 ^ 66) % 128 := by rw [← he]; unfold hostKey hostLine; omega
        have hj : (k - 2 ^ 66) % 128 < 128 := Nat.mod_lt _ (by omega)
        have hcopied := readByte_copyRange_inside (dst := hostDevKey (128 * hostLine q)) hj (inPlace_of_wf
          (hostKey (128 * hostLine q) + (k - 2 ^ 66) % 128) hroom.form)
        rw [← hkey, ← hback] at hcopied
        have hstays : readByte (copyRange (Machine.sliceRoom s (hubOf (128 * hostLine q))).mem (hostKey (128 * hostLine q))
            (hostDevKey (128 * hostLine q)) 128) (k - 2 ^ 65) =
            readByte (Machine.sliceRoom s (hubOf (128 * hostLine q))).mem (k - 2 ^ 65) :=
          readByte_copyRange_outside (.inl (by unfold hostDevKey; omega))
        refine ⟨?_, hformed, htame, fun _ _ => .inr (hstays.trans hcopied.symm), fun _ hhi => by omega⟩
        rw [← hroom.byte, pocByte_host hk, pocByte_host hk, he, hfree]
        have hheld : ((Machine.sliceRoom s (hubOf (128 * hostLine q))).hostLines ++ [(hostLine q, false)]).any
            (fun p => p.1 = hostLine q) = true := by simp
        simp only [hostHeld, hheld, if_true, Bool.false_eq_true, if_false]
        exact hcopied
      · have hne : isHostDev k = true → hostLine q ≠ hostLine k := fun hk he => hown ⟨hk, he.symm⟩
        refine hroom.transfer hformed (readByte_copyRange_outside ?_) (fun hk => readByte_copyRange_outside (.inl ?_)) (fun hk => ?_)
          (fun _ hm => List.mem_append_left _ hm) htame (fun _ _ hm => ?_)
        · by_contra hin
          unfold hostDevKey at hin
          have hk : isHostDev k = true := by simp only [isHostDev, Bool.and_eq_true, decide_eq_true_eq]; omega
          exact hne hk (hostLine_eq hk (by omega) (by omega)).symm
        · have := hbus hk
          have := isHostDev_le hk
          unfold hostDevKey
          omega
        · simp [hostHeld, hne hk]
        · simpa using hm
  · exact h

theorem View.useLine (h : View s k b) (hbus : busKey k) (str : Bool) (q : Nat) : View (useLine s str q) k b := by
  unfold Machine.useLine
  split
  · split
    · exact h.of_sameView ⟨rfl, rfl⟩
    · exact (h.sliceRoom hbus (hubOf q)).of_sameView ⟨rfl, rfl⟩
  · exact h.hostFill hbus str q

theorem View.askLine (h : View s k b) (hbus : busKey k) (since : Nat) (str : Bool) (q : Nat) : View (askLine s since str q) k b :=
  (h.of_sameView (sameView_countAsk s since q)).useLine hbus str q

end Keys

/-! ### Copies in the caches of a core -/

/-- State t has the bytes of state s below the keys of the copies in caches, and its host lines. -/
structure Below (s t : State) : Prop where
  bytes : ∀ j, j < 2 ^ 100 → readByte t.mem j = readByte s.mem j
  lines : t.hostLines = s.hostLines
  form : Memory.wf s.mem = true → Memory.wf t.mem = true

section Copies
variable {s t u : State} {k : Nat} {b : Byte}

theorem Below.trans (h : Below s t) (h' : Below t u) : Below s u :=
  ⟨fun j hj => (h'.bytes j hj).trans (h.bytes j hj), h'.lines.trans h.lines, fun hf => h'.form (h.form hf)⟩

theorem Below.of_sameView (h : SameView s t) : Below s t := ⟨fun _ _ => by rw [h.1], h.2, fun hf => h.1 ▸ hf⟩

theorem View.of_below (h : View s k b) (hk : k < 2 ^ 100) (ht : Below s t) : View t k b :=
  h.transfer (ht.form h.form) (ht.bytes k hk) (fun _ => ht.bytes _ (by omega)) (fun _ => by rw [hostHeld, hostHeld, ht.lines])
    (fun _ => by rw [ht.lines]; exact id) (ht.lines ▸ h.tame) (fun _ _ => by rw [ht.lines]; exact id)

theorem below_dropL1 (s : State) (core : Nat) (p : Nat → Bool) : Below s (dropL1 s core p) := by
  refine ⟨fun j hj => readByte_filter_kept fun c hc => ?_, rfl, fun hf => dropL1_wf s hf core p⟩
  have hlow : c.1 / 2 ^ 100 = 0 := Nat.div_eq_of_lt (hc ▸ hj)
  have hne : ¬ 0 = 1 + core := by omega
  simp only [hlow, hne, decide_false, Bool.false_and, Bool.not_false]

theorem below_writeCells {cs : List Host.Cell} (hcs : ∀ c ∈ cs, 2 ^ 100 ≤ c.1) (s : State) (core : Nat) (f : Core → Core) :
    Below s (modCore { s with mem := writeCells s.mem cs } core f) :=
  ⟨fun j hj => readByte_writeCells_ne _ _ _ fun c hc hcj => absurd (hcs c hc) (by omega), rfl, fun hf => wf_writeCells _ _ hf⟩

theorem below_dropKLine (s : State) (core l : Nat) : Below s (dropKLine s core l) :=
  ⟨fun j hj => readByte_zeroRange_outside (.inl (by unfold kcKey; omega)), rfl, fun hf => dropKLine_wf s hf core l⟩

theorem below_l1Room (s : State) (core : Nat) : Below s (l1Room s core) := by
  unfold l1Room
  split
  · next e => exact (Below.of_sameView (makeRoom_sameView e)).trans (below_dropL1 ..)
  · next e => exact Below.of_sameView (makeRoom_sameView e)

theorem below_kRoom (s : State) (core : Nat) : Below s (kRoom s core) := by
  unfold kRoom
  split
  · next e => exact (Below.of_sameView (makeRoom_sameView e)).trans (below_dropKLine ..)
  · next e => exact Below.of_sameView (makeRoom_sameView e)

theorem below_updateL1 (s : State) (core : Nat) (cs : List Host.Cell) : Below s (updateL1 s core cs) := by
  refine ⟨fun j hj => readByte_writeCells_ne _ _ _ fun c hc hcj => ?_, rfl, fun hf => wf_writeCells _ _ hf⟩
  obtain ⟨d, -, rfl⟩ := List.mem_map.mp hc
  simp only [l1Key] at hcj
  omega

end Copies

/-! ### What an access at its issue leaves as it was -/

/-- State t has the warps, the clock and the bank-lock spans of state s, and every byte at its point of coherence. -/
structure Issues (s t : State) : Prop where
  warps : t.warps = s.warps
  clock : t.clock = s.clock
  spans : ∀ core, (getCore t core).spans = (getCore s core).spans
  view : ∀ {k b}, k < 2 ^ 100 → busKey k → View s k b → View t k b

section Accesses
variable {s t u : State}

theorem Issues.refl (s : State) : Issues s s := ⟨rfl, rfl, fun _ => rfl, fun _ _ h => h⟩

theorem Issues.trans (h : Issues s t) (h' : Issues t u) : Issues s u :=
  ⟨h'.warps.trans h.warps, h'.clock.trans h.clock, fun core => (h'.spans core).trans (h.spans core),
    fun hk hbus hv => h'.view hk hbus (h.view hk hbus hv)⟩

theorem Issues.foldl {α : Type} {f : State → α → State} (hf : ∀ s a, Issues s (f s a)) (l : List α) (s : State) :
    Issues s (l.foldl f s) :=
  List.foldlRecOn (motive := Issues s) l f (.refl s) fun _ h a _ => h.trans (hf _ a)

/-- A state that differs in nothing of this. -/
theorem Issues.of_eq (hw : t.warps = s.warps) (hc : t.clock = s.clock) (hcores : t.cores = s.cores) (hm : t.mem = s.mem)
    (hl : t.hostLines = s.hostLines) : Issues s t :=
  ⟨hw, hc, fun core => by rw [getCore, getCore, hcores], fun _ _ hv => hv.of_sameView ⟨hm, hl⟩⟩

theorem Issues.of_beyond (h : SameBeyond s t) (hv : ∀ {k b}, busKey k → View s k b → View t k b) : Issues s t :=
  ⟨congrArg (·.warps) h, congrArg (·.clock) h,
    fun core => by rw [getCore, getCore, show t.cores = s.cores from congrArg (·.cores) h], fun _ hbus => hv hbus⟩

theorem spans_modCore {f : Core → Core} (hf : ∀ c, (f c).spans = c.spans) (s : State) (core j : Nat) :
    (getCore (modCore s core f) j).spans = (getCore s j).spans := by
  by_cases hj : j = core
  · subst hj
    rw [getCore, modCore, mgetD_mput_same, hf]
  · rw [getCore, modCore, mgetD_mput_ne _ _ _ _ hj]
    rfl

theorem issues_useLine (s : State) (str : Bool) (q : Nat) : Issues s (useLine s str q) :=
  .of_beyond (sameBeyond_useLine s str q) fun hbus hv => hv.useLine hbus str q

theorem issues_askLine (s : State) (since : Nat) (str : Bool) (q : Nat) : Issues s (askLine s since str q) :=
  .of_beyond (sameBeyond_askLine s since str q) fun hbus hv => hv.askLine hbus since str q

theorem sameView_touchAll (s : State) (us : List Nat) : SameView s (touchAll s us) := by
  refine sameView_foldl touch (fun s u => ?_) us s
  obtain ⟨ls, h⟩ := touch_eq s u
  rw [h]
  exact ⟨rfl, rfl⟩

theorem issues_touchAll (s : State) (us : List Nat) : Issues s (touchAll s us) :=
  .of_beyond (sameBeyond_touchAll s us) fun _ hv => hv.of_sameView (sameView_touchAll s us)

theorem issues_touchPlaces (s : State) (a : Agent) (ps : List Place) : Issues s (touchPlaces s a ps) := by
  have hleft : Issues s (lampLeave s a.q) := .of_eq rfl rfl rfl rfl rfl
  exact hleft.trans (issues_touchAll _ _)

/-- A change of the copies in the caches of a core. -/
theorem Issues.of_copies {core : Nat} {f : Core → Core} (hf : ∀ c, (f c).spans = c.spans) (hw : u.warps = s.warps)
    (hc : u.clock = s.clock) (hcores : u.cores = s.cores) (hb : Below s (modCore u core f)) : Issues s (modCore u core f) :=
  ⟨hw, hc, fun j => by rw [spans_modCore hf, getCore, getCore, hcores], fun hk _ hv => hv.of_below hk hb⟩

theorem issues_dropL1 (s : State) (core : Nat) (p : Nat → Bool) : Issues s (dropL1 s core p) := by
  have hb := below_dropL1 s core p
  unfold dropL1 at hb ⊢
  exact .of_copies (fun _ => rfl) rfl rfl rfl hb

theorem issues_makeRoom {α : Type} {cap : Nat} {first : α → Bool} {l kept : List α} {gone : Option α}
    (h : makeRoom s cap first l = (kept, gone, t)) : Issues s t :=
  .of_beyond (sameBeyond_makeRoom h) fun _ hv => hv.of_sameView (makeRoom_sameView h)

theorem issues_l1Room (s : State) (core : Nat) : Issues s (l1Room s core) := by
  unfold l1Room
  split
  · next e => exact (issues_makeRoom e).trans (issues_dropL1 ..)
  · next e => exact issues_makeRoom e

theorem issues_kRoom (s : State) (core : Nat) : Issues s (kRoom s core) := by
  unfold kRoom
  split
  · next l u e =>
    have hb := below_dropKLine u core l
    unfold dropKLine at hb ⊢
    exact (issues_makeRoom e).trans (.of_copies (fun _ => rfl) rfl rfl rfl hb)
  · next e => exact issues_makeRoom e

theorem issues_fillL1 (s : State) (core : Nat) (str : Bool) (k : Nat) : Issues s (fillL1 s core str k) := by
  unfold fillL1
  split
  · refine ((issues_useLine s str k).trans ((issues_dropL1 _ _ _).trans (issues_l1Room _ core))).trans
      (.of_copies (fun _ => rfl) rfl rfl rfl (below_writeCells (fun c hc => ?_) _ _ _))
    obtain ⟨i, -, rfl⟩ := List.mem_map.mp hc
    simp only [l1Key]
    omega
  · exact .refl s

theorem issues_fillK (s : State) (core ka k : Nat) : Issues s (fillK s core ka k) := by
  unfold fillK
  simp only
  split
  · exact .refl s
  · refine ((issues_askLine s _ _ k).trans (issues_kRoom _ core)).trans
      (.of_copies (fun _ => rfl) rfl rfl rfl (below_writeCells (fun c hc => ?_) _ _ _))
    obtain ⟨i, -, rfl⟩ := List.mem_map.mp hc
    simp only [kcKey]
    omega

theorem issues_loadFill (s : State) (a : Agent) (space : Nat) (how : LoadAs) (p : Place) : Issues s (loadFill s a space how p) := by
  unfold loadFill
  repeat' split
  · exact .refl s
  · exact .refl s
  · exact issues_fillK ..
  · exact .refl s
  · exact issues_fillL1 ..
  · exact issues_useLine ..

theorem issues_loadFills (s : State) (a : Agent) (space : Nat) (how : LoadAs) (ps : List Place) :
    Issues s (loadFills s a space how ps) :=
  (issues_touchPlaces s a ps).trans (.foldl (fun s p => issues_loadFill s a space how p) (linePlaces ps) _)

/-! ### Requests to peers (15 R362) -/

theorem grantAll_eq (n : Nat) (s : State) : ∃ ls id, grantAll n s = { s with links := ls, nextId := id } := by
  induction n generalizing s with
  | zero => exact ⟨_, _, rfl⟩
  | succ n ih =>
    unfold grantAll
    split
    · exact ⟨_, _, rfl⟩
    · next i _ =>
      obtain ⟨ls, id, h⟩ := ih (grantOne s i)
      exact ⟨ls, id, h⟩

theorem askAdmission_eq (s : State) (r : PeerReq) :
    ∃ ls os id, askAdmission s r = { s with links := ls, outs := os, nextId := id } := by
  unfold askAdmission
  simp only
  split
  · exact ⟨_, _, _, rfl⟩
  · unfold admitReq
    split
    · obtain ⟨ls, id, h⟩ := grantAll_eq (waitingGrants _) _
      rw [h]
      exact ⟨_, _, _, rfl⟩
    · exact ⟨_, _, _, rfl⟩

/-- Asking for admission changes what the links hold and what the device has asked of them. -/
theorem askPeer_eq (s : State) (acc agent links k bytes back : Nat) :
    ∃ ls os id, askPeer s acc agent links k bytes back = { s with links := ls, outs := os, nextId := id } := by
  unfold askPeer
  repeat' split
  · exact ⟨_, _, _, rfl⟩
  · exact askAdmission_eq _ _
  · exact ⟨_, _, _, rfl⟩

theorem issues_askPeer (s : State) (acc agent links k bytes back : Nat) : Issues s (askPeer s acc agent links k bytes back) := by
  obtain ⟨ls, os, id, h⟩ := askPeer_eq s acc agent links k bytes back
  rw [h]
  exact .of_eq rfl rfl rfl rfl rfl

theorem issues_askPeers (s : State) (acc agent : Nat) (write : Bool) (ps : List Place) :
    Issues s (askPeers s acc agent write ps) := by
  refine .foldl (fun s p => ?_) ps s
  split
  · exact issues_askPeer ..
  · exact .refl s

theorem issues_addLoad (s : State) (a : Agent) (ps asked : List Place) (l : Load) : Issues s (addLoad s a ps asked l) := by
  unfold addLoad
  refine Issues.trans ?_ (issues_askPeers ..)
  exact .of_eq rfl rfl rfl rfl rfl

/-! ### Stores in their queue (07 R194) -/

theorem issues_issueStore (s : State) (core g w : Nat) (how : StoreAs) (cs : List Host.Cell) :
    Issues s (issueStore s core g w how cs) := by
  have hl1 : Issues s (if how.policy = 1 then dropL1 s core (fun l => cs.any (fun c => c.1 / 128 = l)) else updateL1 s core cs) := by
    split
    · exact issues_dropL1 ..
    · exact ⟨rfl, rfl, fun _ => rfl, fun hk _ hv => hv.of_below hk (below_updateL1 s core cs)⟩
  exact hl1.trans (.of_eq rfl rfl rfl rfl rfl)

theorem issues_issueStores (s : State) (core g w n : Nat) (how : StoreAs) (ps : List Place) (data : Nat → Nat) :
    Issues s (issueStores s core g w n how ps data) := by
  refine .foldl (fun t p => ?_) ps s
  split
  · exact (issues_issueStore ..).trans (issues_askPeers ..)
  · exact .refl t

end Accesses

/-! ### Pending accesses on bytes of the device (08 R211, R222) -/

section Performed
variable {s : State} {k : Nat}

/-- Cells elsewhere leave a byte of the device as it is. -/
theorem readByte_pocWriteAs (hk : k < 2 ^ 65) (since : Nat) (str : Bool) {cs : List Host.Cell} (hcs : ∀ c ∈ cs, c.1 ≠ k) :
    readByte (pocWriteAs s since str cs).mem k = readByte s.mem k := by
  refine List.foldlRecOn (motive := fun t : State => readByte t.mem k = readByte s.mem k) (linesOf cs) _ rfl fun t ht q _ => ?_
  rw [readByte_writeLine hk, lastCell_absent _ fun c hc => hcs c (List.mem_filter.mp hc).1, ht]

theorem sameView_lowerLine (s : State) (l : Nat) : SameView s (lowerLine s l) := by
  unfold lowerLine
  repeat' split
  all_goals exact ⟨rfl, rfl⟩

theorem sameView_joinLines (s t : State) (e : Store) : SameView t (joinLines s t e) := by
  unfold joinLines
  split
  · have hlow := sameView_foldl lowerLine sameView_lowerLine (e.joined.filter (lineLow s)) t
    exact hlow
  · exact ⟨rfl, rfl⟩

theorem sameView_tokenDone (s : State) (g w : Nat) (t : Option Nat) : SameView s (tokenDone s g w t) := by
  cases t <;> exact ⟨rfl, rfl⟩

theorem readByte_performStore (hk : k < 2 ^ 65) {e : Store} (hcells : ∀ c ∈ e.cells, c.1 ≠ k) :
    readByte (performStore s e).mem k = readByte s.mem k := by
  unfold performStore
  simp only
  split
  · rw [(sameView_tokenDone ..).1]
    refine (congrArg (readByte · k) (sameView_joinLines _ _ e).1).trans ((readByte_pocWriteAs hk _ _ hcells).trans ?_)
    rw [(sameView_touchAll ..).1]
    rfl
  · next l _ =>
    unfold writeBack
    split
    · refine (readByte_copyRange_outside (.inl ?_)).trans (by rw [(sameView_countAsk ..).1]; rfl)
      unfold hostKey
      omega
    · rw [(sameView_countAsk ..).1]
      rfl

theorem vlands_mem (s : State) (g w : Nat) (rs : List (Nat × Nat × Word32)) : (vlands s g w rs).mem = s.mem := by
  unfold vlands xdue
  split
  · exact vwrites_mem s g w rs
  · exact (foldl_mem _ (fun t x => xwrite_mem t _ x) _ _).trans (vwrites_mem s g w rs)

theorem readByte_dropL1 (hk : k < 2 ^ 65) (core : Nat) (p : Nat → Bool) : readByte (dropL1 s core p).mem k = readByte s.mem k :=
  (below_dropL1 s core p).bytes k (by omega)

theorem readByte_applyAtom (hk : k < 2 ^ 65) {a : Atom} (hout : ¬ (a.key ≤ k ∧ k < a.key + atomBytes a.type)) :
    readByte (applyAtom s a).mem k = readByte s.mem k := by
  have hcells (v : Nat) : ∀ c ∈ cellsOf a.key (atomBytes a.type) v, c.1 ≠ k := fun c hc hck => by
    obtain ⟨j, hj, rfl⟩ := TrapFrame.mem_cellsOf.mp hc
    simp only at hck
    omega
  have htouch (us : List Nat) : readByte (touchAll s us).mem k = readByte s.mem k := by rw [(sameView_touchAll ..).1]
  unfold applyAtom
  simp only
  split
  · exact (readByte_askLine hk _ _ _).trans (htouch _)
  · have hdone (v : Nat) (us : List Nat) : readByte (dropL1 (pocWriteAs (touchAll s us) a.since false
        (cellsOf a.key (atomBytes a.type) v)) a.core (fun l => l = a.key / 128)).mem k = readByte s.mem k :=
      (readByte_dropL1 hk _ _).trans ((readByte_pocWriteAs hk _ _ (hcells v)).trans (htouch us))
    cases a.dst <;> cases a.acq <;> simp only
    · exact hdone _ _
    · split
      · exact hdone _ _
      · exact (readByte_dropL1 hk _ _).trans (hdone _ _)
    · exact (congrArg (readByte · k) (vlands_mem ..)).trans (hdone _ _)
    · split
      · exact (congrArg (readByte · k) (vlands_mem ..)).trans (hdone _ _)
      · exact (readByte_dropL1 hk _ _).trans ((congrArg (readByte · k) (vlands_mem ..)).trans (hdone _ _))

/-- Does a pending access write a byte? -/
def Writes? (k : Nat) : Access → Prop
  | .store e => ∃ c ∈ e.cells, c.1 = k
  | .atom a => a.key ≤ k ∧ k < a.key + atomBytes a.type

theorem readByte_performAll (hk : k < 2 ^ 65) {as : List Access} (has : ∀ a ∈ as, ¬ Writes? k a) :
    readByte (performAll s as).mem k = readByte s.mem k := by
  refine List.foldlRecOn (motive := fun t : State => readByte t.mem k = readByte s.mem k) as _ rfl fun t ht a ha => ?_
  have hnot := has a ha
  cases a with
  | store e => exact (readByte_performStore hk fun c hc hck => hnot ⟨c, hc, hck⟩).trans ht
  | atom a => exact (readByte_applyAtom hk hnot).trans ht

theorem mem_insertBy {α : Type} {key : α → Nat} {x y : α} {l : List α} (h : y ∈ insertBy key x l) : y = x ∨ y ∈ l := by
  induction l with
  | nil => simpa [insertBy] using h
  | cons z t ih =>
    unfold insertBy at h
    split at h
    · simpa using h
    · rcases List.mem_cons.mp h with rfl | h
      · exact .inr List.mem_cons_self
      · exact (ih h).imp_right (List.mem_cons_of_mem z)

theorem mem_sortBy {α : Type} {key : α → Nat} {y : α} {l : List α} (h : y ∈ sortBy key l) : y ∈ l := by
  have hall : ∀ z ∈ sortBy key l, z ∈ l :=
    List.foldlRecOn (motive := fun acc => ∀ z ∈ acc, z ∈ l) l _ (fun _ hz => absurd hz List.not_mem_nil)
      fun acc hacc x hx z hz => (mem_insertBy hz).elim (fun e => e ▸ hx) (hacc z)
  exact hall y h

theorem mem_withEarlier {p : Access → Bool} {a : Access} (h : a ∈ withEarlier s p) : a ∈ pendingAccesses s := by
  unfold withEarlier at h
  generalize pendingAccesses s = l at h ⊢
  induction l with
  | nil => exact absurd h List.not_mem_nil
  | cons b t ih =>
    rw [List.foldr_cons] at h
    split at h
    · rcases List.mem_cons.mp h with rfl | h
      · exact List.mem_cons_self
      · exact List.mem_cons_of_mem b (ih h)
    · exact List.mem_cons_of_mem b (ih h)

/-- A pending access is an entry of the store queue or an atomic. -/
theorem pendingAccesses_cases {a : Access} (h : a ∈ pendingAccesses s) :
    (∃ e ∈ s.stores, a = .store e) ∨ ∃ b ∈ s.atoms, a = .atom b := by
  rcases List.mem_append.mp (mem_sortBy h) with h | h
  · obtain ⟨e, he, rfl⟩ := List.mem_map.mp h
    exact .inl ⟨e, he, rfl⟩
  · obtain ⟨b, hb, rfl⟩ := List.mem_map.mp h
    exact .inr ⟨b, (List.mem_filter.mp hb).1, rfl⟩

/-- What a span performs at once writes bytes of pending accesses alone. -/
theorem readByte_spanFlush (hk : k < 2 ^ 65) (core g w : Nat) (hstores : ∀ e ∈ s.stores, ∀ c ∈ e.cells, c.1 ≠ k)
    (hatoms : ∀ a ∈ s.atoms, ¬ (a.key ≤ k ∧ k < a.key + atomBytes a.type)) :
    readByte (spanFlush s core g w).mem k = readByte s.mem k := by
  unfold spanFlush
  split
  · refine readByte_performAll hk fun a ha => ?_
    rcases pendingAccesses_cases (mem_withEarlier ha) with ⟨e, he, rfl⟩ | ⟨b, hb, rfl⟩
    · rintro ⟨c, hc, hck⟩
      exact hstores e he c hc hck
    · exact hatoms b hb
  · rfl

end Performed

/-! ### The queue after stores have been issued -/

section Queue
variable {s : State}

theorem askPeers_queue (s : State) (acc agent : Nat) (write : Bool) (ps : List Place) :
    (askPeers s acc agent write ps).stores = s.stores ∧ (askPeers s acc agent write ps).atoms = s.atoms := by
  refine List.foldlRecOn (motive := fun t : State => t.stores = s.stores ∧ t.atoms = s.atoms) ps _ ⟨rfl, rfl⟩ fun t ht p _ => ?_
  split
  · obtain ⟨ls, os, id, h⟩ := askPeer_eq t acc agent p.links _ _ _
    rw [h]
    exact ht
  · exact ht

theorem issueStore_queue (s : State) (core g w : Nat) (how : StoreAs) (cs : List Host.Cell) :
    (∃ e, e.cells = cs ∧ (issueStore s core g w how cs).stores = s.stores ++ [e]) ∧ (issueStore s core g w how cs).atoms = s.atoms := by
  unfold issueStore
  simp only
  split <;> exact ⟨⟨_, rfl, rfl⟩, rfl⟩

/-- The stores in the queue are those before and those of the places; atomics are as they were. -/
theorem issueStores_queue (s : State) (core g w n : Nat) (how : StoreAs) (ps : List Place) (data : Nat → Nat) :
    (∀ e ∈ (issueStores s core g w n how ps data).stores, e ∈ s.stores ∨
      ∃ p ∈ ps, ∃ b, p.key = some b ∧ ∀ c ∈ e.cells, b ≤ c.1 ∧ c.1 < b + n) ∧
      (issueStores s core g w n how ps data).atoms = s.atoms := by
  refine List.foldlRecOn (motive := fun t : State => (∀ e ∈ t.stores, e ∈ s.stores ∨
      ∃ p ∈ ps, ∃ b, p.key = some b ∧ ∀ c ∈ e.cells, b ≤ c.1 ∧ c.1 < b + n) ∧ t.atoms = s.atoms) ps _
    ⟨fun _ he => .inl he, rfl⟩ fun t ht p hp => ?_
  obtain ⟨hstores, hatoms⟩ := ht
  split
  · next b hb =>
    obtain ⟨hq, ha⟩ := askPeers_queue (issueStore t core g w { how with
      whole := wholeGranules (ps.flatMap (fun p => (p.key.map (fun k => cellsOf k n 0)).getD [])), inst := some s.nextId, lane := p.lane }
      (cellsOf b n (data p.lane))) t.nextId (threadNum g w p.lane) true [p]
    obtain ⟨⟨e, hcells, hqueue⟩, hkept⟩ := issueStore_queue t core g w { how with
      whole := wholeGranules (ps.flatMap (fun p => (p.key.map (fun k => cellsOf k n 0)).getD [])), inst := some s.nextId, lane := p.lane }
      (cellsOf b n (data p.lane))
    refine ⟨fun x hx => ?_, ha.trans (hkept.trans hatoms)⟩
    rw [hq, hqueue] at hx
    rcases List.mem_append.mp hx with hx | hx
    · exact hstores x hx
    · rw [List.mem_singleton.mp hx, hcells]
      refine .inr ⟨p, hp, b, hb, fun c hc => ?_⟩
      obtain ⟨j, hj, rfl⟩ := TrapFrame.mem_cellsOf.mp hc
      exact ⟨Nat.le_add_right b j, Nat.add_lt_add_left hj b⟩
  · exact ⟨hstores, hatoms⟩

end Queue

/-! ### The issue of an instruction (05 R138, 07 R193, R194, 08 R211) -/

section Issue
variable {op : Op} {f : WarpWord} {s t u : State} {c : Ctx}

theorem issues_acquire (s : State) (core : Nat) : Issues s (acquire s core) := issues_dropL1 ..

/-- An instruction that writes no register. -/
def nothing : Writable where
  vec _ _ := False
  sreg _ := False
  mreg _ := False
  sf := False
  flags := False
  seed _ := False
  turn := False

theorem sameView_past (op : Op) (f : WarpWord) (s : State) (c : Ctx) : SameView s (past op f s c) := by
  obtain ⟨ws, cs, h⟩ := past_eq op f s c
  rw [h]
  exact ⟨rfl, rfl⟩

/-- An instruction that only issues accesses has written no register, and every steady byte is what it was. -/
theorem issued_frame (h : Ready op f s c) (hform : Memory.wf s.mem = true) (hlines : ∀ p ∈ s.hostLines, p.1 < 2 ^ 57)
    (hu : Issues (past op f s c) u) (hexec : exec (op.instr f) s = .next (clearIssuer u)) :
    ∃ t x, exec (op.instr f) s = .next t ∧ getWarp t c.g c.w = some x ∧
      warpFrame c.warp x (fun _ _ => False) (fun _ => False) (fun _ => False) ∧ x.fpstat = c.warp.fpstat ∧ x.sf = c.warp.sf ∧
      ∀ k, k < 2 ^ 100 → busKey k → steady s k → pocByte t k = pocByte s k := by
  obtain ⟨x, hx, hkept⟩ := (writes_past nothing h).warp
  have hwarp : getWarp (clearIssuer u) c.g c.w = some x := by rw [← hx]; exact congrArg (mget · (warpKey c.g c.w)) hu.warps
  refine ⟨_, x, hexec, hwarp, hkept.frame, hkept.fpstat id, hkept.sf id, fun k hk hbus hsteady => ?_⟩
  have hview := (View.of_steady hform hlines hsteady).of_sameView (sameView_past op f s c)
  exact (hu.view hk hbus hview).byte

theorem execLd_answers (h : Ready .ld f s c) {ps : List Place}
    (hps : checkLanes s c.agent (spaceCode f) (accessBytes f) .read false (laneAddrs s c f (spaceCode f)) = .ok ps) (hp : c.p ≠ 0)
    (hacq : modBits f 6 2 = 1 → acqReady s c c.p ps = true) :
    ∃ u, Issues (past .ld f s c) u ∧ exec (.ld f) s = .next (clearIssuer u) := by
  obtain ⟨-, -, hld, -, -, -⟩ := loadStoreResults f s c
  refine ⟨_, ?_, hld ps hps hp hacq h⟩
  have hadded := fun how l => (issues_loadFills (past .ld f s c) c.agent (spaceCode f) how ps).trans
    (issues_addLoad _ c.agent ps (askedPlaces (past .ld f s c) c.agent (spaceCode f) how ps) l)
  dsimp only
  split
  · exact (hadded _ _).trans (issues_acquire ..)
  · exact hadded _ _

theorem execSld_answers (h : Ready .sld f s c) {ps : List Place}
    (hps : checkLanes s c.agent (spaceCode f) (2 ^ modBits f 0 2) .read false (scaAddr c f .sld) = .ok ps)
    (hatom : ∀ p ∈ ps, ∀ b, p.key = some b → warpAtomMeets s c.g c.w b p.bytes = false) :
    ∃ u, Issues (past .sld f s c) u ∧ exec (.sld f) s = .next (clearIssuer u) := by
  have hwait : ps.any (fun p => p.key.any (fun k => warpAtomMeets s c.g c.w k p.bytes)) = false :=
    List.any_eq_false.mpr fun p hp => by
      cases hkey : p.key with
      | none => simp
      | some b => simp [hatom p hp b hkey]
  refine ⟨?u, ?issues, ?exec⟩
  case exec =>
    change execSld f s = _
    refine runWord_done h ?_
    simp only [scaBytes, hps, hwait, Bool.false_eq_true, if_false]
    rfl
  case issues => exact (issues_loadFills ..).trans (.foldl (fun v p => issues_addLoad ..) ps _)

/-- A span that is left after an instruction is one that was there before, of the same warp and start. -/
theorem spans_past {sp : Span} (h : sp ∈ (getCore (past op f s c) c.wg.core).spans) :
    ∃ sp' ∈ (getCore s c.wg.core).spans, sp'.warp = sp.warp ∧ sp'.began = sp.began := by
  have hadv : getCore (advance s c f) c.wg.core = getCore s c.wg.core := rfl
  simp only [past, countSpan] at h
  split at h
  · exact ⟨sp, hadv ▸ h, rfl, rfl⟩
  · split at h
    · exact ⟨sp, hadv ▸ h, rfl, rfl⟩
    · rw [getCore, modCore, mgetD_mput_same, hadv] at h
      dsimp only at h
      split at h
      · exact ⟨sp, (List.mem_filter.mp h).1, rfl, rfl⟩
      · obtain ⟨sp', hsp', rfl⟩ := List.mem_map.mp (List.mem_filter.mp h).1
        exact ⟨sp', hsp', by split <;> rfl, by split <;> rfl⟩

theorem ownSpan_past (h : ownSpan s c.wg.core c.g c.w = false) : ownSpan (past op f s c) c.wg.core c.g c.w = false := by
  have hclock : (past op f s c).clock = s.clock := by
    obtain ⟨ws, cs, h⟩ := past_eq op f s c
    rw [h]
  refine List.any_eq_false.mpr fun sp hsp hopen => ?_
  obtain ⟨sp', hsp', hwarp, hbegan⟩ := spans_past hsp
  have hnot := List.any_eq_false.mp h sp' hsp'
  rw [Span.open, hwarp, hbegan, ← hclock] at hnot
  exact hnot hopen

theorem spanFlush_of_none {core g w : Nat} (h : ownSpan s core g w = false) : spanFlush s core g w = s := by
  unfold ownSpan at h
  unfold spanFlush
  rw [h]
  rfl

theorem Issues.ownSpan (h : Issues s t) (core g w : Nat) : ownSpan t core g w = ownSpan s core g w := by
  rw [Machine.ownSpan, Machine.ownSpan, h.clock, h.spans]

/-- An agent that has waited for no lamp unit has nothing performed for that. -/
theorem lampFlush_of_none {a : Agent} (h : ∀ q ∈ s.lampq, q.who ≠ a.q) (t : State) : lampFlush s a t = t := by
  have hnone : s.lampq.any (fun q => q.who = a.q) = false := List.any_eq_false.mpr fun q hq => by simp [h q hq]
  simp only [lampFlush, hnone, Bool.false_and, Bool.false_eq_true, if_false]

/-- The accesses of a store in the queue. -/
theorem issues_queued (s : State) (a : Agent) (core g w n : Nat) (how : StoreAs) (ps : List Place) (data : Nat → Nat) :
    Issues s (issueStores (touchPlaces s a ps) core g w n how ps data) :=
  (issues_touchPlaces s a ps).trans (issues_issueStores ..)

/-- The state after stores of n bytes to their places have been issued. -/
def queued (op : Op) (f : WarpWord) (s : State) (c : Ctx) (n : Nat) (how : StoreAs) (ps : List Place) (data : Nat → Nat) : State :=
  lampFlush s c.agent (spanFlush (issueStores (touchPlaces (past op f s c) c.agent ps) c.wg.core c.g c.w n how ps data)
    c.wg.core c.g c.w)

theorem execSt_answers (h : Ready .st f s c) {ps : List Place}
    (hps : checkLanes s c.agent (spaceCode f) (accessBytes f) .write false (laneAddrs s c f (spaceCode f)) = .ok ps) (hp : c.p ≠ 0)
    (hrel : modBits f 6 2 = 2 → laneRelease s c.g c.w (modBits f 8 3) c.p = true) :
    ∃ how data m, exec (.st f) s = .next (clearIssuer { queued .st f s c (accessBytes f) how ps data with freeCtr := m }) := by
  obtain ⟨-, -, -, hst, -, -⟩ := loadStoreResults f s c
  have hnext := hst ps hps hp hrel h
  dsimp only at hnext
  split at hnext
  · exact ⟨_, _, _, hnext⟩
  · exact ⟨_, _, _, hnext⟩

theorem execSst_answers (h : Ready .sst f s c) {ps : List Place}
    (hps : checkLanes s c.agent (spaceCode f) (2 ^ modBits f 0 2) .write false (scaAddr c f .sst) = .ok ps) :
    ∃ how data m, exec (.sst f) s = .next (clearIssuer { queued .sst f s c (2 ^ modBits f 0 2) how ps data with freeCtr := m }) := by
  obtain ⟨-, -, -, -, -, hsst⟩ := loadStoreResults f s c
  exact ⟨_, _, _, hsst ps hps h⟩

/-- A store that is issued outside a span and has waited for no lamp unit is in the queue. -/
theorem issued_store (hspan : ownSpan s c.wg.core c.g c.w = false) (hlamp : ∀ q ∈ s.lampq, q.who ≠ c.agent.q) (n : Nat) (how : StoreAs)
    (ps : List Place) (data : Nat → Nat) (m : Nat) :
    Issues (past op f s c) { queued op f s c n how ps data with freeCtr := m } := by
  have hqueued := issues_queued (past op f s c) c.agent c.wg.core c.g c.w n how ps data
  rw [queued, lampFlush_of_none hlamp, spanFlush_of_none ((hqueued.ownSpan ..).trans (ownSpan_past hspan))]
  exact hqueued.trans (.of_eq rfl rfl rfl rfl rfl)

/-- A byte that is not of host memory is always steady. -/
theorem steady_of_lt {k : Nat} (hk : k < 2 ^ 65) (s : State) : steady s k :=
  ⟨fun hdev => absurd (isHostDev_le hdev) (by omega), fun hlo => absurd hlo (by omega)⟩

/-- The queue of the stores and the atomics after a store has been issued are those of before and the store's own. -/
theorem queued_store (op : Op) (f : WarpWord) (s : State) (c : Ctx) (core g w n : Nat) (how : StoreAs) (ps : List Place)
    (data : Nat → Nat) :
    let t := issueStores (touchPlaces (past op f s c) c.agent ps) core g w n how ps data
    (∀ e ∈ t.stores, e ∈ s.stores ∨ ∃ p ∈ ps, ∃ b, p.key = some b ∧ ∀ x ∈ e.cells, b ≤ x.1 ∧ x.1 < b + n) ∧ t.atoms = s.atoms := by
  intro t
  have hbeyond : SameBeyond (lampLeave (past op f s c) c.agent.q) (touchPlaces (past op f s c) c.agent ps) := sameBeyond_touchAll ..
  obtain ⟨ws, cs, hpast⟩ := past_eq op f s c
  have hstores : (touchPlaces (past op f s c) c.agent ps).stores = s.stores := 
    (congrArg (·.stores) hbeyond).trans (by rw [hpast]; rfl)
  have hatoms : (touchPlaces (past op f s c) c.agent ps).atoms = s.atoms := 
    (congrArg (·.atoms) hbeyond).trans (by rw [hpast]; rfl)
  have hqueue := issueStores_queue (touchPlaces (past op f s c) c.agent ps) core g w n how ps data
  rwa [hstores, hatoms] at hqueue

/-- What a store performs at once in a span changes bytes of pending accesses and its own alone. -/
theorem spanned_store (hform : Memory.wf s.mem = true) (hlines : ∀ p ∈ s.hostLines, p.1 < 2 ^ 57)
    (hlamp : ∀ q ∈ s.lampq, q.who ≠ c.agent.q) {k n : Nat} (hk : k < 2 ^ 65) {ps : List Place}
    (hstores : ∀ e ∈ s.stores, ∀ x ∈ e.cells, x.1 ≠ k) (hatoms : ∀ a ∈ s.atoms, ¬ (a.key ≤ k ∧ k < a.key + atomBytes a.type))
    (hown : ∀ p b, p ∈ ps → p.key = some b → ¬ (b ≤ k ∧ k < b + n)) (how : StoreAs) (data : Nat → Nat) :
    pocByte (queued op f s c n how ps data) k = pocByte s k := by
  have hdev : isHostDev k = false := by simp [isHostDev]; omega
  have hview := (View.of_steady hform hlines (steady_of_lt hk s)).of_sameView (sameView_past op f s c)
  have hqueued := issues_queued (past op f s c) c.agent c.wg.core c.g c.w n how ps data
  have hbyte := (hqueued.view (by omega) (fun h => by simp [h] at hdev) hview).byte
  obtain ⟨hqueue, hkept⟩ := queued_store op f s c c.wg.core c.g c.w n how ps data
  rw [pocByte_other hdev] at hbyte
  rw [queued, lampFlush_of_none hlamp, pocByte_other hdev, readByte_spanFlush hk, hbyte]
  · intro e he x hx
    rcases hqueue e he with he | ⟨p, hp, b, hb, hcells⟩
    · exact hstores e he x hx
    · exact fun hxk => hown p b hp hb (hxk ▸ hcells x hx)
  · rwa [hkept]

end Issue

/-! ### The performance of a store (08 R211) -/

section Perform
variable {s : State} {k q : Nat} {b : Byte} {cs : List Host.Cell}

/-- What the cells make of byte b of key k: the last of its cells, or b itself. -/
def lastCell (k : Nat) (cs : List Host.Cell) (b : Byte) : Byte := cs.foldl (fun b c => if c.1 = k then c.2 else b) b

theorem lastCell_other (hline : k / 128 * 128 ≠ q) (cs : List Host.Cell) (b : Byte) :
    lastCell k (cs.filter (fun c => c.1 / 128 * 128 = q)) b = b :=
  lastCell_absent b fun c hc hck => hline (by simpa [hck] using (List.mem_filter.mp hc).2)

theorem lastCell_line (cs : List Host.Cell) (b : Byte) :
    lastCell k (cs.filter (fun c => c.1 / 128 * 128 = k / 128 * 128)) b = lastCell k cs b := by
  induction cs generalizing b with
  | nil => rfl
  | cons c cs ih =>
    by_cases hc : c.1 / 128 * 128 = k / 128 * 128
    · rw [List.filter_cons_of_pos (by simpa using hc)]
      exact ih _
    · have hck : c.1 ≠ k := fun e => hc (by rw [e])
      rw [List.filter_cons_of_neg (by simpa using hc), ih]
      simp only [lastCell, List.foldl_cons, if_neg hck]

/-- Where a cell is of the key, the byte of before counts for nothing. -/
theorem lastCell_const (h : ∃ c ∈ cs, c.1 = k) (b b' : Byte) : lastCell k cs b = lastCell k cs b' := by
  induction cs generalizing b b' with
  | nil => exact absurd h (by simp)
  | cons c cs ih =>
    unfold lastCell at ih ⊢
    rw [List.foldl_cons, List.foldl_cons]
    by_cases hc : c.1 = k
    · rw [if_pos hc, if_pos hc]
    · obtain ⟨d, hd, hdk⟩ := h
      exact ih ⟨d, (List.mem_cons.mp hd).resolve_left (fun e => hc (e ▸ hdk)), hdk⟩ _ _

theorem lastCell_idem (cs : List Host.Cell) (b : Byte) : lastCell k cs (lastCell k cs b) = lastCell k cs b := by
  by_cases h : ∃ c ∈ cs, c.1 = k
  · exact lastCell_const h _ _
  · have hnone : ∀ c ∈ cs, c.1 ≠ k := fun c hc hck => h ⟨c, hc, hck⟩
    exact congrArg (lastCell k cs) (lastCell_absent b hnone)

theorem isHostDev_iff : isHostDev k = true ↔ 2 ^ 66 ≤ k ∧ k < 2 ^ 67 := by
  simp only [isHostDev, Bool.and_eq_true, decide_eq_true_eq]

/-- A line that is marked as written is one that was so before, or the line itself. -/
theorem hostDirty_cases {l : Nat} (h : (l, true) ∈ (hostDirty s q).hostLines) :
    (l, true) ∈ s.hostLines ∨ isHostDev q = true ∧ l = hostLine q := by
  unfold hostDirty at h
  split at h
  · next hdev =>
    obtain ⟨r, hr, he⟩ := List.mem_map.mp h
    split at he
    · next hl => exact .inr ⟨hdev, by rw [← hl]; exact (congrArg (·.1) he).symm⟩
    · exact .inl (he ▸ hr)
  · exact .inl h

theorem hostDirty_tame (h : ∀ p ∈ s.hostLines, Tame p) (hq : isHostDev q = true → hostLine q < 2 ^ 57) :
    ∀ p ∈ (hostDirty s q).hostLines, Tame p := by
  intro p hp
  unfold hostDirty at hp
  split at hp
  · next hdev =>
    obtain ⟨r, hr, rfl⟩ := List.mem_map.mp hp
    split
    · next hl => exact .inl (hl ▸ hq hdev)
    · exact h r hr
  · exact h p hp

/-- The line that is written has its cells, and a byte of another line is what it was. -/
theorem View.writeLine (h : View s k b) (hbus : busKey k) (halias : noAlias k cs) (hcells : ∀ c ∈ cs, busKey c.1)
    (hq : ∃ c ∈ cs, c.1 / 128 * 128 = q) (since : Nat) (str : Bool) :
    View (writeLine since str cs s q) k (lastCell k (cs.filter (fun c => c.1 / 128 * 128 = q)) b) := by
  obtain ⟨c, hc, hcq⟩ := hq
  have hasked := h.askLine hbus since str q
  have hform : Memory.wf (Machine.writeLine since str cs s q).mem = true := writeLine_wf s h.form since str cs q
  have hqline : isHostDev q = true → hostLine q < 2 ^ 57 := fun hdev => by
    have hq' := isHostDev_iff.mp hdev
    have hdev' : isHostDev c.1 = true := isHostDev_iff.mpr (by omega)
    have := hcells c hc hdev'
    unfold hostLine
    omega
  have hread (j : Nat) : readByte (Machine.writeLine since str cs s q).mem j =
      lastCell j (cs.filter (fun c => c.1 / 128 * 128 = q)) (readByte (Machine.askLine s since str q).mem j) := by
    refine (readByte_writeCells _ _ _).trans ?_
    rw [hostDirty_mem]
    rfl
  have hheld (l : Nat) : hostHeld (Machine.writeLine since str cs s q) l = hostHeld (Machine.askLine s since str q) l :=
    hostDirty_hostHeld _ q l
  have htame := hostDirty_tame hasked.tame hqline
  have hclean (hlo : 2 ^ 65 ≤ k) (hhi : k < 2 ^ 66) : (hostLine (k + 2 ^ 65), true) ∉ (Machine.writeLine since str cs s q).hostLines := by
    intro hmem
    rcases hostDirty_cases hmem with hmem | ⟨hdev, hl⟩
    · exact hasked.host hlo hhi hmem
    · have := (halias hlo (by omega) c hc).2
      have := isHostDev_le hdev
      unfold hostLine at hl
      omega
  cases hdev : isHostDev k with
  | false =>
    refine ⟨?_, hform, htame, fun hk => by simp [hdev] at hk, hclean⟩
    rw [pocByte_other hdev, hread, ← hasked.byte, pocByte_other hdev]
  | true =>
    have hrange := isHostDev_iff.mp hdev
    by_cases hline : k / 128 * 128 = q
    · have hdevq : isHostDev q = true := isHostDev_iff.mpr (by omega)
      have hown : hostLine k = hostLine q := by unfold hostLine; omega
      have hhas := askLine_hostHeld hdevq s since str
      refine ⟨?_, hform, htame, fun _ _ => .inl (by rw [hown]; exact hostDirty_dirty hdevq hhas), hclean⟩
      rw [pocByte_host hdev, hheld, hread, ← hasked.byte, pocByte_host hdev, hown, hhas]
      rfl
    · rw [lastCell_other hline]
      refine hasked.transfer hform ((hread k).trans (lastCell_other hline _ _)) (fun _ => (hread _).trans (lastCell_absent _ ?_))
        (fun _ => hheld _) (fun _ => hostDirty_keeps) htame (fun hlo hhi hmem => absurd hmem (hclean hlo hhi))
      intro d hd hdk
      have := (halias (by omega) hrange.2 d (List.mem_filter.mp hd).1).1
      omega

/-- The lines of a list of cells are those of its cells. -/
theorem exists_of_mem_linesOf (h : q ∈ linesOf cs) : ∃ c ∈ cs, c.1 / 128 * 128 = q := by
  induction cs with
  | nil => exact absurd h List.not_mem_nil
  | cons d rest ih =>
    change q ∈ if (linesOf rest).head? = some (d.1 / 128 * 128) then linesOf rest else d.1 / 128 * 128 :: linesOf rest at h
    have hrest (h : q ∈ linesOf rest) : ∃ c ∈ d :: rest, c.1 / 128 * 128 = q := by
      obtain ⟨c, hc, hcq⟩ := ih h
      exact ⟨c, List.mem_cons_of_mem d hc, hcq⟩
    split at h
    · exact hrest h
    · rcases List.mem_cons.mp h with rfl | h
      · exact ⟨d, List.mem_cons_self, rfl⟩
      · exact hrest h

/-- Lines that are written one after another: the byte is written where its line is among them. -/
theorem View.writeLines (h : View s k b) (hbus : busKey k) (halias : noAlias k cs) (hcells : ∀ c ∈ cs, busKey c.1) (since : Nat)
    (str : Bool) (ls : List Nat) (hls : ∀ q ∈ ls, ∃ c ∈ cs, c.1 / 128 * 128 = q) :
    View (ls.foldl (Machine.writeLine since str cs) s) k (if k / 128 * 128 ∈ ls then lastCell k cs b else b) := by
  induction ls generalizing s b with
  | nil => exact h
  | cons q ls ih =>
    obtain ⟨hq, hrest⟩ := List.forall_mem_cons.mp hls
    have hview := ih (h.writeLine hbus halias hcells hq since str) hrest
    rw [List.foldl_cons]
    by_cases hline : k / 128 * 128 = q
    · subst hline
      rw [lastCell_line, lastCell_idem, ite_self] at hview
      rwa [if_pos List.mem_cons_self]
    · rw [lastCell_other hline] at hview
      simpa only [List.mem_cons, hline, false_or] using hview

theorem View.pocWriteAs (h : View s k b) (hbus : busKey k) (halias : noAlias k cs) (hcells : ∀ c ∈ cs, busKey c.1) (since : Nat)
    (str : Bool) : View (pocWriteAs s since str cs) k (lastCell k cs b) := by
  have hview := h.writeLines hbus halias hcells since str (linesOf cs) fun q => exists_of_mem_linesOf
  by_cases hline : k / 128 * 128 ∈ linesOf cs
  · rwa [if_pos hline] at hview
  · rw [if_neg hline] at hview
    have hnone : lastCell k cs b = b := lastCell_absent b fun c hc hck => hline (hck ▸ mem_linesOf hc)
    rwa [hnone]

theorem View.performStore {e : Store} (h : View s k b) (hkind : e.kind = .st) (hbus : busKey k) (halias : noAlias k e.cells)
    (hcells : ∀ c ∈ e.cells, busKey c.1) : View (performStore s e) k (lastCell k e.cells b) := by
  have hdropped : View (dropStore s e.id) k b := h.of_sameView ⟨rfl, rfl⟩
  unfold Machine.performStore
  simp only [hkind]
  have hwritten := (hdropped.of_sameView (sameView_touchAll _ (nub (e.cells.filterMap (fun c => unitOf c.1))))).pocWriteAs hbus halias
    hcells e.since e.str
  have hjoined := hwritten.of_sameView (sameView_joinLines (dropStore s e.id) _ e)
  have hcleared := hjoined.of_sameView (t := clearWhole _ e) ⟨rfl, rfl⟩
  exact hcleared.of_sameView (sameView_tokenDone _ e.g e.w e.token)

end Perform

/-! ### The frame -/

/-- What every store answers: outside a span of its warp's own its bytes wait in the queue, and inside one only bytes of pending accesses
and of its own lanes change. -/
theorem stored_frame {op : Op} {f : WarpWord} {s : State} {c : Ctx} {n : Nat} {ps : List Place} (h : Ready op f s c)
    (hform : Memory.wf s.mem = true) (hlines : ∀ p ∈ s.hostLines, p.1 < 2 ^ 57) (hload : ¬ (op = .ld ∨ op = .sld))
    (hexec : ∃ how data m, exec (op.instr f) s = .next (clearIssuer { queued op f s c n how ps data with freeCtr := m })) :
    (op = .ld ∨ op = .sld ∨ (ownSpan s c.wg.core c.g c.w = false ∧ ∀ q ∈ s.lampq, q.who ≠ c.agent.q) →
      ∃ t x, exec (op.instr f) s = .next t ∧ getWarp t c.g c.w = some x ∧
        warpFrame c.warp x (fun _ _ => False) (fun _ => False) (fun _ => False) ∧ x.fpstat = c.warp.fpstat ∧ x.sf = c.warp.sf ∧
        ∀ k, k < 2 ^ 100 → busKey k → steady s k → pocByte t k = pocByte s k) ∧
    (op = .st ∨ op = .sst → ownSpan s c.wg.core c.g c.w = true → (∀ q ∈ s.lampq, q.who ≠ c.agent.q) →
      ∃ t, exec (op.instr f) s = .next t ∧ ∀ k, k < 2 ^ 65 →
        (∀ e ∈ s.stores, ∀ x ∈ e.cells, x.1 ≠ k) → (∀ a ∈ s.atoms, ¬ (a.key ≤ k ∧ k < a.key + atomBytes a.type)) →
        (∀ p b, p ∈ ps → p.key = some b → ¬ (b ≤ k ∧ k < b + n)) → pocByte t k = pocByte s k) := by
  obtain ⟨how, data, m, hexec⟩ := hexec
  refine ⟨fun hout => ?_, fun _ _ hlamp => ⟨_, hexec, fun k hk hstores hatoms hown =>
    spanned_store hform hlines hlamp hk hstores hatoms hown how data⟩⟩
  obtain ⟨hspan, hlamp⟩ := (or_assoc.mpr hout).resolve_left hload
  exact issued_frame h hform hlines (issued_store hspan hlamp n how ps data m) hexec

/-- Settles O60: what an instruction of the memory class issues keeps the view of every steady byte, what a span performs writes bytes of
pending accesses, and each line that a store is performed on takes its cells. -/
theorem storeAndLoadFrame : Obligations.StoreAndLoadFrame := by
  refine ⟨?issue, fun s e k hform hkind _ hcells hlines hbus hsteady halias =>
    ((View.of_steady hform hlines hsteady).performStore hkind hbus halias fun c hc => (hcells c hc).2).byte⟩
  intro op f s c ps sp n ls need hop h hform hps hrel hacq hp hatom hlines
  have hops : op = .ld ∨ op = .st ∨ op = .sld ∨ op = .sst := by simpa using hop
  rcases hops with rfl | rfl | rfl | rfl
  · obtain ⟨u, hu, hexec⟩ := execLd_answers h hps (hp (.inl rfl)) (hacq rfl)
    exact ⟨fun _ => issued_frame h hform hlines hu hexec, fun hst => by simp at hst⟩
  · exact stored_frame h hform hlines (by simp) (execSt_answers h hps (hp (.inr rfl)) (hrel rfl))
  · obtain ⟨u, hu, hexec⟩ := execSld_answers h hps (hatom rfl)
    exact ⟨fun _ => issued_frame h hform hlines hu hexec, fun hst => by simp at hst⟩
  · exact stored_frame h hform hlines (by simp) (execSst_answers h hps)

end Sys2Proof.LoadStoreFrame
end
